-- ==== Sys2Proof/Word.lean ====
section
/-! DEFINITION. The bytes and words that software sees, and the two auditoria. -/

namespace Sys2Proof

/-- A byte of a frame, of speech or of the settings image. -/
abbrev Byte := BitVec 8

/-- A module word, a notice set or a module set as it stands on a line (spec/00, conventions). -/
abbrev Word16 := BitVec 16

/-- The two auditoria (spec/00, identifiers). -/
inductive Aud where
  | one
  | two
  deriving DecidableEq, Repr

/-- One thing for each auditorium. -/
structure Two (α : Type) where
  one : α
  two : α
  deriving DecidableEq, Repr

/-- The thing of auditorium `a`. -/
def Two.get {α : Type} (t : Two α) : Aud → α
  | .one => t.one
  | .two => t.two

/-- `t` with auditorium `a`'s thing replaced by `x`. -/
def Two.set {α : Type} (t : Two α) (a : Aud) (x : α) : Two α :=
  match a with
  | .one => { t with one := x }
  | .two => { t with two := x }

end Sys2Proof
end

