-- ==== Sys2Proof/Config.lean ====
section
/-! DEFINITION. What one part fixes: the revision this reference describes, the unit of an audio
sample and what an unlisted byte of the settings memory reads as. No free value stands here: where
the spec leaves an order or a layout open the model makes a marked choice (the assumption log). -/

namespace Sys2Proof.Config

/-- R178: this reference describes revision 1. -/
def revision : Nat := 1

/-- Full scale of an audio sample: a sample is a whole number of 2^-31 of full scale, so any PCM
word of up to 32 bits is one. DESIGN CHOICE, safe (log 10). -/
def fullScale : Nat := 2147483648

/-- What a byte of the settings memory that nothing has written reads as. DESIGN CHOICE, unsafe
(log 8). -/
def unlistedByte : Byte := 255

end Sys2Proof.Config
end

