-- ==== Sys2Proof/Syntax.lean ====
section
/-! DEFINITION. The commands of the part: one constructor of `Instr` for each row of
spec/opcode_table.json, with the fields the row's request or event carries, and the types of those
fields. An enumerated field of a request that may arrive with a code that names no value is an
`Option`; `none` is such a code, and the owner refuses it (log 31). -/

namespace Sys2Proof

/-! ## Identifiers (spec/00, identifiers) -/

/-- Zones Z0-Z19. -/
abbrev ZoneId := Fin 20
/-- Modules M1-M12: module Mn is index n - 1. -/
abbrev ModuleId := Fin 12
/-- Entrances E0-E11. -/
abbrev EntranceId := Fin 12
/-- Description channels DC0-DC3. -/
abbrev ChannelId := Fin 4
/-- Stream slots S0-S9. -/
abbrev SlotId := Fin 10
/-- One audio block: 128 companded samples (spec/00, blocks). -/
abbrev Block := Vector Byte 128

/-! ## Configuration records (spec/01 section 1.1, spec/02 section 2.3, spec/03 head, R71, spec/06
section 6.1, spec/08 section 8.1, spec/09 head, spec/11 section 11.1) -/

/-- spec/01 section 1.1. -/
inductive ZoneKind where
  | unused | hallLoop | foyerLoop | foyerSpeaker | lobby | description
  deriving DecidableEq, Repr

/-- spec/01 section 1.1, foyer home. -/
inductive FoyerHome where
  | aux | silence
  deriving DecidableEq, Repr

/-- spec/03, cue polarity. -/
inductive CuePolarity where
  | activeLow | activeHigh
  deriving DecidableEq, Repr

/-- Live inputs LIVE-A and LIVE-B, and with them the keys LKA and LKB (spec/06 section 6.2). -/
inductive LiveInput where
  | liveA | liveB
  deriving DecidableEq, Repr

/-- spec/08 section 8.1, sensor polarity. -/
inductive SensorPolarity where
  | openHigh | openLow
  deriving DecidableEq, Repr

/-- The ZONE record's configuration fields, level and mute (spec/01 section 1.1). -/
structure ZoneConfig where
  kind : ZoneKind
  auditorium : Option Aud
  modules : List ModuleId
  windowLow : Nat
  windowHigh : Nat
  foyerHome : FoyerHome
  flagged : Bool
  level : Nat
  mute : Bool
  deriving DecidableEq, Repr

/-- The ENTRANCE record (spec/08 section 8.1); `auditorium = none` is an unused entrance. -/
structure EntranceConfig where
  auditorium : Option Aud
  admission : Bool
  adjacent : List ZoneId
  polarity : SensorPolarity
  deriving DecidableEq, Repr

/-- The CHANNEL record (spec/06 section 6.1). -/
structure ChannelConfig where
  auditorium : Option Aud
  zone : Option ZoneId
  liveInput : Option LiveInput
  duck : Nat
  resumeLimit : Nat
  deriving DecidableEq, Repr

/-- The AUDITORIUM record (spec/03 head, R71, spec/08 section 8.1). -/
structure AuditoriumConfig where
  cuePolarity : CuePolarity
  lockout : Nat
  quietThreshold : Int
  soundThreshold : Int
  openTime : Nat
  windowDefault : Nat
  grace : Nat
  relayDuck : Nat
  deriving DecidableEq, Repr

/-- The SUPERVISION record (spec/02 section 2.3); bit n of the enables stands for Mn. -/
structure SupervisionConfig where
  enables : Word16
  gap : Nat
  tripLimit : Nat
  warnTemp : Nat
  tripTemp : Nat
  deriving DecidableEq, Repr

/-- The LINK record (spec/09 head). -/
structure LinkConfig where
  silence : Nat
  enables : Word16
  deriving DecidableEq, Repr

/-- One configuration record (spec/11 section 11.1). -/
inductive ConfigRecord where
  | zone (c : ZoneConfig)
  | entrance (c : EntranceConfig)
  | channel (c : ChannelConfig)
  | auditorium (c : AuditoriumConfig)
  | supervision (c : SupervisionConfig)
  | link (c : LinkConfig)
  deriving DecidableEq, Repr

/-! ## Operands of the services -/

/-- The two claimants of a test tone (R19). -/
inductive TestSource where
  | link | console
  deriving DecidableEq, Repr

/-- An action of a cue entry (spec/03 section 3.5). -/
inductive CueAction where
  | startClip (channel : Nat)
  | stopClip (channel : Nat)
  | openAdmit (seconds : Nat) (closeOnMusic : Bool)
  | closeAdmit
  | releaseCall (callId : Nat)
  | mark
  deriving DecidableEq, Repr

/-- A clip's start condition (spec/06 section 6.3). -/
inductive StartCondition where
  | atCue | gap
  deriving DecidableEq, Repr

/-- A clip descriptor (spec/06 section 6.3); a latest start of 0 means none. -/
structure ClipDesc where
  clipId : Nat
  length : Nat
  condition : StartCondition
  latestStart : Nat
  deriving DecidableEq, Repr

/-- The chimes (R137). -/
inductive Chime where
  | noChime | single | double | rising3
  deriving DecidableEq, Repr

/-- A call's message (spec/07 section 7.1): length in blocks, or maximum in seconds. -/
inductive Message where
  | noMessage
  | stream (length : Nat)
  | liveMic (maxSeconds : Nat)
  deriving DecidableEq, Repr

/-- A call descriptor as CALL-POST carries it, before its checks (spec/07 section 7.1). -/
structure CallFields where
  callId : Nat
  priority : Nat
  targets : List Nat
  chime : Option Chime
  message : Option Message
  repetitions : Nat
  spacing : Nat
  whole : Option Bool
  parked : Option Bool
  expiry : Nat
  deriving DecidableEq, Repr

/-- Whose chime the chime generator sounds (R137). -/
inductive ChimeOwner where
  | call (callId : Nat)
  | window (a : Aud)
  deriving DecidableEq, Repr

/-! ## The commands -/

/-- One constructor for each row of spec/opcode_table.json. A request's first operand is its TAG. -/
inductive Instr where
  -- reset and start-up (spec/11 section 11.5)
  | powerOn
  | supplyDip
  | resetLine
  | resetEnd (mode1 mode0 : Bool)
  | startLoadDone
  -- the control link (spec/09)
  | linkByteReceived (byte : Byte) (framingError : Bool)
  | frameTimeout
  | frameSent
  | silenceTimerExpiry
  | ident (tag : Byte)
  | reset (tag : Byte)
  | noticeEnable (tag : Byte) (kinds : Word16)
  | noticeResume (tag : Byte)
  | noticeClear (tag : Byte) (kinds : Word16)
  | silenceSet (tag : Byte) (seconds : Nat)
  -- part control (spec/11)
  | modeRun (tag : Byte)
  | modeConfig (tag : Byte)
  | configWrite (tag : Byte) (index : Nat) (record : Option ConfigRecord)
  | configRead (tag : Byte) (index : Nat)
  | settingsSave (tag : Byte)
  | settingsSaveDone (readBack : List Byte)
  | settingsLoad (tag : Byte)
  | settingsLoadDone
  | settingsPageWriteTimeout
  -- zones (spec/01)
  | zoneSet (tag : Byte) (zone level : Nat) (mute : Option Bool)
  | zoneStatus (tag : Byte) (zone : Nat)
  | testToneStart (tag : Byte) (zone : Nat)
  | testToneStop (tag : Byte) (zone : Nat)
  | testLimitExpiry (zone : ZoneId) (source : TestSource)
  | overrideAsserted
  | overrideReleased
  -- loop drive supervision (spec/02)
  | pollSet (tag : Byte) (modules : Word16) (gap : Nat)
  | moduleStatus (tag : Byte) (mod : Nat)
  | moduleClear (tag : Byte) (mod : Nat)
  | moduleRestore (tag : Byte) (mod : Nat)
  | ampRead (tag : Byte) (mod word : Nat)
  | ampWrite (tag : Byte) (mod word : Nat) (value : Word16)
  | busTransactionEnd (value : Word16)
  | busAnswerTimeout
  | pollGapExpiry
  -- cue followers (spec/03)
  | cuePress (a : Aud)
  | cueLineRelease (a : Aud)
  | lockoutExpiry (a : Aud)
  | cueGo (tag : Byte) (auditorium : Nat)
  | cueSet (tag : Byte) (auditorium position : Nat)
  | cueWrite (tag : Byte) (auditorium number : Nat) (actions : List (Option CueAction))
  | cueErase (tag : Byte) (auditorium number : Nat)
  | cueRead (tag : Byte) (auditorium number : Nat)
  | cueStatus (tag : Byte) (auditorium : Nat)
  | captureRead (tag : Byte) (auditorium : Nat)
  -- quiet detectors (spec/04)
  | levelUpdate (a : Aud) (samples : List (Option Int))
  | openTimerExpiry (a : Aud)
  | gapStatus (tag : Byte) (auditorium : Nat)
  -- block pool (spec/05)
  | feed (tag : Byte) (slot owner fill : Nat) (block : Block)
  | streamStatus (tag : Byte)
  | blockPlayed (slot : SlotId)
  | starveTimerExpiry (slot : SlotId)
  -- description engine (spec/06)
  | liveKeyPress (key : LiveInput)
  | liveKeyRelease (key : LiveInput)
  | clipArm (tag : Byte) (channel clipId length : Nat) (condition : Option StartCondition)
      (latestStart : Nat)
  | clipDisarm (tag : Byte) (channel clipId : Nat)
  | clipStart (tag : Byte) (channel : Nat)
  | clipStop (tag : Byte) (channel : Nat)
  | channelModeScripted (tag : Byte) (channel : Nat)
  | channelModeStanding (tag : Byte) (channel clipId length : Nat)
  | channelStatus (tag : Byte) (channel : Nat)
  | latestStartPassed (channel : ChannelId)
  | resumeLimitExpiry (channel : ChannelId)
  -- call scheduler (spec/07)
  | callPost (tag : Byte) (call : CallFields)
  | callRelease (tag : Byte) (callId : Nat)
  | callEnd (tag : Byte) (callId : Nat)
  | callCancel (tag : Byte) (callId : Nat)
  | callStatus (tag : Byte) (callId : Nat)
  | callFinished (tag : Byte)
  | callExpiry (callId : Nat)
  | spacingExpiry (callId : Nat)
  | breakExpiry (callId : Nat)
  | micTimerExpiry (callId : Nat)
  | chimeEnd (owner : ChimeOwner)
  -- entrance controller (spec/08)
  | entranceSensorEvent (entrance : EntranceId) (isOpen : Bool)
  | houseClose (tag : Byte) (auditorium : Nat) (resetFlag : Option Bool)
  | houseOpen (tag : Byte) (auditorium : Nat)
  | admitOpen (tag : Byte) (auditorium seconds : Nat) (closeOnMusic : Option Bool)
  | admitClose (tag : Byte) (auditorium : Nat)
  | windowExpiry (a : Aud)
  | graceExpiry (a : Aud)
  | entranceStatus (tag : Byte) (auditorium : Nat)
  | entranceClear (tag : Byte) (entrance : Nat)
  -- console (spec/10)
  | consoleIdleExpiry
  | consoleCharacter (char : Byte) (framingError : Bool)
  | consoleStatus
  | consoleZoneStatus (zone : Nat)
  | consoleModuleStatus (mod : Nat)
  | consoleTestStart (zone : Nat)
  | consoleTestStop (zone : Nat)
  | softCue (auditorium : Nat)
  | consoleAmpRead (mod word : Nat)
  -- sampled lines leaving UNSETTLED (R50, R102)
  | cueLineSettled (a : Aud) (active : Bool)
  | liveKeySettled (key : LiveInput)
  deriving DecidableEq, Repr

end Sys2Proof
end

