-- ==== Sys2Proof/WellFormed.lean ====
section
/-! DEFINITION. Which commands can be sent: every number fits the bytes its field has on the link
(spec/09 section 9.1: the least whole number of bytes that holds the field's range), console
arguments the 16 bits of spec/10 section 10.3, and the samples of a level update the 480 places of
10 ms and full scale. What the part then does with a value outside the field's range is its owner's
refusal (RANGE), not a matter of form. -/

namespace Sys2Proof

/-- `n` fits one byte. -/
def fits8 (n : Nat) : Bool := n < 256
/-- `n` fits two bytes. -/
def fits16 (n : Nat) : Bool := n < 65536
/-- `n` fits four bytes. -/
def fits32 (n : Nat) : Bool := n < 4294967296
/-- `n` fits one signed byte. -/
def fitsSigned8 (n : Int) : Bool := decide (-128 ≤ n) && decide (n < 128)

/-- A record's numbers fit their fields. -/
def ConfigRecord.wellFormed : ConfigRecord → Bool
  | .zone c => fits16 c.windowLow && fits16 c.windowHigh && fits8 c.level
  | .entrance _ => true
  | .channel c => fits8 c.duck && fits8 c.resumeLimit
  | .auditorium c => fits16 c.lockout && fitsSigned8 c.quietThreshold && fitsSigned8 c.soundThreshold
      && fits16 c.openTime && fits16 c.windowDefault && fits8 c.grace && fits8 c.relayDuck
  | .supervision c => fits16 c.gap && fits8 c.tripLimit && fits8 c.warnTemp && fits8 c.tripTemp
  | .link c => fits8 c.silence

/-- An action's numbers fit their fields. -/
def CueAction.wellFormed : CueAction → Bool
  | .startClip d => fits8 d
  | .stopClip d => fits8 d
  | .openAdmit n _ => fits16 n
  | .closeAdmit => true
  | .releaseCall i => fits8 i
  | .mark => true

/-- A call descriptor's numbers fit their fields; its targets fit the 32-bit mask. -/
def CallFields.wellFormed (d : CallFields) : Bool :=
  fits8 d.callId && fits8 d.priority && d.targets.all (fun z => decide (z < 32))
    && (match d.message with
        | some (.stream n) => fits16 n
        | some (.liveMic n) => fits8 n
        | _ => true)
    && fits8 d.repetitions && fits16 d.spacing && fits16 d.expiry

/-- An audio sample lies within full scale (log 10). -/
def sampleFits : Option Int → Bool
  | none => true
  | some v => decide (-(Config.fullScale : Int) ≤ v) && decide (v < (Config.fullScale : Int))

/-- The command can be sent. -/
def Instr.wellFormed : Instr → Bool
  | .powerOn | .supplyDip | .resetLine | .resetEnd _ _ | .startLoadDone => true
  | .linkByteReceived _ _ | .frameTimeout | .frameSent | .silenceTimerExpiry => true
  | .ident _ | .reset _ | .noticeEnable _ _ | .noticeResume _ | .noticeClear _ _ => true
  | .silenceSet _ n => fits8 n
  | .modeRun _ | .modeConfig _ => true
  | .configWrite _ i r => fits8 i && (match r with | some c => c.wellFormed | none => true)
  | .configRead _ i => fits8 i
  | .settingsSave _ => true
  | .settingsSaveDone back => decide (back.length = 11)
  | .settingsLoad _ | .settingsLoadDone | .settingsPageWriteTimeout => true
  | .zoneSet _ z l _ => fits8 z && fits8 l
  | .zoneStatus _ z | .testToneStart _ z | .testToneStop _ z => fits8 z
  | .testLimitExpiry _ _ | .overrideAsserted | .overrideReleased => true
  | .pollSet _ _ g => fits8 g
  | .moduleStatus _ m | .moduleClear _ m | .moduleRestore _ m => fits8 m
  | .ampRead _ m w => fits8 m && fits8 w
  | .ampWrite _ m w _ => fits8 m && fits8 w
  | .busTransactionEnd _ | .busAnswerTimeout | .pollGapExpiry => true
  | .cuePress _ | .cueLineRelease _ | .lockoutExpiry _ => true
  | .cueGo _ a => fits8 a
  | .cueSet _ a p => fits8 a && fits16 p
  | .cueWrite _ a n acts =>
      fits8 a && fits16 n && acts.all (fun x => match x with | some c => c.wellFormed | none => true)
  | .cueErase _ a n | .cueRead _ a n => fits8 a && fits16 n
  | .cueStatus _ a | .captureRead _ a => fits8 a
  | .levelUpdate _ samples => decide (samples.length ≤ 480) && samples.all sampleFits
  | .openTimerExpiry _ => true
  | .gapStatus _ a => fits8 a
  | .feed _ s o f _ => fits8 s && fits8 o && fits8 f
  | .streamStatus _ | .blockPlayed _ | .starveTimerExpiry _ => true
  | .liveKeyPress _ | .liveKeyRelease _ => true
  | .clipArm _ d i n _ l => fits8 d && fits8 i && fits16 n && fits32 l
  | .clipDisarm _ d i => fits8 d && fits8 i
  | .clipStart _ d | .clipStop _ d | .channelModeScripted _ d => fits8 d
  | .channelModeStanding _ d i n => fits8 d && fits8 i && fits16 n
  | .channelStatus _ d => fits8 d
  | .latestStartPassed _ | .resumeLimitExpiry _ => true
  | .callPost _ d => d.wellFormed
  | .callRelease _ i | .callEnd _ i | .callCancel _ i | .callStatus _ i => fits8 i
  | .callFinished _ => true
  | .callExpiry i | .spacingExpiry i | .breakExpiry i | .micTimerExpiry i => fits8 i
  | .chimeEnd (.call i) => fits8 i
  | .chimeEnd (.window _) => true
  | .entranceSensorEvent _ _ => true
  | .houseClose _ a _ | .houseOpen _ a => fits8 a
  | .admitOpen _ a n _ => fits8 a && fits16 n
  | .admitClose _ a => fits8 a
  | .windowExpiry _ | .graceExpiry _ => true
  | .entranceStatus _ a | .entranceClear _ a => fits8 a
  | .consoleIdleExpiry | .consoleCharacter _ _ | .consoleStatus => true
  | .consoleZoneStatus n | .consoleModuleStatus n | .consoleTestStart n | .consoleTestStop n
  | .softCue n => fits16 n
  | .consoleAmpRead m w => fits16 m && fits16 w
  | .cueLineSettled _ _ | .liveKeySettled _ => true

end Sys2Proof
end

