-- ==== Sys2Proof/Decode.lean ====
section
/-! DEFINITION. spec/opcode_table.json gives no row any bits (every row's "fields" is empty and none
has "fixed"), so no word spells a command: the part's commands reach it as link frames, console
lines and field events, whose forms Machine/LinkBytes.lean and Machine/ConsoleCommands.lean read. -/

namespace Sys2Proof

/-- The command that a word spells by the table's bits: none, as no row gives bits. -/
def decodeTableWord (_nbits _w : Nat) : Option Instr := none

end Sys2Proof
end

