-- ==== Sys2Proof/Machine/State.lean ====
section
/-! DEFINITION. The state of the part as plain data, its reset value, and the ways a step can stop.
Timers hold the milliseconds left (`none` is a stopped timer). Bit sets that software sees are words;
everything else has a type of its own. -/

namespace Sys2Proof.Machine

/-! ## Statuses and operating states -/

/-- The reply statuses (spec/09 section 9.1). -/
inductive Status where
  | ok | busy | kind | length | range | state | full | absent | conflict | pool | noAnswer | empty
  | notReady
  deriving DecidableEq, Repr

/-- The kinds of reset (R193). -/
inductive ResetCause where
  | powerOn | supplyDip | resetLine | linkReset
  deriving DecidableEq, Repr

/-- The start-up modes of MODE1 (R193). -/
inductive StrapMode where
  | wait | self
  deriving DecidableEq, Repr

/-- A sampled line's filter (R50, R102). -/
inductive FilterState where
  | unsettled | released | pressed
  deriving DecidableEq, Repr

/-! ## Zone router (spec/01) -/

/-- R40. -/
inductive DriveState where
  | unknown | good | degraded | failed
  deriving DecidableEq, Repr

/-- A claimant: its kind and its id (spec/01 section 1.2). `window a` is the ADMIT chime of
auditorium a. -/
inductive Claimant where
  | override
  | call (callId : Nat)
  | live (d : ChannelId)
  | clip (d : ChannelId)
  | window (a : Aud)
  | test (src : TestSource)
  deriving DecidableEq, Repr

/-- A claim (spec/01 section 1.2). -/
structure Claim where
  rank : Nat
  who : Claimant
  deriving DecidableEq, Repr

/-- What the router and the loop supervisor keep of a zone (spec/01 section 1.1); its configuration
fields, level and mute stand in the ZONE record. The stack is held top first. -/
structure ZoneRecord where
  drive : DriveState
  backoff : Bool
  holds : Nat
  active : Option Claim
  stack : List Claim
  testLink : Option Nat
  testConsole : Option Nat
  deriving DecidableEq, Repr

/-! ## Block pool (spec/05) -/

/-- R83. -/
inductive SlotState where
  | idle | loading | playing | starved | paused
  deriving DecidableEq, Repr

/-- A slot record (spec/05 section 5.1). The held list is oldest first; guarantee and prefill are
computed from the length. -/
structure Slot where
  state : SlotState
  owner : Option Nat
  length : Nat
  toReceive : Nat
  held : List Block
  lastFill : Option Nat
  retain : Bool
  loop : Bool
  position : Nat
  offset : Nat
  passes : Nat
  starve : Option Nat
  deriving DecidableEq, Repr

/-- Why the pool abandoned a slot by itself (R99). -/
inductive AbandonReason where
  | starved | hostLost | config
  deriving DecidableEq, Repr

/-! ## Description engine (spec/06) -/

/-- spec/06 section 6.4. -/
inductive ClipState where
  | waitingFill | waitingGap | waitingZone | speaking | suspended
  deriving DecidableEq, Repr

/-- R109. -/
inductive ClipOutcome where
  | done | cut | stopped | late | starved | resumeLimit | hostLost | config
  deriving DecidableEq, Repr

/-- The active clip of a channel (R101, R112, R119, R120). -/
structure ActiveClip where
  desc : ClipDesc
  slot : SlotId
  state : ClipState
  filled : Bool
  standing : Bool
  finishing : Bool
  resumeLeft : Option Nat
  deriving DecidableEq, Repr

/-- The last outcome of a channel (R109). -/
structure LastOutcome where
  clipId : Nat
  outcome : ClipOutcome
  clock : Nat
  standing : Bool
  deriving DecidableEq, Repr

/-- R101. -/
inductive ChannelMode where
  | scripted | standing
  deriving DecidableEq, Repr

/-- R103. -/
inductive LiveClaim where
  | none | onZone | waiting
  deriving DecidableEq, Repr

/-- A channel record (spec/06 section 6.1). -/
structure Channel where
  mode : ChannelMode
  active : Option ActiveClip
  queue : List ClipDesc
  headSlot : Option SlotId
  headFilled : Bool
  lastOutcome : Option LastOutcome
  liveFlag : Bool
  liveClaim : LiveClaim
  deriving DecidableEq, Repr

/-- The live-key filters and the last samples of the two keys (R102); a sample is the line's level. -/
structure LiveKey where
  filter : FilterState
  sample : Option Bool
  deriving DecidableEq, Repr

/-! ## Call scheduler (spec/07) -/

/-- A call descriptor once accepted (spec/07 section 7.1). -/
structure CallDesc where
  callId : Nat
  priority : Nat
  targets : List ZoneId
  chime : Chime
  message : Message
  repetitions : Nat
  spacing : Nat
  whole : Bool
  parked : Bool
  expiry : Nat
  deriving DecidableEq, Repr

/-- R127. -/
inductive CallState where
  | parked | waiting | playing | spacing
  deriving DecidableEq, Repr

/-- R127. -/
inductive CallPhase where
  | chime | pause | message
  deriving DecidableEq, Repr

/-- The live state of a call (R127). The current set is computed from the zone records
(`currentSet`). `dropMessage` is a CALL-END taken in CHIME (R139). -/
structure Call where
  desc : CallDesc
  state : CallState
  phase : Option CallPhase
  unbroken : List ZoneId
  heard : List ZoneId
  done : Nat
  slot : Option SlotId
  filled : Bool
  posted : Nat
  firstStart : Option Nat
  expiryLeft : Option Nat
  spacingLeft : Option Nat
  micLeft : Option Nat
  breakLeft : Option Nat
  dropMessage : Bool
  deriving DecidableEq, Repr

/-- spec/07 section 7.2. -/
inductive CallOutcome where
  | done | expired | cancelled | streamFailed | hostLost | config
  deriving DecidableEq, Repr

/-- A finished record (R128). -/
structure FinishedRecord where
  callId : Nat
  targets : List ZoneId
  heard : List ZoneId
  done : Nat
  firstStart : Option Nat
  endTime : Nat
  outcome : CallOutcome
  deriving DecidableEq, Repr

/-- A chime the generator is sounding (R137). -/
structure RunningChime where
  owner : ChimeOwner
  chime : Chime
  left : Nat
  deriving DecidableEq, Repr

/-! ## Entrance controller (spec/08) -/

/-- spec/08 section 8.2. `admitting` is ADMITTING. -/
inductive HouseState where
  | opened | sealed | admitting | closing
  deriving DecidableEq, Repr

/-- R149. -/
inductive Sensed where
  | unknown | closed | opened
  deriving DecidableEq, Repr

/-- R151. -/
inductive Lamp where
  | off | red | green
  deriving DecidableEq, Repr

/-- What the part keeps of an entrance (R149-R151, R159); the fault latch is its two conditions
(R150). -/
structure Entrance where
  sensed : Sensed
  sample : Option Bool
  openedWhileSealed : Bool
  leftOpen : Bool
  lamp : Lamp
  holding : Bool
  deriving DecidableEq, Repr

/-- R160, opened by. -/
inductive WindowOrigin where
  | cue | request
  deriving DecidableEq, Repr

/-- R156, R160. -/
inductive CloseReason where
  | expired | cue | request | music | houseOpen
  deriving DecidableEq, Repr

/-- R160, grace outcome. `pending` is the record's "none"; `notNeeded` its "NONE". -/
inductive GraceOutcome where
  | pending | notNeeded | allClosed | expired | houseOpen
  deriving DecidableEq, Repr

/-- R158. -/
inductive ChimeResult where
  | whole | part | skipped
  deriving DecidableEq, Repr

/-- The window record (R160). -/
structure WindowRecord where
  number : Nat
  opened : Nat
  openedBy : WindowOrigin
  windowTime : Nat
  closeOnMusic : Bool
  closed : Option Nat
  closeReason : Option CloseReason
  grace : GraceOutcome
  leftOpen : List EntranceId
  chimes : Option (List (ZoneId × ChimeResult))
  deriving DecidableEq, Repr

/-- What the controller keeps of one auditorium (spec/08). `chimes` are the running results of the
admit chime (R158), meaningful while it sounds. -/
structure House where
  state : HouseState
  windowLeft : Option Nat
  graceLeft : Option Nat
  closeOnMusic : Bool
  windows : Nat
  record : Option WindowRecord
  chimes : List (ZoneId × ChimeResult)
  deriving DecidableEq, Repr

/-! ## Link port (spec/09) -/

/-- The request kinds of the request table (spec/09 section 9.4). -/
inductive RequestKind where
  | ident | reset | noticeEnable | noticeResume | noticeClear | silenceSet
  | mode | configWrite | configRead | settingsSave | settingsLoad
  | zoneSet | zoneStatus | testTone
  | pollSet | moduleStatus | moduleClear | moduleRestore | ampRead | ampWrite
  | cueWrite | cueErase | cueRead | cueGo | cueSet | cueStatus | captureRead | gapStatus
  | feed | streamStatus
  | clipArm | clipStart | clipStop | clipDisarm | channelMode | channelStatus
  | callPost | callRelease | callEnd | callCancel | callStatus | callFinished
  | houseOpen | houseClose | admitOpen | admitClose | entranceStatus | entranceClear
  deriving DecidableEq, Repr

/-- The blocks that own requests (spec/00, block diagram; spec/09 section 9.4). -/
inductive OwnerBlock where
  | zoneRouter | loopSupervisor | cueFollower | quietDetector | blockPool | descriptionEngine
  | callScheduler | entranceController | linkPort | partControl
  deriving DecidableEq, Repr

/-- An entry of the outstanding list (R169). Its owning block follows from its kind
(`Outstanding.owner`). -/
structure Outstanding where
  tag : Byte
  kind : RequestKind
  deriving DecidableEq, Repr

/-- An item of the transmit queue (R171): a ready reply with the BODYs of its frames still to be
sent, an immediate reply of R168, or a notice frame (R174). -/
inductive TxItem where
  | reply (tag : Byte) (kind : RequestKind) (bodies : List (List Byte))
  | immediate (tag kind : Byte) (body : List Byte)
  | notice (body : List Byte)
  deriving DecidableEq, Repr

/-- A byte kept by the receiver, with the milliseconds since it arrived (R166). -/
structure KeptByte where
  byte : Byte
  age : Nat
  deriving DecidableEq, Repr

/-- The link port (spec/09). The enable flags and the silence time stand in the LINK record
(R173, R175). -/
structure LinkPort where
  buffer : List KeptByte
  outstanding : List Outstanding
  tx : List TxItem
  pendingKinds : Word16
  gateOpen : Bool
  silenceLeft : Option Nat
  standalone : Bool
  accepting : Bool
  deriving DecidableEq, Repr

/-! ## The services: what the reports of one step travel between -/

/-- A report from the router or the pool to the block that owns what it names (R6, R7, R10, R11,
R83). -/
inductive Report where
  | claimPushed (c : Claim) (z : ZoneId)
  | claimRestored (c : Claim) (z : ZoneId)
  | zoneLost (c : Claim) (z : ZoneId)
  | zoneReleased (z : ZoneId) (rank holds : Nat)
  | prefillReached (i : SlotId)
  | passDone (i : SlotId) (passes : Nat)
  | streamDone (i : SlotId) (owner : Nat)
  | slotAbandoned (i : SlotId) (reason : AbandonReason) (owner : Nat)
  deriving DecidableEq, Repr

/-- Zone router, block pool, description engine, call scheduler, entrance controller and link port,
with the reports in transit among them. -/
structure Services where
  zones : Vector ZoneRecord 20
  override : Bool
  free : Nat
  slots : Vector Slot 10
  channels : Vector Channel 4
  keyA : LiveKey
  keyB : LiveKey
  calls : List Call
  finished : List FinishedRecord
  callClock : Nat
  chimes : List RunningChime
  walkDue : Bool
  walkZones : List ZoneId
  houses : Two House
  entrances : Vector Entrance 12
  link : LinkPort
  reports : List Report
  deriving DecidableEq, Repr

/-! ## Loop supervisor (spec/02) -/

/-- R26. -/
inductive ModuleState where
  | unknown | absent | notReady | good | warn | fault
  deriving DecidableEq, Repr

/-- The module's own fault conditions of word 3 (spec/02 section 2.2). -/
structure WordFaults where
  overcurrent : Bool
  openLoop : Bool
  overtemp : Bool
  supply : Bool
  internal : Bool
  deriving DecidableEq, Repr

/-- Cached capabilities (R26, R29). -/
structure Caps where
  thermal : Bool
  supply : Bool
  deriving DecidableEq, Repr

/-- A module record (R26). Poll enable is the module's bit of the SUPERVISION record. -/
structure ModuleRecord where
  state : ModuleState
  identity : Option Word16
  caps : Option Caps
  outputEnabled : Option Bool
  resistance : Option Nat
  temperature : Option Int
  latch : WordFaults
  loopShort : Bool
  loopOpen : Bool
  carried : WordFaults
  run : Nat
  tripped : Bool
  deriving DecidableEq, Repr

/-- A visit: the module, the step it has reached (1 to 6) and its marks (R28-R32); `dropped` is a
visit whose module was disabled while its transaction ran (R44). -/
structure Visit where
  module_ : ModuleId
  step : Nat
  faulty : Bool
  warm : Bool
  dropped : Bool
  deriving DecidableEq, Repr

/-- The poll machine (R27). `atStart` waits for the configuration in force (R47); `gap` holds the
milliseconds since the round ended. -/
inductive PollState where
  | atStart
  | idle
  | visit (v : Visit)
  | gap (elapsed : Nat)
  deriving DecidableEq, Repr

/-- Who asked for a pass-through (R37). -/
inductive Asker where
  | link (tag : Byte)
  | console
  deriving DecidableEq, Repr

/-- The pending pass-through (R37): a read, or a write of `value`. -/
structure PassThrough where
  asker : Asker
  module_ : ModuleId
  word : Nat
  value : Option Word16
  deriving DecidableEq, Repr

/-- Who holds the bus (R36). -/
inductive BusUser where
  | protective | passThrough | poll
  deriving DecidableEq, Repr

/-- The transaction in flight (R25): a read, or a write of `value`. -/
structure Transaction where
  user : BusUser
  module_ : ModuleId
  word : Nat
  value : Option Word16
  deriving DecidableEq, Repr

/-- The loop supervisor. A protective entry is a module and the bit to write (R33). -/
structure Supervisor where
  modules : Vector ModuleRecord 12
  poll : PollState
  protective : List (ModuleId × Bool)
  pass : Option PassThrough
  bus : Option Transaction
  deriving DecidableEq, Repr

/-! ## Cue followers (spec/03) -/

/-- R58. -/
inductive CueOrigin where
  | line | link | console | jump
  deriving DecidableEq, Repr

/-- A capture record (R58). -/
structure Capture where
  position : Nat
  clock : Nat
  origin : CueOrigin
  deriving DecidableEq, Repr

/-- A cue entry (spec/03 section 3.5). -/
structure CueEntry where
  number : Nat
  actions : List CueAction
  deriving DecidableEq, Repr

/-- An action's outcome (R64, R65): DONE is `ok`; any other status is REFUSED with it. -/
abbrev ActionOutcome := CueAction × Status

/-- The fire record (R66). -/
structure FireRecord where
  number : Nat
  clock : Nat
  origin : CueOrigin
  outcomes : List ActionOutcome
  deriving DecidableEq, Repr

/-- Who waits for an advance or a jump (R54-R57). -/
inductive CueAsker where
  | line
  | link (tag : Byte)
  | console
  deriving DecidableEq, Repr

/-- A firing in progress (R64): what is recorded already and what is still to be handed on. -/
structure Firing where
  number : Nat
  clock : Nat
  asker : CueAsker
  outcomes : List ActionOutcome
  rest : List CueAction
  deriving DecidableEq, Repr

/-- An advance or jump that waits (R57). -/
inductive WaitingCue where
  | advance (asker : CueAsker)
  | jump (tag : Byte) (position : Nat)
  deriving DecidableEq, Repr

/-- A cue follower (spec/03). A sample is the line's level. -/
structure CueFollower where
  clock : Nat
  running : Bool
  filter : FilterState
  sample : Option Bool
  lockout : Option Nat
  position : Nat
  list : List CueEntry
  log : List Capture
  fire : Option FireRecord
  firing : Option Firing
  waiting : List WaitingCue
  deriving DecidableEq, Repr

/-! ## Quiet detectors (spec/04) -/

/-- spec/04 section 4.3. -/
inductive GapState where
  | sound | settling | quiet
  deriving DecidableEq, Repr

/-- A gap record (R77). -/
structure GapRecord where
  start : Nat
  length : Nat
  deriving DecidableEq, Repr

/-- A quiet detector (spec/04). `history` holds the energies of the last ten 10 ms stretches of
samples, newest first (R70); `current` the gap start and gap length count (R72). -/
structure QuietDetector where
  history : List Nat
  level : Int
  state : GapState
  openLeft : Option Nat
  current : Option GapRecord
  lastGap : Option GapRecord
  longestGap : Option GapRecord
  deriving DecidableEq, Repr

/-! ## Console (spec/10) -/

/-- spec/10 section 10.1. -/
inductive ConsoleState where
  | silent | waking | editing | comment | executing
  deriving DecidableEq, Repr

/-- A field of a console result line (R184). -/
inductive TextField where
  | text (t : String)
  | number (n : Int)
  | hex (w : Word16)
  deriving DecidableEq, Repr

/-- A piece of text the console sends (R181, R182, R184); its characters are `ConsoleText.chars`, and a
result line ends with its line end. -/
inductive ConsoleText where
  | banner
  | prompt
  | echo (c : Byte)
  | rubOut
  | dollar
  | lineEnd
  | line (fields : List TextField)
  deriving DecidableEq, Repr

/-- The console. `sent` is the model's record of the text sent since the reset, oldest first
(log 16). -/
structure Console where
  state : ConsoleState
  line : List Byte
  idle : Nat
  sent : List ConsoleText
  deriving DecidableEq, Repr

/-! ## Part control (spec/11) -/

/-- The configuration in force: forty records (spec/11 section 11.1). -/
structure Configuration where
  zones : Vector ZoneConfig 20
  entrances : Vector EntranceConfig 12
  channels : Vector ChannelConfig 4
  auditoria : Two AuditoriumConfig
  supervision : SupervisionConfig
  link : LinkConfig
  deriving DecidableEq, Repr

/-- R190. -/
inductive SettingsKind where
  | startLoad | load | save
  deriving DecidableEq, Repr

/-- The result of a settings operation (R189, R191, R194), with the index of a RANGE or INVALID. -/
inductive SettingsResult where
  | memory | marker | length | crc
  | range (index : Nat)
  | loaded
  | invalid (index : Nat)
  | saved
  deriving DecidableEq, Repr

/-- A settings operation in progress (R191, R192, R194). -/
inductive SettingsOp where
  | startLoad
  | load (tag : Byte)
  | save (tag : Byte) (copy : Configuration)
  deriving DecidableEq, Repr

/-- The settings result record, index 40 (R190). -/
structure ResultRecord where
  kind : Option SettingsKind
  result : Option SettingsResult
  inProgress : Bool
  deriving DecidableEq, Repr

/-- The settings memory: what it holds that differs from an unlisted byte, by rising address. -/
abbrev Memory := List Host.Cell

/-- Part control. `running` is RUN; `holding` is a reset that still holds (R193). -/
structure PartControl where
  running : Bool
  cfg : Configuration
  strap : StrapMode
  fastLink : Bool
  cause : ResetCause
  holding : Bool
  settings : Option SettingsOp
  memoryFault : Bool
  result : ResultRecord
  memory : Memory
  deriving DecidableEq, Repr

/-! ## Pins (spec/00, pin groups) -/

/-- Levels of the input lines (`true` is high; OVR: asserted). -/
structure Pins where
  cue : Two Bool
  keyA : Bool
  keyB : Bool
  sensors : Vector Bool 12
  ovr : Bool
  mode1 : Bool
  mode0 : Bool
  rst : Bool
  consoleStop : Bool
  deriving DecidableEq, Repr

/-! ## The whole part -/

/-- The state of the part. `ovrSample` is the last sample of OVR (R16), `phase` the millisecond of
the 10 ms sampling period (R16, R149), `pending` the commands waiting, first in, first out. -/
structure State where
  svc : Services
  sup : Supervisor
  cue : Two CueFollower
  quiet : Two QuietDetector
  console : Console
  control : PartControl
  pins : Pins
  ovrSample : Option Bool
  phase : Nat
  pending : List Instr
  deriving DecidableEq, Repr

/-- The ways a step can fault: none. The spec names no event that stops the part, and a command that
may not act is refused by a status in its reply, which is a next state. Safe: nothing is ever said
of a fault (log 24). -/
inductive Fault where
  deriving DecidableEq, Repr

/-- The ways a step can be refused. -/
inductive Refusal where
  /-- A command whose meaning is not modelled: raised by an arm of exec that has no meaning (none
  has). Safe: nothing is said of a state after it. -/
  | notModelled (mnemonic : String)
  deriving DecidableEq, Repr

/-! ## Reset values -/

/-- R22: a zone record after reset. -/
def ZoneRecord.fresh : ZoneRecord :=
  { drive := .good, backoff := false, holds := 0, active := none, stack := []
    testLink := none, testConsole := none }

/-- R100: an IDLE slot. -/
def Slot.idle : Slot :=
  { state := .idle, owner := none, length := 0, toReceive := 0, held := [], lastFill := none
    retain := false, loop := false, position := 0, offset := 0, passes := 0, starve := none }

/-- R124. -/
def Channel.fresh : Channel :=
  { mode := .scripted, active := none, queue := [], headSlot := none, headFilled := false
    lastOutcome := none, liveFlag := false, liveClaim := .none }

/-- R124. -/
def LiveKey.fresh : LiveKey := { filter := .unsettled, sample := none }

/-- R165. -/
def House.fresh : House :=
  { state := .opened, windowLeft := none, graceLeft := none, closeOnMusic := false, windows := 0
    record := none, chimes := [] }

/-- R165. -/
def Entrance.fresh : Entrance :=
  { sensed := .unknown, sample := none, openedWhileSealed := false, leftOpen := false, lamp := .off
    holding := false }

/-- R180. -/
def LinkPort.fresh : LinkPort :=
  { buffer := [], outstanding := [], tx := [], pendingKinds := 0, gateOpen := false
    silenceLeft := none, standalone := false, accepting := true }

/-- R22, R100, R124, R147, R165, R180. -/
def Services.fresh : Services :=
  { zones := Vector.replicate 20 ZoneRecord.fresh, override := false, free := 4096
    slots := Vector.replicate 10 Slot.idle, channels := Vector.replicate 4 Channel.fresh
    keyA := LiveKey.fresh, keyB := LiveKey.fresh, calls := [], finished := [], callClock := 0
    chimes := [], walkDue := false, walkZones := [], houses := ⟨House.fresh, House.fresh⟩
    entrances := Vector.replicate 12 Entrance.fresh, link := LinkPort.fresh, reports := [] }

/-- No fault condition. -/
def WordFaults.none : WordFaults := ⟨false, false, false, false, false⟩

/-- R47. -/
def ModuleRecord.fresh : ModuleRecord :=
  { state := .unknown, identity := none, caps := none, outputEnabled := none, resistance := none
    temperature := none, latch := WordFaults.none, loopShort := false, loopOpen := false
    carried := WordFaults.none, run := 0, tripped := false }

/-- R47: the poll machine waits for the configuration in force. -/
def Supervisor.fresh : Supervisor :=
  { modules := Vector.replicate 12 ModuleRecord.fresh, poll := .atStart, protective := []
    pass := none, bus := none }

/-- R69. -/
def CueFollower.fresh : CueFollower :=
  { clock := 0, running := false, filter := .unsettled, sample := none, lockout := none
    position := 0, list := [], log := [], fire := none, firing := none, waiting := [] }

/-- R80. -/
def QuietDetector.fresh : QuietDetector :=
  { history := List.replicate 10 0, level := -90, state := .sound, openLeft := none
    current := none, lastGap := none, longestGap := none }

/-- R181. -/
def Console.fresh : Console := { state := .silent, line := [], idle := 0, sent := [] }

/-- R22. -/
def ZoneConfig.default : ZoneConfig :=
  { kind := .unused, auditorium := none, modules := [], windowLow := 0, windowHigh := 0
    foyerHome := .silence, flagged := false, level := 20, mute := false }

/-- spec/08 section 8.1. -/
def EntranceConfig.default : EntranceConfig :=
  { auditorium := none, admission := false, adjacent := [], polarity := .openHigh }

/-- spec/06 section 6.1. -/
def ChannelConfig.default : ChannelConfig :=
  { auditorium := none, zone := none, liveInput := none, duck := 12, resumeLimit := 5 }

/-- spec/03 head, R71, spec/08 section 8.1. -/
def AuditoriumConfig.default : AuditoriumConfig :=
  { cuePolarity := .activeLow, lockout := 300, quietThreshold := -50, soundThreshold := -40
    openTime := 1000, windowDefault := 60, grace := 20, relayDuck := 10 }

/-- spec/02 section 2.3. -/
def SupervisionConfig.default : SupervisionConfig :=
  { enables := 0, gap := 500, tripLimit := 3, warnTemp := 75, tripTemp := 90 }

/-- spec/09 head. -/
def LinkConfig.default : LinkConfig := { silence := 0, enables := 0 }

/-- R194: every configuration record at its default. -/
def Configuration.default : Configuration :=
  { zones := Vector.replicate 20 ZoneConfig.default
    entrances := Vector.replicate 12 EntranceConfig.default
    channels := Vector.replicate 4 ChannelConfig.default
    auditoria := ⟨AuditoriumConfig.default, AuditoriumConfig.default⟩
    supervision := SupervisionConfig.default, link := LinkConfig.default }

/-- R190: no operation. -/
def ResultRecord.fresh : ResultRecord := { kind := none, result := none, inProgress := false }

/-- The input lines at rest. DESIGN CHOICE, unsafe (log 27): the spec gives no level. -/
def Pins.rest : Pins :=
  { cue := ⟨true, true⟩, keyA := true, keyB := true, sensors := Vector.replicate 12 false
    ovr := false, mode1 := false, mode0 := false, rst := true, consoleStop := true }

/-- The part in reset, every block at its reset values (R22, R47, R69, R80, R100, R124, R147, R165,
R180, R181, R190, R194), with what a reset does not touch: the pins, the straps as last read (they
hold until they are read again, R193), the settings memory and the commands waiting. -/
def State.inReset (cause : ResetCause) (strap : StrapMode) (fastLink : Bool) (memory : Memory)
    (pins : Pins) (pending : List Instr) : State :=
  { svc := Services.fresh, sup := Supervisor.fresh, cue := ⟨CueFollower.fresh, CueFollower.fresh⟩
    quiet := ⟨QuietDetector.fresh, QuietDetector.fresh⟩, console := Console.fresh
    control :=
      { running := false, cfg := Configuration.default, strap := strap, fastLink := fastLink
        cause := cause, holding := true, settings := none, memoryFault := false
        result := ResultRecord.fresh, memory := memory }
    pins := pins, ovrSample := none, phase := 0, pending := pending }

/-- The part right after a power-on reset has ended in WAIT mode (R193, R194): in CONFIG with the
defaults, the poll machine IDLE since no module is enabled (R47). The straps and the memory are
DESIGN CHOICE, unsafe (log 4, log 8). -/
def State.reset : State :=
  let s := State.inReset .powerOn .wait false [] Pins.rest []
  { s with
    control := { s.control with holding := false }
    sup := { s.sup with poll := .idle } }

end Sys2Proof.Machine
end

