-- ==== Sys2Proof/Machine/Bytes.lean ====
section
/-! DEFINITION. Numbers as bytes, masks, and the two check codes: the byte forms that frames and the
settings image share (spec/00 conventions, spec/09 section 9.1, R167, spec/11 section 11.3). -/

namespace Sys2Proof.Machine

/-- The `k` bytes of `n`, least significant first (spec/00, byte order). -/
def leBytes : Nat → Nat → List Byte
  | 0, _ => []
  | k + 1, n => BitVec.ofNat 8 n :: leBytes k (n / 256)

/-- The number that bytes spell, least significant first. -/
def leNat : List Byte → Nat
  | [] => 0
  | b :: rest => b.toNat + 256 * leNat rest

/-- A number in one byte. -/
def u8 (n : Nat) : List Byte := leBytes 1 n
/-- A number in two bytes. -/
def u16 (n : Nat) : List Byte := leBytes 2 n
/-- A number in four bytes. -/
def u32 (n : Nat) : List Byte := leBytes 4 n
/-- A signed number in one byte, two's complement (log 13). -/
def s8 (n : Int) : List Byte := [BitVec.ofInt 8 n]
/-- A signed number in two bytes, two's complement (log 13). -/
def s16 (n : Int) : List Byte := leBytes 2 (BitVec.ofInt 16 n).toNat
/-- A 16-bit word in two bytes. -/
def w16 (w : Word16) : List Byte := leBytes 2 w.toNat

/-- A value named yes or no, or on or off: its place, yes and on first (log 11). -/
def yesNo (b : Bool) : List Byte := [if b then 0 else 1]

/-- A field of `width` bytes that may be none (spec/09 section 9.1). -/
def mayBe (width : Nat) : Option (List Byte) → List Byte
  | none => 0 :: List.replicate width 0
  | some bytes => 1 :: bytes

/-- A list that is not a mask: its count and its items (spec/09 section 9.1). -/
def counted (items : List (List Byte)) : List Byte := u8 items.length ++ items.flatten

/-- The number whose set bits are `ns`, each at most once. -/
def maskOf (width : Nat) (ns : List Nat) : Nat :=
  ((List.range width).filter (fun n => ns.contains n)).foldl (fun acc n => acc + 2 ^ n) 0

/-- The set bits of a mask, rising. -/
def bitsOf (width mask : Nat) : List Nat := (List.range width).filter (fun n => mask.testBit n)

/-- A zone set as a 32-bit mask (spec/00, sets and lists). -/
def zoneMask (zs : List ZoneId) : List Byte := u32 (maskOf 32 (zs.map (·.val)))
/-- A module set as a 16-bit mask; bit n stands for Mn. -/
def moduleMask (ms : List ModuleId) : List Byte := u16 (maskOf 16 (ms.map (·.val + 1)))
/-- An entrance set as a 16-bit mask. -/
def entranceMask (es : List EntranceId) : List Byte := u16 (maskOf 16 (es.map (·.val)))

/-! ## The CRC-16 of frames (R167) -/

/-- One bit of the CRC-16: shift left, then the generator 0x1021. -/
def crc16Bit (r : Word16) : Word16 := if r.msb then (r <<< 1) ^^^ 0x1021 else r <<< 1

/-- One byte, most significant bit first. -/
def crc16Byte (r : Word16) (b : Byte) : Word16 :=
  crc16Bit (crc16Bit (crc16Bit (crc16Bit (crc16Bit (crc16Bit (crc16Bit (crc16Bit
    (r ^^^ (b.setWidth 16 <<< 8)))))))))

/-- R167: the CRC-16 of a string of bytes. -/
def crc16 (bytes : List Byte) : Word16 := bytes.foldl crc16Byte 0xFFFF

/-! ## The CRC-32 of the settings image (spec/11 section 11.3) -/

/-- One bit of the CRC-32, least significant bit first: the polynomial 0x04C11DB7 reversed. -/
def crc32Bit (r : BitVec 32) : BitVec 32 :=
  if r.getLsbD 0 then (r >>> 1) ^^^ 0xEDB88320 else r >>> 1

/-- One byte, least significant bit first. -/
def crc32Byte (r : BitVec 32) (b : Byte) : BitVec 32 :=
  crc32Bit (crc32Bit (crc32Bit (crc32Bit (crc32Bit (crc32Bit (crc32Bit (crc32Bit
    (r ^^^ b.setWidth 32))))))))

/-- spec/11 section 11.3: the CRC-32 of a string of bytes. -/
def crc32 (bytes : List Byte) : BitVec 32 := ~~~ (bytes.foldl crc32Byte 0xFFFFFFFF)

/-- Cuts `k` bytes off the front; none when there are fewer. -/
def cut (k : Nat) (bytes : List Byte) : Option (List Byte × List Byte) :=
  if bytes.length < k then none else some (bytes.take k, bytes.drop k)

end Sys2Proof.Machine
end

