-- ==== Sys2Proof/Machine/Operands.lean ====
section
/-! DEFINITION. The operand forms: what a number names. A number outside its range names nothing
(spec/00, identifiers), and the owner answers RANGE. -/

namespace Sys2Proof.Machine

/-- Auditoria are named 1 and 2. -/
def audOf : Nat → Option Aud
  | 1 => some .one
  | 2 => some .two
  | _ => none

/-- The number of an auditorium. -/
def audNumber : Aud → Nat
  | .one => 1
  | .two => 2

/-- Zones are named 0 to 19. -/
def zoneOf (n : Nat) : Option ZoneId := if h : n < 20 then some ⟨n, h⟩ else none

/-- Modules are named 1 to 12. -/
def moduleOf (n : Nat) : Option ModuleId := if h : 1 ≤ n ∧ n ≤ 12 then some ⟨n - 1, by omega⟩ else none

/-- The number of a module. -/
def moduleNumber (m : ModuleId) : Nat := m.val + 1

/-- Entrances are named 0 to 11. -/
def entranceOf (n : Nat) : Option EntranceId := if h : n < 12 then some ⟨n, h⟩ else none

/-- Channels are named 0 to 3. -/
def channelOf (n : Nat) : Option ChannelId := if h : n < 4 then some ⟨n, h⟩ else none

/-- Slots are named 0 to 9. -/
def slotOf (n : Nat) : Option SlotId := if h : n < 10 then some ⟨n, h⟩ else none

/-- R82: the two slots of a channel, the lower-numbered first. -/
def channelSlots (d : ChannelId) : SlotId × SlotId :=
  (⟨2 * d.val, by have := d.isLt; omega⟩, ⟨2 * d.val + 1, by have := d.isLt; omega⟩)

/-- R82: the channel that owns a slot; none for the two call slots. -/
def slotChannel (i : SlotId) : Option ChannelId := channelOf (i.val / 2)

/-- R82: the call slots, S8 then S9. -/
def callSlots : SlotId × SlotId := (8, 9)

/-- All twenty zones, rising. -/
def allZones : List ZoneId := List.finRange 20
/-- All twelve modules, rising. -/
def allModules : List ModuleId := List.finRange 12
/-- All twelve entrances, rising. -/
def allEntrances : List EntranceId := List.finRange 12
/-- All four channels, rising. -/
def allChannels : List ChannelId := List.finRange 4
/-- All ten slots, rising. -/
def allSlots : List SlotId := List.finRange 10

/-- A module set as a mask names M1-M12 by bits 1-12; any other bit is out of range (R44). -/
def pollMaskLegal (w : Word16) : Bool := (w &&& 0xE001) == 0

/-- A set of notice kinds has bits 12-15 clear (R172, R173). -/
def kindSetLegal (w : Word16) : Bool := (w &&& 0xF000) == 0

/-- Tests a number against an inclusive range. -/
def between (lo hi n : Nat) : Bool := decide (lo ≤ n) && decide (n ≤ hi)

end Sys2Proof.Machine
end

