-- ==== Sys2Proof/Machine/Flags.lean ====
section
/-! DEFINITION. The flags: the twelve notice kinds, their pending flags, the enables and the gate
(R172, R173, R174). `Env` is what the services read of the rest of the part. -/

namespace Sys2Proof.Machine

/-- What a service reads of the other blocks: the operating state, the configuration in force, the
show clock counts and the gap states. A service never writes these. -/
structure Env where
  run : Bool
  cfg : Configuration
  clock : Two Nat
  gap : Two GapState
  deriving DecidableEq, Repr

/-- The notice kinds (spec/09 section 9.5). -/
inductive NoticeKind where
  | zone | module_ | cue | clip | notReady | feed | call | window | entrance | override | silence
  | settings
  deriving DecidableEq, Repr

/-- The bit of a kind in a set of kinds (spec/09 section 9.1). -/
def NoticeKind.bit : NoticeKind → Nat
  | .zone => 0
  | .module_ => 1
  | .cue => 2
  | .clip => 3
  | .notReady => 4
  | .feed => 5
  | .call => 6
  | .window => 7
  | .entrance => 8
  | .override => 9
  | .silence => 10
  | .settings => 11

/-- The set that holds one kind. -/
def NoticeKind.mask (k : NoticeKind) : Word16 := 1#16 <<< k.bit

/-- The BODY of a notice frame: the pending set and the operating state (spec/09 section 9.1). -/
def noticeBody (pending : Word16) (run : Bool) : List Byte := w16 pending ++ [if run then 1 else 0]

/-- A notice frame. -/
def TxItem.isNotice : TxItem → Bool
  | .notice _ => true
  | _ => false

/-- R174: whether a notice frame is owed now. -/
def noticeOwed (enables : Word16) (l : LinkPort) : Bool :=
  l.gateOpen && (l.pendingKinds &&& enables != 0) && !l.tx.any TxItem.isNotice

/-- R174: builds the notice frame that is owed, if one is, and closes the gate. -/
def judgeNotice (env : Env) (l : LinkPort) : LinkPort :=
  if noticeOwed env.cfg.link.enables l then
    { l with tx := l.tx ++ [.notice (noticeBody l.pendingKinds env.run)], gateOpen := false }
  else l

/-- R172: raises a kind in the link port. -/
def raiseIn (env : Env) (k : NoticeKind) (l : LinkPort) : LinkPort :=
  judgeNotice env { l with pendingKinds := l.pendingKinds ||| k.mask }

/-- R172: raises a kind. -/
def raise (env : Env) (k : NoticeKind) (sv : Services) : Services :=
  { sv with link := raiseIn env k sv.link }

end Sys2Proof.Machine
end

