-- ==== Sys2Proof/Machine/Ops.lean ====
section
/-! DEFINITION. The operations every family shares: reading and writing one record of a table, the
view the services have of the part, the settings memory, statuses and answers, and how a reply gets
into the transmit queue (R169-R171). -/

namespace Sys2Proof.Machine

/-! ## Tables -/

/-- The record at `i`. -/
def look {α : Type} {n : Nat} (v : Vector α n) (i : Fin n) : α := v[i.val]'i.isLt

/-- The table with the record at `i` replaced. -/
def put {α : Type} {n : Nat} (v : Vector α n) (i : Fin n) (x : α) : Vector α n := v.set i.val x i.isLt

/-- The other auditorium's thing untouched, this one's replaced by `f` of it. -/
def updTwo {α : Type} (t : Two α) (a : Aud) (f : α → α) : Two α := t.set a (f (t.get a))

/-! ## The view of the part -/

/-- What the services read. -/
def State.env (s : State) : Env :=
  { run := s.control.running, cfg := s.control.cfg
    clock := ⟨s.cue.one.clock, s.cue.two.clock⟩, gap := ⟨s.quiet.one.state, s.quiet.two.state⟩ }

/-- Lets the services act. -/
def State.serve (f : Env → Services → Services) (s : State) : State := { s with svc := f s.env s.svc }

/-- The configuration in force replaced. -/
def State.setCfg (s : State) (c : Configuration) : State :=
  { s with control := { s.control with cfg := c } }

/-- The link port replaced. -/
def Services.setLink (sv : Services) (l : LinkPort) : Services := { sv with link := l }

/-! ## The settings memory (spec/11 section 11.3, log 8) -/

/-- The byte at an address. -/
def Memory.read : Memory → Nat → Byte
  | [], _ => Config.unlistedByte
  | (k, v) :: rest, a => if k = a then v else Memory.read rest a

/-- The memory with one byte written; writing what an unlisted byte reads as unlists the address. -/
def Memory.write : Memory → Nat → Byte → Memory
  | [], a, b => if b = Config.unlistedByte then [] else [(a, b)]
  | (k, v) :: rest, a, b =>
    if k < a then (k, v) :: Memory.write rest a b
    else if k = a then (if b = Config.unlistedByte then rest else (a, b) :: rest)
    else if b = Config.unlistedByte then (k, v) :: rest
    else (a, b) :: (k, v) :: rest

/-- Bytes written from an address up. -/
def Memory.writeAll (m : Memory) : Nat → List Byte → Memory
  | _, [] => m
  | a, b :: rest => Memory.writeAll (Memory.write m a b) (a + 1) rest

/-- `n` bytes read from an address up. -/
def Memory.readAll (m : Memory) : Nat → Nat → List Byte
  | _, 0 => []
  | a, n + 1 => Memory.read m a :: Memory.readAll m (a + 1) n

/-- No entry equals what an unlisted byte reads as, and addresses rise from `lo`. -/
def Memory.wfFrom : Nat → Memory → Bool
  | _, [] => true
  | lo, (k, v) :: rest =>
    decide (lo ≤ k) && decide (v ≠ Config.unlistedByte) && Memory.wfFrom (k + 1) rest

/-- The canonical form of the settings memory. -/
def Memory.wf (m : Memory) : Bool := Memory.wfFrom 0 m

/-! ## Statuses, kinds and answers -/

/-- spec/09 section 9.1: the code of a status. -/
def Status.code : Status → Byte
  | .ok => 0x00
  | .busy => 0x01
  | .kind => 0x02
  | .length => 0x03
  | .range => 0x04
  | .state => 0x05
  | .full => 0x06
  | .absent => 0x07
  | .conflict => 0x08
  | .pool => 0x09
  | .noAnswer => 0x0A
  | .empty => 0x0B
  | .notReady => 0x0C

/-- The name of a status as the console shows it (R183). -/
def Status.text : Status → String
  | .ok => "OK"
  | .busy => "BUSY"
  | .kind => "KIND"
  | .length => "LENGTH"
  | .range => "RANGE"
  | .state => "STATE"
  | .full => "FULL"
  | .absent => "ABSENT"
  | .conflict => "CONFLICT"
  | .pool => "POOL"
  | .noAnswer => "NO-ANSWER"
  | .empty => "EMPTY"
  | .notReady => "NOT-READY"

/-- spec/09 section 9.4: the code of a request kind. -/
def RequestKind.code : RequestKind → Byte
  | .ident => 0x01
  | .reset => 0x02
  | .noticeEnable => 0x03
  | .noticeResume => 0x04
  | .noticeClear => 0x05
  | .silenceSet => 0x06
  | .mode => 0x08
  | .configWrite => 0x09
  | .configRead => 0x0A
  | .settingsSave => 0x0B
  | .settingsLoad => 0x0C
  | .zoneSet => 0x10
  | .zoneStatus => 0x11
  | .testTone => 0x12
  | .pollSet => 0x18
  | .moduleStatus => 0x19
  | .moduleClear => 0x1A
  | .moduleRestore => 0x1B
  | .ampRead => 0x1C
  | .ampWrite => 0x1D
  | .cueWrite => 0x20
  | .cueErase => 0x21
  | .cueRead => 0x22
  | .cueGo => 0x23
  | .cueSet => 0x24
  | .cueStatus => 0x25
  | .captureRead => 0x26
  | .gapStatus => 0x27
  | .feed => 0x28
  | .streamStatus => 0x29
  | .clipArm => 0x30
  | .clipStart => 0x31
  | .clipStop => 0x32
  | .clipDisarm => 0x33
  | .channelMode => 0x34
  | .channelStatus => 0x35
  | .callPost => 0x38
  | .callRelease => 0x39
  | .callEnd => 0x3A
  | .callCancel => 0x3B
  | .callStatus => 0x3C
  | .callFinished => 0x3D
  | .houseOpen => 0x40
  | .houseClose => 0x41
  | .admitOpen => 0x42
  | .admitClose => 0x43
  | .entranceStatus => 0x44
  | .entranceClear => 0x45

/-- spec/09 section 9.4: the block that owns a request kind; of the two instances of a follower or a
detector the request's auditorium names one. -/
def RequestKind.owner : RequestKind → OwnerBlock
  | .ident | .reset | .noticeEnable | .noticeResume | .noticeClear | .silenceSet => .linkPort
  | .mode | .configWrite | .configRead | .settingsSave | .settingsLoad => .partControl
  | .zoneSet | .zoneStatus | .testTone => .zoneRouter
  | .pollSet | .moduleStatus | .moduleClear | .moduleRestore | .ampRead | .ampWrite => .loopSupervisor
  | .cueWrite | .cueErase | .cueRead | .cueGo | .cueSet | .cueStatus | .captureRead => .cueFollower
  | .gapStatus => .quietDetector
  | .feed | .streamStatus => .blockPool
  | .clipArm | .clipStart | .clipStop | .clipDisarm | .channelMode | .channelStatus =>
    .descriptionEngine
  | .callPost | .callRelease | .callEnd | .callCancel | .callStatus | .callFinished => .callScheduler
  | .houseOpen | .houseClose | .admitOpen | .admitClose | .entranceStatus | .entranceClear =>
    .entranceController

/-- R169: the owning block of an entry of the outstanding list. -/
def Outstanding.owner (o : Outstanding) : OwnerBlock := o.kind.owner

/-- The kinds of codes 0x01 to 0x1D, in the order of the request table. -/
def lowKinds : List RequestKind :=
  [.ident, .reset, .noticeEnable, .noticeResume, .noticeClear, .silenceSet, .mode, .configWrite,
   .configRead, .settingsSave, .settingsLoad, .zoneSet, .zoneStatus, .testTone, .pollSet,
   .moduleStatus, .moduleClear, .moduleRestore, .ampRead, .ampWrite]

/-- The kinds of codes 0x20 to 0x35. -/
def midKinds : List RequestKind :=
  [.cueWrite, .cueErase, .cueRead, .cueGo, .cueSet, .cueStatus, .captureRead, .gapStatus, .feed,
   .streamStatus, .clipArm, .clipStart, .clipStop, .clipDisarm, .channelMode, .channelStatus]

/-- The kinds of codes 0x38 to 0x45. -/
def highKinds : List RequestKind :=
  [.callPost, .callRelease, .callEnd, .callCancel, .callStatus, .callFinished, .houseOpen,
   .houseClose, .admitOpen, .admitClose, .entranceStatus, .entranceClear]

/-- Every request kind, in the order of the request table. -/
def allKinds : List RequestKind := lowKinds ++ midKinds ++ highKinds

/-- The request kind a KIND byte names. -/
def kindOf (b : Byte) : Option RequestKind := allKinds.find? (fun k => k.code == b)

/-- An owner's answer: a status and the bytes after it, or the items of a divided reply (R170). -/
inductive Answer where
  | plain (status : Status) (bytes : List Byte)
  | divided (items : List (List Byte))
  deriving DecidableEq, Repr

/-- A refusal carries its status alone (R170). -/
def Answer.refuse (st : Status) : Answer := .plain st []

/-- The status of an answer. -/
def Answer.status : Answer → Status
  | .plain st _ => st
  | .divided _ => .ok

/-- How many bytes of items one frame of a divided reply holds: a BODY of 249 bytes less the status
and the count (spec/09 section 9.1, R170). -/
def dividedRoom : Nat := 247

/-- Adds an item to the last of the parts, or starts a new part when it has no room (log 17). -/
def packInto (parts : List (List Byte)) (item : List Byte) : List (List Byte) :=
  match parts with
  | [] => [item]
  | p :: rest => if p.length + item.length ≤ dividedRoom then (p ++ item) :: rest else item :: p :: rest

/-- The parts of a divided reply, first part first (log 17). -/
def packItems (items : List (List Byte)) : List (List Byte) :=
  match (items.foldl packInto []).reverse with
  | [] => [[]]
  | parts => parts

/-- The BODYs of a divided reply: each begins with OK and the number of frames still to follow. -/
def dividedBodies : List (List Byte) → List (List Byte)
  | [] => []
  | p :: rest => (Status.ok.code :: BitVec.ofNat 8 rest.length :: p) :: dividedBodies rest

/-- The BODYs of the frames that carry an answer (R170). -/
def Answer.bodies : Answer → List (List Byte)
  | .plain st bytes => [st.code :: bytes]
  | .divided items => dividedBodies (packItems items)

/-- R169: the reply of a request is ready and enters the transmit queue. -/
def LinkPort.ready (l : LinkPort) (tag : Byte) (kind : RequestKind) (ans : Answer) : LinkPort :=
  { l with tx := l.tx ++ [.reply tag kind ans.bodies] }

/-- R169: a service answers a request. -/
def Services.reply (tag : Byte) (kind : RequestKind) (ans : Answer) (sv : Services) : Services :=
  { sv with link := sv.link.ready tag kind ans }

/-- R169: an owner answers a request. -/
def State.reply (tag : Byte) (kind : RequestKind) (ans : Answer) (s : State) : State :=
  { s with svc := s.svc.reply tag kind ans }

/-- Sends a report of the router or the pool on its way. -/
def Services.report (r : Report) (sv : Services) : Services := { sv with reports := sv.reports ++ [r] }

/-- A count that holds at its greatest value. -/
def holdAt (limit n : Nat) : Nat := if n < limit then n + 1 else n

/-- The greatest count of the show clocks, the call clock and the gap length. -/
def clockLimit : Nat := 4294967295

end Sys2Proof.Machine
end

