-- ==== Sys2Proof/Machine/Router.lean ====
section
/-! DEFINITION. The zone router (spec/01): claims, set claims, releases, pops, holds, the override,
the test tone and the composition of the zone outputs. -/

namespace Sys2Proof.Machine

/-! ## Kinds and ranks (R1, R5) -/

/-- R1. -/
def isLoopKind : ZoneKind → Bool
  | .hallLoop | .foyerLoop => true
  | _ => false

/-- spec/01 section 1.1. -/
def isFoyerKind : ZoneKind → Bool
  | .foyerLoop | .foyerSpeaker => true
  | _ => false

/-- R126: the kinds a call may target. -/
def takesCalls : ZoneKind → Bool
  | .foyerLoop | .foyerSpeaker | .lobby => true
  | _ => false

/-- R5: the rank of a call of each priority. -/
def callRank : Nat → Nat
  | 0 => 2
  | 1 => 3
  | 2 => 5
  | _ => 6

/-- R5: the rank each claimant's claim carries; a call's depends on its priority. -/
def claimantRank (priority : Nat) : Claimant → Nat
  | .override => 7
  | .call _ => callRank priority
  | .live _ => 5
  | .clip _ => 3
  | .window _ => 4
  | .test _ => 1

/-- R5: the kinds of zone a claimant may use. -/
def kindAllows (kind : ZoneKind) (flagged : Bool) : Claimant → Bool
  | .override => kind != .unused && flagged
  | .call _ => takesCalls kind
  | .live _ => kind == .description
  | .clip _ => kind == .description
  | .window _ => kind == .lobby
  | .test _ => kind != .unused

/-- A test tone's claimant. -/
def Claimant.isTest : Claimant → Bool
  | .test _ => true
  | _ => false

/-- R6 step 3: a call of priority 0, 1 or 2, which a hold keeps off. -/
def Claim.isLowCall (c : Claim) : Bool :=
  match c.who with
  | .call _ => c.rank != 6
  | _ => false

/-- R6: the rank of the active claim; home is 0. -/
def ZoneRecord.rank (r : ZoneRecord) : Nat :=
  match r.active with
  | none => 0
  | some c => c.rank

/-- The zone's active claim is this claimant's. -/
def ZoneRecord.carries (r : ZoneRecord) (who : Claimant) : Bool :=
  match r.active with
  | none => false
  | some c => c.who == who

/-- The claimant has a claim in the zone's stack. -/
def ZoneRecord.stacks (r : ZoneRecord) (who : Claimant) : Bool := r.stack.any (fun c => c.who == who)

/-! ## Records and reports -/

/-- The zone's record replaced. -/
def putZone (z : ZoneId) (r : ZoneRecord) (sv : Services) : Services :=
  { sv with zones := put sv.zones z r }

/-- R19, R20: the limit timer of a test stops. -/
def ZoneRecord.setTest (r : ZoneRecord) (src : TestSource) (left : Option Nat) : ZoneRecord :=
  match src with
  | .link => { r with testLink := left }
  | .console => { r with testConsole := left }

/-- The limit timer of a test. -/
def ZoneRecord.testLeft (r : ZoneRecord) : TestSource → Option Nat
  | .link => r.testLink
  | .console => r.testConsole

/-- R7: a removed claim's claimant is told "zone lost"; a test tone simply ends (R20). -/
def loseClaim (z : ZoneId) (sv : Services) (c : Claim) : Services :=
  match c.who with
  | .test src => putZone z ((look sv.zones z).setTest src none) sv
  | .override => sv
  | _ => sv.report (.zoneLost c z)

/-- "Zone lost" for each removed claim, in order. -/
def loseClaims (z : ZoneId) (lost : List Claim) (sv : Services) : Services :=
  lost.foldl (loseClaim z) sv

/-- R11: the zone-release report; none in CONFIG. The engine and the chime logic take the report, the
scheduler owes a walk for the zone (log 5, log 20). -/
def sendZoneRelease (env : Env) (z : ZoneId) (sv : Services) : Services :=
  if env.run then
    let r := look sv.zones z
    { sv.report (.zoneReleased z r.rank r.holds) with
      walkDue := true
      walkZones := if sv.walkZones.contains z then sv.walkZones else sv.walkZones ++ [z] }
  else sv

/-- R142: the zone leaves the unbroken set of every playing call. -/
def zoneUnheard (z : ZoneId) (sv : Services) : Services :=
  { sv with
    calls := sv.calls.map (fun k =>
      if k.state = .playing then { k with unbroken := k.unbroken.filter (fun y => y != z) } else k) }

/-! ## Claims (R6, R7, R8) -/

/-- R6: why a claim is refused; `kindFault` is R5's. -/
inductive ClaimReason where
  | kindFault | state | hold | rank
  deriving DecidableEq, Repr

/-- R6: how a claim is decided: already held, to be granted, or refused. -/
inductive Verdict where
  | kept
  | grant
  | refuse (why : ClaimReason)
  deriving DecidableEq, Repr

/-- R6: decides a claim, other than a test's, on the zone's record as it stands. Its checks keep R6's
order, HOLD before RANK, so a call of priority 0-2 on a held zone under the override is refused HOLD,
though R17 says RANK of every claim on such a zone (DESIGN CHOICE, log 51). -/
def judgeClaim (env : Env) (c : Claim) (r : ZoneRecord) : Verdict :=
  if !env.run then .refuse .state
  else if r.carries c.who then .kept
  else if c.isLowCall && decide (0 < r.holds) then .refuse .hold
  else if c.rank ≤ r.rank then .refuse .rank
  else .grant

/-- R6 step 5 and R7: the claim becomes active; the former active claim is pushed, and the bottom
claim of a full stack is lost. -/
def grant (env : Env) (z : ZoneId) (c : Claim) (sv : Services) : Services :=
  let r := look sv.zones z
  match r.active with
  | none => sendZoneRelease env z (putZone z { r with active := some c } sv)
  | some old =>
    let lost := r.stack.drop 3
    let sv1 := putZone z { r with active := some c, stack := old :: r.stack.take 3 } sv
    let sv2 := loseClaims z lost sv1
    sendZoneRelease env z (sv2.report (.claimPushed old z))

/-- R5: whether the claim names a zone of a kind its claimant may not use. -/
def kindFault (env : Env) (z : ZoneId) (c : Claim) : Bool :=
  let k := look env.cfg.zones z
  !kindAllows k.kind k.flagged c.who

/-- R6: a single claim. -/
def claim (env : Env) (z : ZoneId) (c : Claim) (sv : Services) : Verdict × Services :=
  if kindFault env z c then (.refuse .kindFault, sv)
  else
    match judgeClaim env c (look sv.zones z) with
    | .grant => (.grant, grant env z c sv)
    | v => (v, sv)

/-- The claim is answered granted. -/
def Verdict.granted : Verdict → Bool
  | .refuse _ => false
  | _ => true

/-- R8: a set claim: the answer for each zone of the list, decided on the records as they stand, and
the claim granted where it is to be granted. A kind fault or an empty list refuses it whole. -/
def setClaim (env : Env) (c : Claim) (allOrNone : Bool) (zs : List ZoneId) (sv : Services) :
    List (ZoneId × Verdict) × Services :=
  if zs.isEmpty || zs.any (fun z => kindFault env z c) then
    (zs.map (fun z => (z, Verdict.refuse .kindFault)), sv)
  else
    let answers := zs.map (fun z => (z, judgeClaim env c (look sv.zones z)))
    if allOrNone && answers.any (fun p => !p.2.granted) then (answers, sv)
    else
      (answers,
        answers.foldl (fun acc p => if p.2 = .grant then grant env p.1 c acc else acc) sv)

/-- The zones of a set claim's answer that were granted. -/
def grantedZones (allOrNone : Bool) (answers : List (ZoneId × Verdict)) : List ZoneId :=
  if allOrNone && answers.any (fun p => !p.2.granted) then []
  else (answers.filter (fun p => p.2.granted)).map (·.1)

/-! ## Releases and pops (R9, R10) -/

/-- R10: the claims passed over, the claim that becomes active, and what stays in the stack. -/
def popScan (held : Bool) : List Claim → List Claim × Option Claim × List Claim
  | [] => ([], none, [])
  | c :: rest =>
    if held && c.isLowCall then
      let (lost, top, left) := popScan held rest
      (c :: lost, top, left)
    else ([], some c, rest)

/-- R10: a pop of a zone whose active claim has gone. -/
def pop (env : Env) (z : ZoneId) (sv : Services) : Services :=
  let r := look sv.zones z
  let (lost, top, left) := popScan (decide (0 < r.holds)) r.stack
  let sv1 := loseClaims z lost (putZone z { r with active := top, stack := left } sv)
  match top with
  | none => sendZoneRelease env z sv1
  | some c => sendZoneRelease env z (sv1.report (.claimRestored c z))

/-- R9: a claimant's release on one zone. -/
def release (env : Env) (who : Claimant) (z : ZoneId) (sv : Services) : Services :=
  let r := look sv.zones z
  let stack := r.stack.filter (fun c => c.who != who)
  if r.carries who then pop env z (putZone z { r with active := none, stack := stack } sv)
  else putZone z { r with stack := stack } sv

/-- R9: a claimant's release on all zones. -/
def releaseAll (env : Env) (who : Claimant) (sv : Services) : Services :=
  allZones.foldl (fun acc z => release env who z acc) sv

/-! ## Holds (R12, R13, R14) -/

/-- R12, R13: a hold report for a zone. -/
def hold (env : Env) (z : ZoneId) (sv : Services) : Services :=
  let r := look sv.zones z
  let sv1 := putZone z { r with holds := r.holds + 1 } sv
  match r.active with
  | some c =>
    if r.holds = 0 ∧ c.isLowCall then
      pop env z (loseClaim z (putZone z { r with holds := 1, active := none } sv) c)
    else sv1
  | none => sv1

/-- R12, R14: an unhold report for a zone. -/
def unhold (env : Env) (z : ZoneId) (sv : Services) : Services :=
  let r := look sv.zones z
  let sv1 := putZone z { r with holds := r.holds - 1 } sv
  if r.holds = 1 then sendZoneRelease env z sv1 else sv1

/-! ## The override (R17, R18) -/

/-- R17: the override claims every flagged zone that is not UNUSED. -/
def overrideClaim (env : Env) (sv : Services) : Services :=
  allZones.foldl (fun acc z => (claim env z ⟨7, .override⟩ acc).2) sv

/-! ## The test tone (R19, R20) -/

/-- The limit of a test, in milliseconds (R19). -/
def testLimit : Nat := 600000

/-- R19: in CONFIG a test takes the zone; the other claimant's test ends. -/
def replaceTest (z : ZoneId) (src : TestSource) (sv : Services) : Services :=
  let r := look sv.zones z
  let sv1 := putZone z { r with active := some ⟨1, .test src⟩ } sv
  match r.active with
  | none => sv1
  | some old => if old.who = .test src then sv1 else loseClaim z sv1 old

/-- R19: a test start on a zone. In RUN a start whose claimant's own test runs on the zone but is
stacked under another claim is refused STATE (DESIGN CHOICE, log 52): the rule grants in RUN only
without an active claim or under the claimant's own active one, and also answers OK to a start where
the claimant's test is already running. -/
def startTest (env : Env) (src : TestSource) (zone : Nat) (sv : Services) : Status × Services :=
  match zoneOf zone with
  | none => (.range, sv)
  | some z =>
    if (look env.cfg.zones z).kind = .unused then (.range, sv)
    else
      let r := look sv.zones z
      if env.run then
        if r.carries (.test src) then (.ok, putZone z (r.setTest src (some testLimit)) sv)
        else if r.active = none then
          (.ok, grant env z ⟨1, .test src⟩ (putZone z (r.setTest src (some testLimit)) sv))
        else (.state, sv)
      else
        let sv1 := replaceTest z src sv
        (.ok, putZone z ((look sv1.zones z).setTest src (some testLimit)) sv1)

/-- R20: a running test ends and its claim is released. -/
def endTest (env : Env) (src : TestSource) (z : ZoneId) (sv : Services) : Services :=
  release env (.test src) z (putZone z ((look sv.zones z).setTest src none) sv)

/-- R20: a test stop on a zone. -/
def stopTest (env : Env) (src : TestSource) (zone : Nat) (sv : Services) : Status × Services :=
  match zoneOf zone with
  | none => (.range, sv)
  | some z =>
    if (look env.cfg.zones z).kind = .unused then (.range, sv)
    else if ((look sv.zones z).testLeft src).isSome then (.ok, endTest env src z sv)
    else (.state, sv)

/-! ## Configuration and operating state (R1, R21) -/

/-- R1: the router takes a ZONE record whose kind has changed. The UNKNOWN it writes for a loop kind is
no change of drive state that raises ZONE (DESIGN CHOICE, log 46). -/
def takeZoneKind (z : ZoneId) (old new : ZoneKind) (sv : Services) : Services :=
  if old = new then sv
  else
    let r := look sv.zones z
    let r1 : ZoneRecord :=
      if new = .unused then
        { r with
          active := r.active.filter (fun c => !c.who.isTest)
          stack := r.stack.filter (fun c => !c.who.isTest), testLink := none, testConsole := none }
      else r
    let r2 : ZoneRecord :=
      if isLoopKind new then { r1 with drive := .unknown } else { r1 with drive := .good, backoff := false }
    putZone z r2 sv

/-- R21: the zone's record as entry to CONFIG leaves it. -/
def ZoneRecord.onlyTests (r : ZoneRecord) : ZoneRecord :=
  match (r.active.toList ++ r.stack).filter (fun c => c.who.isTest) with
  | [] => { r with active := none, stack := [] }
  | c :: rest => { r with active := some c, stack := rest }

/-- R21: entering CONFIG removes every claim that is not a test's. -/
def routerEnterConfig (sv : Services) : Services :=
  { sv with zones := sv.zones.map ZoneRecord.onlyTests }

/-- R187: entering RUN: drive fields of zones that are not loop kinds, and the override's claims. -/
def routerEnterRun (env : Env) (sv : Services) : Services :=
  let sv1 := allZones.foldl (fun acc z =>
    if isLoopKind (look env.cfg.zones z).kind then acc
    else putZone z { look acc.zones z with drive := .good, backoff := false } acc) sv
  if sv1.override then raise env .override (overrideClaim env sv1) else sv1

/-- R4: the drive fields written; a drive state becoming FAILED makes the zone unheard. -/
def writeDrive (z : ZoneId) (drive : DriveState) (backoff : Bool) (sv : Services) : Services :=
  let r := look sv.zones z
  let sv1 := putZone z { r with drive := drive, backoff := backoff } sv
  if drive = .failed ∧ r.drive ≠ .failed then zoneUnheard z sv1 else sv1

/-! ## Composition (R2, R4, R15) -/

/-- R4: the effective attenuation in dB. In a zone with drive state UNKNOWN and a WARN module R41 gives
6 dB of backoff where R42's table says none: the backoff that R41 has written counts (DESIGN CHOICE,
log 47). -/
def effectiveAttenuation (c : ZoneConfig) (r : ZoneRecord) : Nat :=
  c.level + (if r.backoff then 6 else 0) - (if r.drive = .degraded then 3 else 0)

/-- What an output slot can carry: an input, a stream slot in PLAYING, the test tone, or the tone a
chime is sounding. A tone the part makes has its level in dBFS before the attenuation of the zone that
carries it, and a chime's tone its frequency in Hz. -/
inductive AudioSource where
  | programme (a : Aud)
  | aux
  | liveIn (input : LiveInput)
  | callMic
  | tone (level : Int)
  | slot (i : SlotId)
  | chime (hz : Nat) (level : Int)
  deriving DecidableEq, Repr

/-- spec/00, conventions: the level of the test tone in dBFS. -/
def testToneLevel : Int := -20

/-- R137: the level of the chimes in dBFS. -/
def chimeLevel : Int := -10

/-- R137: the length of a chime in milliseconds. -/
def chimeLength : Chime → Nat
  | .noChime => 0
  | .single => 1200
  | .double => 2000
  | .rising3 => 2600

/-- R137: a chime's tones, each a frequency in Hz and a length in milliseconds. -/
def chimePattern : Chime → List (Nat × Nat)
  | .noChime => []
  | .single => [(880, 1200)]
  | .double => [(880, 1000), (660, 1000)]
  | .rising3 => [(523, 800), (659, 800), (784, 1000)]

/-- The frequency a pattern gives at a time from its start; none past its end. -/
def toneAt : List (Nat × Nat) → Nat → Option Nat
  | [], _ => none
  | (hz, length) :: rest, t => if t < length then some hz else toneAt rest (t - length)

/-- R137: the frequency a running chime is sounding. -/
def RunningChime.tone (k : RunningChime) : Option Nat :=
  toneAt (chimePattern k.chime) (chimeLength k.chime - k.left)

/-- One source in a zone output, with its attenuation in dB. -/
abbrev Carried := AudioSource × Nat

/-- A stream slot's audio: silence unless it is PLAYING (R83). -/
def slotSource (sv : Services) (i : SlotId) : List AudioSource :=
  if (look sv.slots i).state = .playing then [.slot i] else []

/-- R137: the tone of the chime a claimant is sounding; silence once its pattern has ended. -/
def chimeSource (sv : Services) (who : ChimeOwner) : List AudioSource :=
  match sv.chimes.find? (fun k => k.owner == who) with
  | some k => match k.tone with | some hz => [.chime hz chimeLevel] | none => []
  | none => []

/-- R136: a call's audio. -/
def callSource (sv : Services) (k : Call) : List AudioSource :=
  match k.phase with
  | some .chime => chimeSource sv (.call k.desc.callId)
  | some .message =>
    match k.desc.message, k.slot with
    | .liveMic _, _ => [.callMic]
    | .stream _, some i => slotSource sv i
    | _, _ => []
  | _ => []

/-- R15: a claimant's audio. -/
def claimantSource (env : Env) (sv : Services) : Claimant → List AudioSource
  | .override => []
  | .call id =>
    match sv.calls.find? (fun k => k.desc.callId == id) with
    | some k => callSource sv k
    | none => []
  | .live d =>
    match (look env.cfg.channels d).liveInput with
    | some i => [.liveIn i]
    | none => []
  | .clip d =>
    match (look sv.channels d).active with
    | some c => slotSource sv c.slot
    | none => []
  | .window a => chimeSource sv (.window a)
  | .test _ => [.tone testToneLevel]

/-- The programme of a zone's auditorium, if it has one. -/
def programmeOf (a : Option Aud) (attenuation : Nat) : List Carried :=
  match a with
  | some x => [(.programme x, attenuation)]
  | none => []

/-- R2, R154: a zone's home source. -/
def homeSource (sv : Services) (env : Env) (c : ZoneConfig) (attenuation : Nat) : List Carried :=
  match c.kind with
  | .unused => []
  | .hallLoop => programmeOf c.auditorium attenuation
  | .foyerLoop => if c.foyerHome = .aux then [(.aux, attenuation)] else []
  | .foyerSpeaker => if c.foyerHome = .aux then [(.aux, attenuation)] else []
  | .description => programmeOf c.auditorium attenuation
  | .lobby =>
    match c.auditorium with
    | none => []
    | some a =>
      match (sv.houses.get a).state with
      | .opened => [(.aux, attenuation)]
      | .admitting => [(.programme a, attenuation + (env.cfg.auditoria.get a).relayDuck)]
      | .sealed => [(.programme a, attenuation)]
      | .closing => [(.programme a, attenuation)]

/-- R15: the duck depth a claimant applies to the bed. -/
def bedDuck (env : Env) : Claimant → Option Nat
  | .clip d => some (look env.cfg.channels d).duck
  | .live d => some (look env.cfg.channels d).duck
  | _ => none

/-- R15: what the output of a zone carries; the empty list is silence. -/
def zoneOutput (env : Env) (sv : Services) (z : ZoneId) : List Carried :=
  let c := look env.cfg.zones z
  let r := look sv.zones z
  let att := effectiveAttenuation c r
  if c.kind = .unused ∨ c.mute then []
  else if !env.run then
    match r.active with
    | some k => if k.who.isTest then [(.tone testToneLevel, att)] else []
    | none => []
  else
    match r.active with
    | none => homeSource sv env c att
    | some k =>
      (claimantSource env sv k.who).map (fun a => (a, att)) ++
        (match bedDuck env k.who with
         | some duck => if c.kind = .description then programmeOf c.auditorium (att + duck) else []
         | none => [])

end Sys2Proof.Machine
end

