-- ==== Sys2Proof/Machine/Pool.lean ====
section
/-! DEFINITION. The block pool and its stream slots (spec/05): arming, feeding, playout, starving,
pausing, abandoning, and the companded samples. -/

namespace Sys2Proof.Machine

/-- The most blocks one slot holds (R82). -/
def slotLimit : Nat := 1024
/-- The low-water mark of R89. -/
def lowWater : Nat := 64
/-- The starve time in milliseconds (R95). -/
def starveTime : Nat := 500

/-! ## What a slot record says (R82, R84, R89) -/

/-- R82. -/
def Slot.guarantee (sl : Slot) : Nat := min 32 sl.length
/-- R82. -/
def Slot.prefill (sl : Slot) : Nat := min 8 sl.length

/-- R84. -/
def Slot.unfilled (sl : Slot) : Nat :=
  if sl.state = .idle then 0 else sl.guarantee - sl.held.length

/-- R82: the blocks ahead. -/
def Slot.ahead (sl : Slot) : Nat :=
  if sl.retain then sl.held.length - sl.position else sl.held.length

/-- R89. -/
def Slot.wants (sl : Slot) : Bool :=
  (sl.state == .loading || sl.state == .playing || sl.state == .starved)
    && decide (0 < sl.toReceive) && decide (sl.held.length < lowWater)

/-- R84: the reserve. -/
def reserve (slots : Vector Slot 10) : Nat := (allSlots.map (fun i => (look slots i).unfilled)).sum

/-- R84: the unfilled guarantees of all slots but one. -/
def reserveOfOthers (slots : Vector Slot 10) (i : SlotId) : Nat :=
  ((allSlots.filter (fun j => j != i)).map (fun j => (look slots j).unfilled)).sum

/-- R81: the blocks the slots hold. -/
def heldTotal (slots : Vector Slot 10) : Nat := (allSlots.map (fun i => (look slots i).held.length)).sum

/-- R90: the want amount. -/
def Slot.wantAmount (sl : Slot) : Nat :=
  if sl.state = .idle then 0 else min (slotLimit - sl.held.length) sl.toReceive

/-- R90: the room a slot has now. -/
def roomNow (sv : Services) (i : SlotId) : Nat :=
  let sl := look sv.slots i
  min (sl.unfilled + (sv.free - reserve sv.slots)) sl.wantAmount

/-! ## Writing a slot -/

/-- The slot's record replaced; a slot that begins to want feed raises FEED (R89). -/
def putSlot (env : Env) (i : SlotId) (sl : Slot) (sv : Services) : Services :=
  let sv1 := { sv with slots := put sv.slots i sl }
  if sl.wants && !(look sv.slots i).wants then raise env .feed sv1 else sv1

/-! ## Owner requests (R85, R91, R93, R96, R97, R98) -/

/-- R85: arm. -/
def armSlot (env : Env) (i : SlotId) (tag length : Nat) (retain : Bool) (sv : Services) :
    Status × Services :=
  if !env.run then (.state, sv)
  else if (look sv.slots i).state ≠ .idle then (.state, sv)
  else if !(between 1 255 tag && between 1 3750 length) then (.range, sv)
  else if retain && decide (slotLimit < length) then (.range, sv)
  else if sv.free < reserve sv.slots + min 32 length then (.pool, sv)
  else
    (.ok, putSlot env i
      { Slot.idle with
        state := .loading, owner := some tag, length := length, toReceive := length
        retain := retain } sv)

/-- R91: start. -/
def startSlot (env : Env) (i : SlotId) (loop : Bool) (sv : Services) : Status × Services :=
  let sl := look sv.slots i
  if loop && !sl.retain then (.range, sv)
  else if sl.state ≠ .loading then (.state, sv)
  else if sl.held.length < sl.prefill then (.notReady, sv)
  else (.ok, putSlot env i { sl with state := .playing, loop := loop, position := 0, offset := 0 } sv)

/-- R93: set-loop. -/
def setLoop (env : Env) (i : SlotId) (loop : Bool) (sv : Services) : Status × Services :=
  let sl := look sv.slots i
  if sl.state = .idle then (.state, sv)
  else if !sl.retain then (.range, sv)
  else (.ok, putSlot env i { sl with loop := loop } sv)

/-- R96: pause. -/
def pauseSlot (env : Env) (i : SlotId) (sv : Services) : Status × Services :=
  let sl := look sv.slots i
  match sl.state with
  | .playing => (.ok, putSlot env i { sl with state := .paused } sv)
  | .starved => (.ok, putSlot env i { sl with state := .paused, starve := none } sv)
  | .paused => (.ok, sv)
  | .idle => (.state, sv)
  | .loading => (.state, sv)

/-- R97: resume. A paused slot with nothing ahead and nothing to receive does not arise; it would
have no block to play and stays as it is. -/
def resumeSlot (env : Env) (i : SlotId) (sv : Services) : Status × Services :=
  let sl := look sv.slots i
  match sl.state with
  | .paused =>
    if 0 < sl.ahead then (.ok, putSlot env i { sl with state := .playing } sv)
    else if 0 < sl.toReceive then
      (.ok, putSlot env i { sl with state := .starved, starve := some starveTime } sv)
    else (.ok, sv)
  | .playing => (.ok, sv)
  | .starved => (.ok, sv)
  | .idle => (.state, sv)
  | .loading => (.state, sv)

/-- R98: abandon; always answered OK. -/
def abandonSlot (i : SlotId) (sv : Services) : Services :=
  let sl := look sv.slots i
  if sl.state = .idle then sv
  else { sv with slots := put sv.slots i Slot.idle, free := sv.free + sl.held.length }

/-- R98: an owner abandons the slot of its stream, if that stream is still the slot's. -/
def abandonOwned (i : SlotId) (tag : Nat) (sv : Services) : Services :=
  if (look sv.slots i).owner = some tag then abandonSlot i sv else sv

/-- R99: the pool abandons a slot by itself and tells the owner. -/
def abandonFor (reason : AbandonReason) (i : SlotId) (sv : Services) : Services :=
  match (look sv.slots i).owner with
  | some tag => (abandonSlot i sv).report (.slotAbandoned i reason tag)
  | none => abandonSlot i sv

/-- R99: abandons every slot that is not IDLE and meets a condition, all together. The rule gives the
reports of slots abandoned together no order: they go out in ascending slot number (DESIGN CHOICE,
log 42). -/
def abandonWhere (reason : AbandonReason) (cond : Slot → Bool) (sv : Services) : Services :=
  allSlots.foldl (fun acc i =>
    let sl := look acc.slots i
    if sl.state ≠ .idle ∧ cond sl then abandonFor reason i acc else acc) sv

/-! ## Feeding (R86, R87) -/

/-- R86: the first check that refuses a FEED to a slot, if any. -/
def feedRefusal (sv : Services) (i : SlotId) (owner fill : Nat) : Option Status :=
  let sl := look sv.slots i
  if !between 1 128 fill then some .range
  else if sl.state = .idle ∨ sl.toReceive = 0 then some .state
  else if sl.owner ≠ some owner then some .conflict
  else if slotLimit ≤ sl.held.length then some .full
  else if fill ≠ 128 ∧ sl.toReceive ≠ 1 then some .length
  else if sl.guarantee ≤ sl.held.length ∧ sv.free < reserveOfOthers sv.slots i + 1 then some .pool
  else none

/-- R87: the slot's record with one more block. -/
def Slot.feed (sl : Slot) (fill : Nat) (block : Block) : Slot :=
  { sl with
    held := sl.held ++ [block], toReceive := sl.toReceive - 1
    lastFill := if sl.toReceive = 1 then some fill else sl.lastFill
    state := if sl.state = .starved then .playing else sl.state
    starve := if sl.state = .starved then none else sl.starve }

/-- R87: an accepted FEED. -/
def takeFeed (env : Env) (i : SlotId) (fill : Nat) (block : Block) (sv : Services) : Services :=
  let sl := look sv.slots i
  let sv1 := putSlot env i (sl.feed fill block) { sv with free := sv.free - 1 }
  if sl.state = .loading ∧ sl.held.length + 1 = sl.prefill then sv1.report (.prefillReached i) else sv1

/-- R86, R87: FEED. -/
def feedSlot (env : Env) (slot owner fill : Nat) (block : Block) (sv : Services) : Answer × Services :=
  match slotOf slot with
  | none => (.refuse .range, sv)
  | some i =>
    match feedRefusal sv i owner fill with
    | some st => (.refuse st, sv)
    | none =>
      let sv1 := takeFeed env i fill block sv
      let sl := look sv1.slots i
      (.plain .ok (u16 sl.held.length ++ u16 sl.toReceive), sv1)

/-! ## Playing (R92, R93, R94, R95) -/

/-- R92: the samples the block in play has: the last block of a stream plays its fill only. -/
def Slot.fillNow (sl : Slot) : Nat :=
  if sl.toReceive = 0 ∧ sl.ahead = 1 then sl.lastFill.getD 128 else 128

/-- R92: the slot's record when a block's playout is done. -/
def Slot.playedOne (sl : Slot) : Slot :=
  if sl.retain then { sl with position := sl.position + 1, offset := 0 }
  else { sl with held := sl.held.tail, position := sl.position + 1, offset := 0 }

/-- R93: the slot's record when a pass ends. -/
def Slot.passEnded (sl : Slot) : Slot :=
  { sl with
    position := 0, offset := 0, passes := holdAt 65535 sl.passes
    state := if sl.loop then .playing else .paused }

/-- R92-R95: what follows when no block is ahead. -/
def afterBlock (env : Env) (i : SlotId) (sl : Slot) (sv : Services) : Services :=
  if 0 < sl.ahead then putSlot env i sl sv
  else if 0 < sl.toReceive then
    putSlot env i { sl with state := .starved, starve := some starveTime } sv
  else if sl.retain then
    (putSlot env i sl.passEnded sv).report (.passDone i sl.passEnded.passes)
  else
    (putSlot env i Slot.idle { sv with free := sv.free + sl.held.length }).report
      (.streamDone i (sl.owner.getD 0))

/-- R92: a PLAYING slot finishes a block. A slot that is not PLAYING, or has none ahead, finishes
none. -/
def blockPlayed (env : Env) (i : SlotId) (sv : Services) : Services :=
  let sl := look sv.slots i
  if sl.state = .playing ∧ 0 < sl.ahead then
    afterBlock env i sl.playedOne { sv with free := sv.free + (if sl.retain then 0 else 1) }
  else sv

/-- R95, R99: the starve timer of a STARVED slot runs out. -/
def starveExpired (i : SlotId) (sv : Services) : Services :=
  if (look sv.slots i).state = .starved then abandonFor .starved i sv else sv

/-! ## Samples (R92) -/

/-- R92: the linear value of a companded sample, as a numerator over 8,031: bit 7 is the sign, bits
6-4 the segment, bits 3-0 the step (log 21). -/
def decodeSample (b : Byte) : Int :=
  let segment := (b >>> 4).toNat % 8
  let step := b.toNat % 16
  let magnitude : Int := ((2 * step + 33) * 2 ^ segment : Nat) - 33
  if b.msb then -magnitude else magnitude

/-- R87, R92: the sample a PLAYING slot is passing to the router; the bytes of a partly filled last
block after its fill are not played. -/
def slotSample (sl : Slot) : Option Int :=
  if sl.state = .playing then
    match (if sl.retain then sl.held.drop sl.position else sl.held) with
    | [] => none
    | block :: _ =>
      if h : sl.offset < 128 then
        if sl.offset < sl.fillNow then some (decodeSample (block[sl.offset]'h)) else none
      else none
  else none

end Sys2Proof.Machine
end

