-- ==== Sys2Proof/Machine/Engine.lean ====
section
/-! DEFINITION. The description engine (spec/06): channels, live keys, clip queues, starting, waiting,
suspension and the ends of clips, standing mode. -/

namespace Sys2Proof.Machine

/-! ## Channels (R101) -/

/-- The channel's record replaced. -/
def putChannel (d : ChannelId) (c : Channel) (sv : Services) : Services :=
  { sv with channels := put sv.channels d c }

/-- R101. -/
def inService (c : ChannelConfig) : Bool := c.auditorium.isSome && c.zone.isSome

/-- The show clock count of the channel's auditorium. -/
def channelClock (env : Env) (d : ChannelId) : Nat :=
  match (look env.cfg.channels d).auditorium with
  | some a => env.clock.get a
  | none => 0

/-- The gap state of the channel's auditorium. -/
def channelGap (env : Env) (d : ChannelId) : GapState :=
  match (look env.cfg.channels d).auditorium with
  | some a => env.gap.get a
  | none => .sound

/-- The active clip's record replaced. -/
def setActive (d : ChannelId) (c : ActiveClip) (sv : Services) : Services :=
  putChannel d { look sv.channels d with active := some c } sv

/-- A waiting clip (spec/06 section 6.4). -/
def ClipState.waits : ClipState → Bool
  | .waitingFill | .waitingGap | .waitingZone => true
  | _ => false

/-! ## Loading heads (R106, R107) -/

/-- R106: the lower-numbered IDLE slot of the channel. -/
def idleSlot (sv : Services) (d : ChannelId) : Option SlotId :=
  let (low, high) := channelSlots d
  if (look sv.slots low).state = .idle then some low
  else if (look sv.slots high).state = .idle then some high
  else none

/-- R106: arms the head into an IDLE slot of the channel, in RUN, if it is not loaded. -/
def loadHead (env : Env) (d : ChannelId) (sv : Services) : Services :=
  let c := look sv.channels d
  match c.queue, c.headSlot, idleSlot sv d with
  | head :: _, none, some i =>
    if env.run then
      match armSlot env i head.clipId head.length false sv with
      | (.ok, sv1) => putChannel d { look sv1.channels d with headSlot := some i, headFilled := false } sv1
      | (_, sv1) => sv1
    else sv
  | _, _, _ => sv

/-- R107: every channel tries to load its unloaded head, in ascending number. -/
def loadHeads (env : Env) (sv : Services) : Services :=
  allChannels.foldl (fun acc d => loadHead env d acc) sv

/-! ## The end of a clip (R109) -/

/-- R109: ends the active clip of a channel with an outcome; the standing clip's end returns the
channel to SCRIPTED (R120). Nothing without an active clip. -/
def endClip (env : Env) (d : ChannelId) (outcome : ClipOutcome) (sv : Services) : Services :=
  match (look sv.channels d).active with
  | none => sv
  | some c =>
    let sv1 := releaseAll env (.clip d) sv
    let sv2 := abandonOwned c.slot c.desc.clipId sv1
    let ch := look sv2.channels d
    let sv3 := putChannel d
      { ch with
        active := none
        mode := if c.standing then .scripted else ch.mode
        lastOutcome := some { clipId := c.desc.clipId, outcome := outcome, clock := channelClock env d
                              standing := c.standing } } sv2
    loadHeads env (raise env .clip sv3)

/-! ## Activation (R112) -/

/-- R112 steps 4 and 5: the claim, and the start of the slot when it is granted. -/
def tryZone (env : Env) (d : ChannelId) (sv : Services) : Services :=
  match (look sv.channels d).active with
  | none => sv
  | some c =>
    match (look env.cfg.channels d).zone with
    | none => setActive d { c with state := .waitingZone } sv
    | some z =>
      let (v, sv1) := claim env z ⟨3, .clip d⟩ sv
      if v.granted then
        setActive d { c with state := .speaking } (startSlot env c.slot c.standing sv1).2
      else setActive d { c with state := .waitingZone } sv1

/-- R112 step 3: a GAP clip waits unless a gap is open. -/
def tryGap (env : Env) (d : ChannelId) (sv : Services) : Services :=
  match (look sv.channels d).active with
  | none => sv
  | some c =>
    if c.desc.condition = .gap ∧ channelGap env d ≠ .quiet then
      setActive d { c with state := .waitingGap } sv
    else tryZone env d sv

/-- R112: takes the active clip of a channel from its first step. -/
def activate (env : Env) (d : ChannelId) (sv : Services) : Services :=
  match (look sv.channels d).active with
  | none => sv
  | some c =>
    if c.desc.latestStart ≠ 0 ∧ c.desc.latestStart < channelClock env d then endClip env d .late sv
    else if !c.filled then
      raise env .notReady (setActive d { c with state := .waitingFill } sv)
    else tryGap env d sv

/-! ## Requests (R105, R108, R110, R111, R118, R119) -/

/-- The state of a channel's active clip, its place in the table of spec/06 section 6.4. -/
def ClipState.code : ClipState → Nat
  | .waitingFill => 0
  | .waitingGap => 1
  | .waitingZone => 2
  | .speaking => 3
  | .suspended => 4

/-- A slot number that may be none. -/
def slotField (i : Option SlotId) : List Byte := mayBe 1 (i.map (fun j => u8 j.val))

/-- R105, R107: CLIP-ARM. -/
def clipArm (env : Env) (channel clipId length : Nat) (condition : Option StartCondition)
    (latestStart : Nat) (sv : Services) : Answer × Services :=
  match channelOf channel, condition with
  | some d, some cond =>
    let c := look sv.channels d
    if !(between 1 255 clipId && between 1 3750 length) then (.refuse .range, sv)
    else if !env.run then (.refuse .state, sv)
    else if !inService (look env.cfg.channels d) then (.refuse .range, sv)
    else if c.queue.any (fun q => q.clipId == clipId)
        || (match c.active with | some k => k.desc.clipId == clipId | none => false) then
      (.refuse .conflict, sv)
    else if 4 ≤ c.queue.length then (.refuse .full, sv)
    else
      let desc : ClipDesc :=
        { clipId := clipId, length := length, condition := cond, latestStart := latestStart }
      let sv1 := loadHead env d (putChannel d { c with queue := c.queue ++ [desc] } sv)
      let place := c.queue.length + 1
      let loaded := if place = 1 then (look sv1.channels d).headSlot else none
      (.plain .ok (u8 place ++ slotField loaded), sv1)
  | _, _ => (.refuse .range, sv)

/-- R107, R108: CLIP-DISARM. One that reaches the channel and is refused STATE or ABSENT still lets
the channel try its unloaded head (R107). -/
def clipDisarm (env : Env) (channel clipId : Nat) (sv : Services) : Answer × Services :=
  match channelOf channel with
  | none => (.refuse .range, sv)
  | some d =>
    let c := look sv.channels d
    if (match c.active with | some k => k.desc.clipId == clipId | none => false) then
      (.refuse .state, loadHead env d sv)
    else if !c.queue.any (fun q => q.clipId == clipId) then (.refuse .absent, loadHead env d sv)
    else
      let queue := c.queue.filter (fun q => q.clipId != clipId)
      let wasHead := match c.queue with | q :: _ => q.clipId == clipId | [] => false
      let sv1 :=
        match wasHead, c.headSlot with
        | true, some i =>
          loadHeads env (loadHead env d
            (putChannel d { c with queue := queue, headSlot := none, headFilled := false }
              (abandonOwned i clipId sv)))
        | _, _ => loadHead env d (putChannel d { c with queue := queue } sv)
      (.plain .ok (u8 queue.length), sv1)

/-- R110: the first check that refuses a start, if any; NOT-READY is raised with the last two. The
head's load is retried before this is asked. -/
def startRefusal (env : Env) (d : ChannelId) (sv : Services) : Option Status :=
  let c := look sv.channels d
  if !env.run then some .state
  else if !inService (look env.cfg.channels d) then some .range
  else if c.mode = .standing
      ∧ (match c.active with | some k => !k.finishing | none => true) = true then some .state
  else if c.queue = [] then some .empty
  else if c.headSlot = none then some .notReady
  else none

/-- R111: the head becomes the active clip of a channel that has none, and the next head loads. -/
def takeHead (env : Env) (d : ChannelId) (sv : Services) : Services :=
  let c := look sv.channels d
  match c.queue, c.headSlot with
  | head :: rest, some i =>
    loadHead env d (putChannel d
      { c with
        queue := rest, headSlot := none, headFilled := false
        active := some { desc := head, slot := i, state := .waitingFill, filled := c.headFilled
                         standing := false, finishing := false, resumeLeft := none } } sv)
  | _, _ => sv

/-- R111: the reply of a start: the new clip, its state (none once it has ended LATE), the clip
cut. -/
def startAnswer (sv : Services) (d : ChannelId) (newId : Nat) (cutId : Option Nat) : Answer :=
  let state := match (look sv.channels d).active with
    | some k => if k.desc.clipId = newId then some (u8 k.state.code) else none
    | none => none
  .plain .ok (u8 newId ++ mayBe 1 state ++ mayBe 1 (cutId.map u8))

/-- R110, R111: CLIP-START and START-CLIP. -/
def clipStart (env : Env) (channel : Nat) (sv : Services) : Answer × Services :=
  match channelOf channel with
  | none => (.refuse .range, sv)
  | some d =>
    let early := startRefusal env d sv
    if early = some .state ∨ early = some .range then (.refuse (early.getD .state), sv)
    else
      let sv1 := if early = some .notReady then loadHead env d sv else sv
      match startRefusal env d sv1 with
      | some st => (.refuse st, raise env .notReady sv1)
      | none =>
        let before := (look sv1.channels d)
        let newId := match before.queue with | h :: _ => h.clipId | [] => 0
        let sv2 := endClip env d .cut sv1
        let sv3 := activate env d (takeHead env d sv2)
        (startAnswer sv3 d newId (before.active.map (fun k => k.desc.clipId)), sv3)

/-- R118: CLIP-STOP and STOP-CLIP. -/
def clipStop (env : Env) (channel : Nat) (sv : Services) : Answer × Services :=
  match channelOf channel with
  | none => (.refuse .range, sv)
  | some d =>
    if !env.run then (.refuse .state, sv)
    else if !inService (look env.cfg.channels d) then (.refuse .range, sv)
    else
      match (look sv.channels d).active with
      | none => (.refuse .absent, sv)
      | some c => (.plain .ok (u8 c.desc.clipId), endClip env d .stopped sv)

/-- R119: CHANNEL-MODE SCRIPTED. -/
def modeScripted (env : Env) (channel : Nat) (sv : Services) : Answer × Services :=
  match channelOf channel with
  | none => (.refuse .range, sv)
  | some d =>
    if !env.run then (.refuse .state, sv)
    else if !inService (look env.cfg.channels d) then (.refuse .range, sv)
    else if (look sv.channels d).mode = .scripted then (.plain .ok [], sv)
    else
      let sv1 := endClip env d .stopped sv
      (.plain .ok [], putChannel d { look sv1.channels d with mode := .scripted } sv1)

/-- R119: the lower-numbered IDLE slot of the channel other than the head slot. -/
def standingSlot (sv : Services) (d : ChannelId) : Option SlotId :=
  let (low, high) := channelSlots d
  let head := (look sv.channels d).headSlot
  if (look sv.slots low).state = .idle ∧ head ≠ some low then some low
  else if (look sv.slots high).state = .idle ∧ head ≠ some high then some high
  else none

/-- R119: the checks of CHANNEL-MODE STANDING before the arm. -/
def standingRefusal (env : Env) (d : ChannelId) (clipId length : Nat) (sv : Services) :
    Option Status :=
  let c := look sv.channels d
  let k := look env.cfg.channels d
  let houseOpen := match k.auditorium with
    | some a => (sv.houses.get a).state == .opened
    | none => false
  if !(between 1 255 clipId && between 1 1024 length) then some .range
  else if !env.run then some .state
  else if !inService k then some .range
  else if !houseOpen || c.mode == .standing || c.active.isSome then some .state
  else if c.queue.any (fun q => q.clipId == clipId) then some .conflict
  else none

/-- R119: CHANNEL-MODE STANDING. A channel with no slot to arm is refused STATE (log 30). -/
def modeStanding (env : Env) (channel clipId length : Nat) (sv : Services) : Answer × Services :=
  match channelOf channel with
  | none => (.refuse .range, sv)
  | some d =>
    match standingRefusal env d clipId length sv with
    | some st => (.refuse st, sv)
    | none =>
      match standingSlot sv d with
      | none => (.refuse .state, sv)
      | some i =>
        match armSlot env i clipId length true sv with
        | (.ok, sv1) =>
          let desc : ClipDesc :=
            { clipId := clipId, length := length, condition := .atCue, latestStart := 0 }
          (.plain .ok (u8 i.val),
            putChannel d
              { look sv1.channels d with
                mode := .standing
                active := some { desc := desc, slot := i, state := .waitingFill, filled := false
                                 standing := true, finishing := false, resumeLeft := none } } sv1)
        | (st, sv1) => (.refuse st, sv1)

/-! ## Live keys (R102, R103) -/

/-- R102: the channels bound to a key. -/
def boundTo (env : Env) (key : LiveInput) (d : ChannelId) : Bool :=
  let c := look env.cfg.channels d
  inService c && c.liveInput == some key

/-- R103: a channel's live key is pressed: the LIVE claim. -/
def liveClaimNow (env : Env) (d : ChannelId) (sv : Services) : Services :=
  match (look env.cfg.channels d).zone with
  | none => sv
  | some z =>
    let (v, sv1) := claim env z ⟨5, .live d⟩ sv
    putChannel d
      { look sv1.channels d with liveClaim := if v.granted then .onZone else .waiting } sv1

/-- R103: a confirmed press. -/
def livePress (env : Env) (key : LiveInput) (sv : Services) : Services :=
  allChannels.foldl (fun acc d =>
    if boundTo env key d then
      liveClaimNow env d (putChannel d { look acc.channels d with liveFlag := true } acc)
    else acc) sv

/-- R103: a confirmed release. -/
def liveRelease (env : Env) (key : LiveInput) (sv : Services) : Services :=
  allChannels.foldl (fun acc d =>
    if boundTo env key d then
      let acc1 := releaseAll env (.live d)
        (putChannel d { look acc.channels d with liveFlag := false } acc)
      putChannel d { look acc1.channels d with liveClaim := .none } acc1
    else acc) sv

/-! ## Reports the engine takes -/

/-- R117: a clip whose claim was pushed is suspended; a finishing standing clip ends (R120). -/
def clipPushed (env : Env) (d : ChannelId) (sv : Services) : Services :=
  match (look sv.channels d).active with
  | none => sv
  | some c =>
    if c.state ≠ .speaking then sv
    else if c.finishing then endClip env d .stopped sv
    else
      let limit := (look env.cfg.channels d).resumeLimit
      let sv1 := (pauseSlot env c.slot sv).2
      if c.standing then setActive d { c with state := .suspended } sv1
      else if limit = 0 then endClip env d .resumeLimit (setActive d { c with state := .suspended } sv1)
      else setActive d { c with state := .suspended, resumeLeft := some (limit * 1000) } sv1

/-- R117: a clip whose claim is active again speaks on. -/
def clipRestored (env : Env) (d : ChannelId) (sv : Services) : Services :=
  match (look sv.channels d).active with
  | none => sv
  | some c =>
    if c.state ≠ .suspended then sv
    else
      (resumeSlot env c.slot
        (setActive d { c with state := .speaking, resumeLeft := none } sv)).2

/-- R7, R116: a clip whose claim was lost ends RESUME-LIMIT. -/
def clipLost (env : Env) (d : ChannelId) (sv : Services) : Services :=
  match (look sv.channels d).active with
  | none => sv
  | some c =>
    if c.state = .speaking ∨ c.state = .suspended then endClip env d .resumeLimit sv else sv

/-- R103: a LIVE claim that was lost is not claimed again until the key is pressed again. -/
def liveLost (d : ChannelId) (sv : Services) : Services :=
  putChannel d { look sv.channels d with liveClaim := .none } sv

/-- R103, R115: the channel's waiting claims are retried on a zone-release report for its zone, a
WAITING LIVE claim before a clip in WAITING-ZONE, an order the rules leave open (DESIGN CHOICE,
log 53). -/
def channelRetry (env : Env) (z : ZoneId) (d : ChannelId) (sv : Services) : Services :=
  if (look env.cfg.channels d).zone ≠ some z then sv
  else
    let c := look sv.channels d
    let sv1 := if c.liveFlag ∧ c.liveClaim = .waiting then liveClaimNow env d sv else sv
    match (look sv1.channels d).active with
    | some k => if k.state = .waitingZone then tryZone env d sv1 else sv1
    | none => sv1

/-- R11: the engine takes a zone-release report. -/
def engineRetry (env : Env) (z : ZoneId) (sv : Services) : Services :=
  allChannels.foldl (fun acc d => channelRetry env z d acc) sv

/-- R106, R113, R119: "prefill reached" for a description slot. -/
def enginePrefill (env : Env) (d : ChannelId) (i : SlotId) (sv : Services) : Services :=
  let c := look sv.channels d
  match c.active with
  | some k =>
    if k.slot = i then
      if k.state = .waitingFill then
        let sv1 := setActive d { k with filled := true } sv
        if k.standing then tryZone env d sv1 else tryGap env d sv1
      else setActive d { k with filled := true } sv
    else if c.headSlot = some i then putChannel d { c with headFilled := true } sv
    else sv
  | none => if c.headSlot = some i then putChannel d { c with headFilled := true } sv else sv

/-- R116: "stream done" for a description slot. -/
def engineStreamDone (env : Env) (d : ChannelId) (i : SlotId) (owner : Nat) (sv : Services) :
    Services :=
  match (look sv.channels d).active with
  | some k =>
    if k.slot = i ∧ k.desc.clipId = owner then endClip env d .done sv else loadHeads env sv
  | none => loadHeads env sv

/-- R120: "pass done" for a description slot: a finishing standing clip ends DONE. -/
def enginePassDone (env : Env) (d : ChannelId) (i : SlotId) (sv : Services) : Services :=
  match (look sv.channels d).active with
  | some k => if k.slot = i ∧ k.finishing then endClip env d .done sv else sv
  | none => sv

/-- The outcome each reason of the pool gives a clip (R109). -/
def clipOutcomeOf : AbandonReason → ClipOutcome
  | .starved => .starved
  | .hostLost => .hostLost
  | .config => .config

/-- R116, R121, R122: "slot abandoned" for a description slot. -/
def engineAbandoned (env : Env) (d : ChannelId) (i : SlotId) (reason : AbandonReason) (owner : Nat)
    (sv : Services) : Services :=
  let c := look sv.channels d
  let isActive := match c.active with
    | some k => decide (k.slot = i ∧ k.desc.clipId = owner)
    | none => false
  if isActive then endClip env d (clipOutcomeOf reason) sv
  else if c.headSlot = some i then
    loadHeads env (putChannel d { c with headSlot := none, headFilled := false } sv)
  else loadHeads env sv

/-- R114: "gap open": the clips of the auditorium in WAITING-GAP go on, in ascending channel. -/
def gapOpened (env : Env) (a : Aud) (sv : Services) : Services :=
  allChannels.foldl (fun acc d =>
    if (look env.cfg.channels d).auditorium = some a then
      match (look acc.channels d).active with
      | some k => if k.state = .waitingGap then tryZone env d acc else acc
      | none => acc
    else acc) sv

/-- R120: "house closed": the standing clip of a channel finishes its pass or ends. -/
def standingHouseClosed (env : Env) (d : ChannelId) (sv : Services) : Services :=
  match (look sv.channels d).active with
  | none => sv
  | some k =>
    if !k.standing then sv
    else if k.state = .speaking then
      setActive d { k with finishing := true } (setLoop env k.slot false sv).2
    else endClip env d .stopped sv

/-- R152: the engine takes "house closed" for an auditorium. -/
def engineHouseClosed (env : Env) (a : Aud) (sv : Services) : Services :=
  allChannels.foldl (fun acc d =>
    if (look env.cfg.channels d).auditorium = some a then standingHouseClosed env d acc else acc) sv

/-! ## Timers (R115, R117) -/

/-- R115: the show clock passes the latest start of a waiting clip. -/
def latestPassed (env : Env) (d : ChannelId) (sv : Services) : Services :=
  match (look sv.channels d).active with
  | some k =>
    if k.state.waits ∧ k.desc.latestStart ≠ 0 then endClip env d .late sv else sv
  | none => sv

/-- R117: the resume-limit timer of a suspended clip runs out. -/
def resumeLimitExpired (env : Env) (d : ChannelId) (sv : Services) : Services :=
  match (look sv.channels d).active with
  | some k =>
    if k.state = .suspended ∧ k.resumeLeft.isSome then endClip env d .resumeLimit sv else sv
  | none => sv

/-! ## Operating state (R122) -/

/-- R122: the teardown of a channel at entry to CONFIG. The standing clip's end returns it to
SCRIPTED; the queue is emptied before the clip's end could load a head, and nothing arms in CONFIG. -/
def channelTeardown (env : Env) (d : ChannelId) (sv : Services) : Services :=
  let sv1 := endClip env d .config sv
  putChannel d
    { look sv1.channels d with
      queue := [], headSlot := none, headFilled := false, mode := .scripted
      liveFlag := false, liveClaim := .none } sv1

/-- R122: the engine's teardown. -/
def engineTeardown (env : Env) (sv : Services) : Services :=
  let sv1 := allChannels.foldl (fun acc d => channelTeardown env d acc) sv
  { sv1 with keyA := LiveKey.fresh, keyB := LiveKey.fresh }

end Sys2Proof.Machine
end

