-- ==== Sys2Proof/Machine/Scheduler.lean ====
section
/-! DEFINITION. The call scheduler (spec/07): the call table, queue order and evaluation walks, call
slots, repetitions and their phases, the chime generator and the finished list. -/

namespace Sys2Proof.Machine

/-! ## The table -/

/-- R126, R132: the live call with an id. -/
def findCall (id : Nat) (sv : Services) : Option Call := sv.calls.find? (fun k => k.desc.callId == id)

/-- The live call with an id changed. -/
def updCall (id : Nat) (f : Call → Call) (sv : Services) : Services :=
  { sv with calls := sv.calls.map (fun k => if k.desc.callId = id then f k else k) }

/-- R133: `a` does not come after `b` in queue order; calls posted at one time keep their order of
posting (log 19). -/
def queueBefore (a b : Call) : Bool :=
  decide (b.desc.priority < a.desc.priority)
    || (decide (b.desc.priority = a.desc.priority) && decide (a.posted ≤ b.posted))

/-- R133: the live calls in queue order. -/
def queueOrder (calls : List Call) : List Call := calls.insertionSort (fun a b => queueBefore a b = true)

/-- R135: a call's claim. -/
def callClaim (d : CallDesc) : Claim := ⟨callRank d.priority, .call d.callId⟩

/-- R127: the current set: the targets on which the call's claim is active. -/
def currentSet (sv : Services) (d : CallDesc) : List ZoneId :=
  d.targets.filter (fun z => (look sv.zones z).carries (.call d.callId))

/-- R146: the targets where the call's claim is stacked. -/
def stackedSet (sv : Services) (d : CallDesc) : List ZoneId :=
  d.targets.filter (fun z => (look sv.zones z).stacks (.call d.callId))

/-- A walk is owed (R133). -/
def oweWalk (sv : Services) : Services := { sv with walkDue := true }

/-! ## The chime generator (R137) -/

/-- The generator starts a chime. -/
def startChime (owner : ChimeOwner) (c : Chime) (sv : Services) : Services :=
  { sv with chimes := sv.chimes ++ [{ owner := owner, chime := c, left := chimeLength c }] }

/-- The generator stops an owner's chime without a report. -/
def stopChime (owner : ChimeOwner) (sv : Services) : Services :=
  { sv with chimes := sv.chimes.filter (fun k => k.owner != owner) }

/-- The generator is sounding an owner's chime. -/
def chimeSounds (owner : ChimeOwner) (sv : Services) : Bool := sv.chimes.any (fun k => k.owner == owner)

/-! ## The end of a call (R128, R129) -/

/-- R129: a record appended, the oldest lost when there are 8. -/
def appendFinished (r : FinishedRecord) (l : List FinishedRecord) : List FinishedRecord :=
  (if 8 ≤ l.length then l.drop (l.length - 7) else l) ++ [r]

/-- R128: the finished record of a call. -/
def finishedOf (k : Call) (endTime : Nat) (outcome : CallOutcome) : FinishedRecord :=
  { callId := k.desc.callId, targets := k.desc.targets, heard := k.heard, done := k.done
    firstStart := k.firstStart, endTime := endTime, outcome := outcome }

/-- R128: ends a live call. Its timers leave the table with it. -/
def endCall (env : Env) (id : Nat) (outcome : CallOutcome) (sv : Services) : Services :=
  match findCall id sv with
  | none => sv
  | some k =>
    let sv1 := releaseAll env (.call id) (stopChime (.call id) sv)
    let sv2 := match k.slot with | some i => abandonOwned i id sv1 | none => sv1
    let sv3 :=
      { sv2 with
        calls := sv2.calls.filter (fun c => c.desc.callId != id)
        finished := appendFinished (finishedOf k sv2.callClock outcome) sv2.finished }
    let sv4 := raise env .call sv3
    if k.slot.isSome then oweWalk sv4 else sv4

/-! ## Repetitions (R136, R138, R139, R143) -/

/-- R138, R139: the call enters MESSAGE. -/
def beginMessage (env : Env) (id : Nat) (sv : Services) : Services :=
  match findCall id sv with
  | none => sv
  | some k =>
    match k.desc.message, k.slot with
    | .liveMic secs, _ =>
      updCall id (fun c => { c with phase := some .message, breakLeft := none
                                    micLeft := some (secs * 1000) }) sv
    | .stream _, some i =>
      let sv1 := updCall id (fun c => { c with phase := some .message, breakLeft := none }) sv
      if k.done = 0 then (startSlot env i false sv1).2 else (resumeSlot env i sv1).2
    | _, _ => updCall id (fun c => { c with phase := some .message, breakLeft := none }) sv

/-- R143: a repetition ends. -/
def endRepetition (env : Env) (id : Nat) (sv : Services) : Services :=
  match findCall id sv with
  | none => sv
  | some k =>
    let finished := decide (k.desc.repetitions ≤ k.done + 1)
    let sv1 := updCall id (fun c =>
      { c with
        done := c.done + 1
        heard := c.desc.targets.filter (fun z => c.heard.contains z || c.unbroken.contains z)
        unbroken := [], phase := none, micLeft := none, breakLeft := none, dropMessage := false
        state := if k.desc.spacing = 0 then .waiting else .spacing
        spacingLeft := if k.desc.spacing = 0 then none else some (k.desc.spacing * 1000) }) sv
    let sv2 := releaseAll env (.call id) sv1
    if finished then endCall env id .done sv2
    else if k.desc.spacing = 0 then oweWalk sv2 else sv2

/-- R136: a repetition begins its first phase. -/
def beginRepetition (env : Env) (id : Nat) (sv : Services) : Services :=
  match findCall id sv with
  | none => sv
  | some k =>
    if k.desc.chime = .noChime then beginMessage env id sv
    else startChime (.call id) k.desc.chime (updCall id (fun c => { c with phase := some .chime }) sv)

/-- R135, R142: zones granted at a start that can be heard. -/
def hearable (env : Env) (sv : Services) (zs : List ZoneId) : List ZoneId :=
  zs.filter (fun z => !(look env.cfg.zones z).mute && (look sv.zones z).drive != .failed)

/-! ## Evaluation (R133, R134, R135, R141) -/

/-- R135: a WAITING call is ready. -/
def Call.ready (k : Call) : Bool :=
  match k.desc.message with
  | .noMessage => true
  | .liveMic _ => true
  | .stream _ => k.slot.isSome && k.filled

/-- R135: the start claim of a ready call. -/
def startClaim (env : Env) (k : Call) (sv : Services) : Services :=
  let id := k.desc.callId
  let (answers, sv1) := setClaim env (callClaim k.desc) k.desc.whole k.desc.targets sv
  match grantedZones k.desc.whole answers with
  | [] => sv1
  | granted =>
    let sv2 := updCall id (fun c =>
      { c with
        state := .playing, unbroken := hearable env sv1 granted, dropMessage := false
        firstStart := match c.firstStart with | some t => some t | none => some sv1.callClock
        expiryLeft := none, spacingLeft := none }) sv1
    beginRepetition env id sv2

/-- R134: the slot a walk offers: S8 if IDLE, else S9 if IDLE. -/
def idleCallSlot (sv : Services) : Option SlotId :=
  if (look sv.slots callSlots.1).state = .idle then some callSlots.1
  else if (look sv.slots callSlots.2).state = .idle then some callSlots.2
  else none

/-- R134: offers a slot to a call; answers whether slots are still offered to later calls. -/
def offerSlot (env : Env) (k : Call) (length : Nat) (sv : Services) : Bool × Services :=
  match idleCallSlot sv with
  | none => (false, sv)
  | some i =>
    match armSlot env i k.desc.callId length (decide (1 < k.desc.repetitions)) sv with
    | (.ok, sv1) =>
      (true, updCall k.desc.callId (fun c => { c with slot := some i, filled := false }) sv1)
    | (_, sv1) => (false, sv1)

/-- R141: a playing call retries a target on which it holds no claim. -/
def lateJoin (env : Env) (k : Call) (z : ZoneId) (sv : Services) : Services :=
  let r := look sv.zones z
  let who := Claimant.call k.desc.callId
  if k.desc.targets.contains z && !(r.carries who) && !(r.stacks who) then
    (claim env z (callClaim k.desc) sv).2
  else sv

/-- R133: a call's turn in a walk: the slot offer, then the start claim or the late joins. -/
def walkCall (env : Env) (zs : List ZoneId) (acc : Bool × Services) (id : Nat) : Bool × Services :=
  let (offering, sv) := acc
  match findCall id sv with
  | none => acc
  | some k =>
    let (offering1, sv1) :=
      match k.desc.message, k.slot with
      | .stream length, none =>
        if (k.state = CallState.parked ∨ k.state = CallState.waiting) ∧ offering then offerSlot env k length sv
        else (offering, sv)
      | _, _ => (offering, sv)
    if k.state = CallState.waiting ∧ k.ready then (offering1, startClaim env k sv1)
    else if k.state = CallState.playing ∧ !k.desc.whole then
      (offering1, zs.foldl (fun s z => lateJoin env k z s) sv1)
    else (offering1, sv1)

/-- R133: an evaluation walk over the calls live at its start, in queue order. -/
def walk (env : Env) (sv : Services) : Services :=
  let zs := sv.walkZones
  let ids := (queueOrder sv.calls).map (fun k => k.desc.callId)
  (ids.foldl (walkCall env zs) (true, { sv with walkDue := false, walkZones := [] })).2

/-! ## Requests (R126, R130, R132, R139) -/

/-- R126: the ranges of a descriptor; the accepted descriptor. -/
def callDescOf (f : CallFields) : Option CallDesc :=
  match f.chime, f.message, f.whole, f.parked with
  | some chime, some message, some whole, some parked =>
    let messageLegal := match message with
      | .noMessage => true
      | .stream n => between 1 1024 n
      | .liveMic n => between 1 120 n
    if between 1 255 f.callId && decide (f.priority ≤ 3) && !f.targets.isEmpty
        && f.targets.all (fun z => decide (z < 20)) && messageLegal && between 1 8 f.repetitions
        && decide (f.spacing ≤ 600) && decide (f.expiry ≤ 3600)
        && !(chime == .noChime && message == .noMessage) then
      some { callId := f.callId, priority := f.priority
             targets := allZones.filter (fun z => f.targets.contains z.val)
             chime := chime, message := message, repetitions := f.repetitions, spacing := f.spacing
             whole := whole, parked := parked, expiry := f.expiry }
    else none
  | _, _, _, _ => none

/-- R126: a call as CALL-POST enters it. -/
def newCall (d : CallDesc) (now : Nat) : Call :=
  { desc := d, state := if d.parked then .parked else .waiting, phase := none, unbroken := []
    heard := [], done := 0, slot := none, filled := false, posted := now, firstStart := none
    expiryLeft := if d.expiry = 0 then none else some (d.expiry * 1000), spacingLeft := none
    micLeft := none, breakLeft := none, dropMessage := false }

/-- R127: the place of a call's state in its table. -/
def CallState.code : CallState → Nat
  | .parked => 0
  | .waiting => 1
  | .playing => 2
  | .spacing => 3

/-- R126: CALL-POST. -/
def callPost (env : Env) (f : CallFields) (sv : Services) : Answer × Services :=
  match callDescOf f with
  | none => (.refuse .range, sv)
  | some d =>
    if !env.run then (.refuse .state, sv)
    else if d.targets.any (fun z => !takesCalls (look env.cfg.zones z).kind) then (.refuse .range, sv)
    else if (findCall d.callId sv).isSome then (.refuse .conflict, sv)
    else if 16 ≤ sv.calls.length then (.refuse .full, sv)
    else
      let k := newCall d sv.callClock
      let sv1 := oweWalk { sv with calls := sv.calls ++ [k] }
      (.plain .ok (u8 k.state.code ++ u8 sv1.calls.length), sv1)

/-- R130: CALL-RELEASE and RELEASE-CALL. -/
def callRelease (id : Nat) (sv : Services) : Answer × Services :=
  match findCall id sv with
  | none => (.refuse .absent, sv)
  | some k =>
    if k.state ≠ .parked then (.refuse .state, sv)
    else (.plain .ok [], oweWalk (updCall id (fun c => { c with state := .waiting }) sv))

/-- R132: CALL-CANCEL. -/
def callCancel (env : Env) (id : Nat) (sv : Services) : Answer × Services :=
  match findCall id sv with
  | none => (.refuse .absent, sv)
  | some _ => (.plain .ok [], endCall env id .cancelled sv)

/-- The message is live from the call microphone. -/
def isMic : Message → Bool
  | .liveMic _ => true
  | _ => false

/-- R139: CALL-END. -/
def callEnd (env : Env) (id : Nat) (sv : Services) : Answer × Services :=
  match findCall id sv with
  | none => (.refuse .absent, sv)
  | some k =>
    if !isMic k.desc.message ∨ k.state ≠ .playing then (.refuse .state, sv)
    else
      match k.phase with
      | some .chime => (.plain .ok [], updCall id (fun c => { c with dropMessage := true }) sv)
      | _ => (.plain .ok [], endRepetition env id sv)

/-! ## Timers and the chime's end (R131, R136, R137, R139, R143) -/

/-- R131: the expiry timer of a call runs out. -/
def callExpired (env : Env) (id : Nat) (sv : Services) : Services :=
  match findCall id sv with
  | some k => if k.expiryLeft.isSome then endCall env id .expired sv else sv
  | none => sv

/-- R143: the spacing timer of a call runs out. -/
def spacingExpired (id : Nat) (sv : Services) : Services :=
  match findCall id sv with
  | some k =>
    if k.state = .spacing then
      oweWalk (updCall id (fun c => { c with state := .waiting, spacingLeft := none }) sv)
    else sv
  | none => sv

/-- R136: the break of a repetition runs out. -/
def breakExpired (env : Env) (id : Nat) (sv : Services) : Services :=
  match findCall id sv with
  | some k => if k.state = .playing ∧ k.phase = some .pause then beginMessage env id sv else sv
  | none => sv

/-- R139: the microphone timer of a call runs out. A call whose timer stands anywhere but at its end
is no longer in the repetition that the expiry belongs to, and the expiry is dropped. -/
def micExpired (env : Env) (id : Nat) (sv : Services) : Services :=
  match findCall id sv with
  | some k => if k.state = .playing ∧ k.micLeft = some 0 then endRepetition env id sv else sv
  | none => sv

/-- R136, R139: a call's chime has run its length. -/
def callChimeEnded (env : Env) (id : Nat) (sv : Services) : Services :=
  if !chimeSounds (.call id) sv then sv
  else
    let sv1 := stopChime (.call id) sv
    match findCall id sv1 with
    | none => sv1
    | some k =>
      if k.state ≠ .playing ∨ k.phase ≠ some .chime then sv1
      else if k.desc.message = .noMessage ∨ k.dropMessage then endRepetition env id sv1
      else updCall id (fun c => { c with phase := some .pause, breakLeft := some 400 }) sv1

/-! ## Reports the scheduler takes (R138, R140, R144) -/

/-- R140: a zone pushed or lost leaves the unbroken set of a playing call. -/
def callLosesZone (id : Nat) (z : ZoneId) (sv : Services) : Services :=
  updCall id (fun c =>
    if c.state = .playing then { c with unbroken := c.unbroken.filter (fun y => y != z) } else c) sv

/-- The live call that holds a slot. -/
def slotCall (i : SlotId) (sv : Services) : Option Call := sv.calls.find? (fun k => k.slot == some i)

/-- R134: "prefill reached" for a call slot. -/
def schedulerPrefill (i : SlotId) (sv : Services) : Services :=
  match slotCall i sv with
  | some k => oweWalk (updCall k.desc.callId (fun c => { c with filled := true }) sv)
  | none => oweWalk sv

/-- R138: the message of the call that holds the slot has ended. -/
def schedulerMessageDone (env : Env) (i : SlotId) (sv : Services) : Services :=
  match slotCall i sv with
  | some k =>
    if k.state = .playing ∧ k.phase = some .message then endRepetition env k.desc.callId sv else sv
  | none => sv

/-- R138: "stream done" for a call slot; the slot is free, so a walk follows. -/
def schedulerStreamDone (env : Env) (i : SlotId) (owner : Nat) (sv : Services) : Services :=
  match slotCall i sv with
  | some k =>
    if k.desc.callId = owner then oweWalk (schedulerMessageDone env i sv) else oweWalk sv
  | none => oweWalk sv

/-- The outcome each reason of the pool gives a call (R144). -/
def callOutcomeOf : AbandonReason → CallOutcome
  | .starved => .streamFailed
  | .hostLost => .hostLost
  | .config => .config

/-- R144: "slot abandoned" for a call slot. -/
def schedulerAbandoned (env : Env) (i : SlotId) (reason : AbandonReason) (owner : Nat)
    (sv : Services) : Services :=
  match slotCall i sv with
  | some k =>
    if k.desc.callId = owner then oweWalk (endCall env owner (callOutcomeOf reason) sv) else oweWalk sv
  | none => oweWalk sv

/-! ## Operating state (R137, R145) -/

/-- R137, R145: every live call ends CONFIG in queue order, and every chime stops. -/
def schedulerTeardown (env : Env) (sv : Services) : Services :=
  let ids := (queueOrder sv.calls).map (fun k => k.desc.callId)
  let sv1 := ids.foldl (fun acc id => endCall env id .config acc) sv
  { sv1 with chimes := [] }

end Sys2Proof.Machine
end

