-- ==== Sys2Proof/Machine/Admission.lean ====
section
/-! DEFINITION. The entrance controller (spec/08): lamps, holds, house states, admission windows, the
admit chime, sensor events and fault latches. -/

namespace Sys2Proof.Machine

/-! ## Entrances and houses -/

/-- The entrance's record replaced. -/
def putEntrance (e : EntranceId) (x : Entrance) (sv : Services) : Services :=
  { sv with entrances := put sv.entrances e x }

/-- The house of an auditorium changed. -/
def updHouse (a : Aud) (f : House → House) (sv : Services) : Services :=
  { sv with houses := updTwo sv.houses a f }

/-- The window record of an auditorium changed; nothing while it is empty. -/
def updRecord (a : Aud) (f : WindowRecord → WindowRecord) (sv : Services) : Services :=
  updHouse a (fun h => { h with record := h.record.map f }) sv

/-- R148: the entrances of an auditorium. -/
def entrancesOf (env : Env) (a : Aud) : List EntranceId :=
  allEntrances.filter (fun e => (look env.cfg.entrances e).auditorium == some a)

/-- The admission entrances of an auditorium. -/
def admissionEntrances (env : Env) (a : Aud) : List EntranceId :=
  (entrancesOf env a).filter (fun e => (look env.cfg.entrances e).admission)

/-- R156, R157: the admission entrances that are not sensed CLOSED. -/
def notClosed (env : Env) (a : Aud) (sv : Services) : List EntranceId :=
  (admissionEntrances env a).filter (fun e => (look sv.entrances e).sensed != .closed)

/-- R151: the lamp of an entrance in use. -/
def lampFor (state : HouseState) (admission : Bool) : Lamp :=
  match state with
  | .opened => .off
  | .sealed => .red
  | .admitting => if admission then .green else .red
  | .closing => .red

/-- R151: the lamps of an auditorium follow its house state. -/
def setLamps (env : Env) (a : Aud) (sv : Services) : Services :=
  (entrancesOf env a).foldl (fun acc e =>
    putEntrance e
      { look acc.entrances e with
        lamp := lampFor (acc.houses.get a).state (look env.cfg.entrances e).admission } acc) sv

/-! ## Holds (R159) -/

/-- R159: whether an entrance holds its adjacent zones. -/
def holdsNow (env : Env) (e : EntranceId) (sv : Services) : Bool :=
  let c := look env.cfg.entrances e
  match c.auditorium with
  | none => false
  | some a =>
    let state := (sv.houses.get a).state
    state != .opened
      && ((look sv.entrances e).sensed != .closed || (c.admission && state == .admitting))

/-- R159: judges an entrance's holding and sends the holds or unholds of a change. -/
def judgeHolding (env : Env) (sv : Services) (e : EntranceId) : Services :=
  let now := holdsNow env e sv
  let x := look sv.entrances e
  let adjacent := (look env.cfg.entrances e).adjacent
  if now && !x.holding then
    adjacent.foldl (fun acc z => hold env z acc) (putEntrance e { x with holding := true } sv)
  else if !now && x.holding then
    adjacent.foldl (fun acc z => unhold env z acc) (putEntrance e { x with holding := false } sv)
  else sv

/-- R159: judges every entrance of an auditorium. -/
def judgeHoldings (env : Env) (a : Aud) (sv : Services) : Services :=
  (entrancesOf env a).foldl (judgeHolding env) sv

/-! ## The admit chime (R158) -/

/-- R158: the LOBBY zones of an auditorium. -/
def lobbyZones (env : Env) (a : Aud) : List ZoneId :=
  allZones.filter (fun z =>
    (look env.cfg.zones z).kind == .lobby && (look env.cfg.zones z).auditorium == some a)

/-- R158: the ADMIT claim of an auditorium. -/
def admitClaim (a : Aud) : Claim := ⟨4, .window a⟩

/-- R158: a window opens: the lobby zones are claimed and the chime starts. A window reopened from
CLOSING while the chime of the earlier window still sounds starts no second chime. A window opened
from SEALED then does, and its chime takes the place of the earlier one (DESIGN CHOICE, log 43). -/
def startAdmitChime (env : Env) (a : Aud) (reopened : Bool) (sv : Services) : Services :=
  if reopened && chimeSounds (.window a) sv then sv
  else
    match lobbyZones env a with
    | [] => sv
    | zs =>
      let (answers, sv1) := setClaim env (admitClaim a) false zs sv
      let results := answers.map (fun p =>
        (p.1, if p.2.granted then ChimeResult.whole else ChimeResult.skipped))
      startChime (.window a) .single
        (stopChime (.window a) (updHouse a (fun h => { h with chimes := results }) sv1))

/-- R158: a zone's result while the chime sounds becomes PART. -/
def chimePart (a : Aud) (z : ZoneId) (sv : Services) : Services :=
  if chimeSounds (.window a) sv then
    updHouse a (fun h =>
      { h with chimes := h.chimes.map (fun p => if p.1 = z then (z, .part) else p) }) sv
  else sv

/-- R158: a zone-release report for a zone that waits for the chime. -/
def chimeRetry (env : Env) (z : ZoneId) (a : Aud) (sv : Services) : Services :=
  if chimeSounds (.window a) sv && (sv.houses.get a).chimes.contains (z, .skipped) then
    let (v, sv1) := claim env z (admitClaim a) sv
    if v.granted then chimePart a z sv1 else sv1
  else sv

/-- R158: the chime has ended or is stopped: the claimant is released and the results written. -/
def finishAdmitChime (env : Env) (a : Aud) (sv : Services) : Services :=
  let results := (sv.houses.get a).chimes
  let sv1 := releaseAll env (.window a) (stopChime (.window a) sv)
  updHouse a (fun h =>
    { h with
      chimes := [], record := h.record.map (fun w => { w with chimes := some results }) }) sv1

/-- R137, R158: the generator reports the end of an admit chime. -/
def admitChimeEnded (env : Env) (a : Aud) (sv : Services) : Services :=
  if chimeSounds (.window a) sv then finishAdmitChime env a sv else sv

/-! ## House closing and opening (R152, R153) -/

/-- R152 and the first step of its list: the house is SEALED and its lamps RED. -/
def sealHouse (env : Env) (a : Aud) (sv : Services) : Services :=
  setLamps env a (updHouse a (fun h => { h with state := .sealed }) sv)

/-- R153: the house opens. -/
def openHouse (env : Env) (a : Aud) (sv : Services) : Services :=
  let was := (sv.houses.get a).state
  let sv1 := updHouse a (fun h =>
    { h with state := .opened, windowLeft := none, graceLeft := none }) sv
  let sv2 := if chimeSounds (.window a) sv1 then finishAdmitChime env a sv1 else sv1
  let sv3 :=
    match was with
    | .admitting =>
      raise env .window (updRecord a (fun w =>
        { w with closed := some (env.clock.get a), closeReason := some .houseOpen }) sv2)
    | .closing => updRecord a (fun w => { w with grace := .houseOpen }) sv2
    | _ => sv2
  judgeHoldings env a (setLamps env a sv3)

/-! ## The admission window (R155, R156, R157, R160) -/

/-- R155: the window time: 0 takes the default. -/
def windowTime (env : Env) (a : Aud) (seconds : Nat) : Nat :=
  if seconds = 0 then (env.cfg.auditoria.get a).windowDefault else seconds

/-- R155, R160: a new window opens from SEALED or CLOSING. -/
def openWindow (env : Env) (a : Aud) (seconds : Nat) (onMusic : Bool) (origin : WindowOrigin)
    (sv : Services) : Services :=
  let time := windowTime env a seconds
  let reopened := (sv.houses.get a).state == .closing
  let sv1 := updHouse a (fun h =>
    { h with
      state := .admitting, windowLeft := some (time * 1000), graceLeft := none
      closeOnMusic := onMusic, windows := holdAt 65535 h.windows }) sv
  let sv2 := startAdmitChime env a reopened (judgeHoldings env a (setLamps env a sv1))
  let sounding := chimeSounds (.window a) sv2
  let sv3 := updHouse a (fun h =>
    { h with
      record := some
        { number := h.windows, opened := env.clock.get a, openedBy := origin, windowTime := time
          closeOnMusic := onMusic, closed := none, closeReason := none, grace := .pending
          leftOpen := [], chimes := if sounding then none else some [] } }) sv2
  raise env .window sv3

/-- R155: an open window restarts. -/
def restartWindow (env : Env) (a : Aud) (seconds : Nat) (onMusic : Bool) (sv : Services) : Services :=
  let time := windowTime env a seconds
  updRecord a (fun w => { w with windowTime := time, closeOnMusic := onMusic })
    (updHouse a (fun h =>
      { h with windowLeft := some (time * 1000), closeOnMusic := onMusic }) sv)

/-- R155: ADMIT-OPEN and OPEN-ADMIT for an auditorium. -/
def admitOpen (env : Env) (a : Aud) (seconds : Nat) (onMusic : Bool) (origin : WindowOrigin)
    (sv : Services) : Status × Services :=
  if !(decide (seconds = 0) || between 5 300 seconds) then (.range, sv)
  else if !env.run then (.state, sv)
  else
    match (sv.houses.get a).state with
    | .opened => (.state, sv)
    | .admitting => (.ok, restartWindow env a seconds onMusic sv)
    | .sealed => (.ok, openWindow env a seconds onMusic origin sv)
    | .closing => (.ok, openWindow env a seconds onMusic origin sv)

/-- R156: an open window closes, with a reason and the closed time. -/
def closeWindow (env : Env) (a : Aud) (reason : CloseReason) (closedAt : Nat) (sv : Services) :
    Services :=
  let waits := !(notClosed env a sv).isEmpty
  let sv1 := updHouse a (fun h =>
    { h with
      windowLeft := none, state := if waits then .closing else .sealed
      graceLeft := if waits then some ((env.cfg.auditoria.get a).grace * 1000) else none }) sv
  let sv2 := updRecord a (fun w =>
    { w with
      closed := some closedAt, closeReason := some reason
      grace := if waits then w.grace else .notNeeded }) (setLamps env a sv1)
  judgeHoldings env a (raise env .window sv2)

/-- R156: ADMIT-CLOSE and CLOSE-ADMIT for an auditorium. -/
def admitClose (env : Env) (a : Aud) (reason : CloseReason) (sv : Services) : Status × Services :=
  if env.run ∧ (sv.houses.get a).state = .admitting then
    (.ok, closeWindow env a reason (env.clock.get a) sv)
  else (.state, sv)

/-- R156: the window timer of an auditorium runs out. After a restart taken first the timer has time
left and no expiry follows (R155). -/
def windowExpired (env : Env) (a : Aud) (sv : Services) : Services :=
  if (sv.houses.get a).state = .admitting ∧ (sv.houses.get a).windowLeft = some 0 then
    closeWindow env a .expired (env.clock.get a) sv
  else sv

/-- R76, R156: "music resumed", with the count at which the gap ended. -/
def musicResumed (env : Env) (a : Aud) (count : Nat) (sv : Services) : Services :=
  let h := sv.houses.get a
  if h.state = .admitting ∧ h.closeOnMusic then closeWindow env a .music count sv else sv

/-- R157: CLOSING ends in SEALED with a grace outcome. -/
def endClosing (env : Env) (a : Aud) (outcome : GraceOutcome) (left : List EntranceId)
    (sv : Services) : Services :=
  let sv1 := updHouse a (fun h => { h with state := .sealed, graceLeft := none }) sv
  judgeHoldings env a
    (setLamps env a (updRecord a (fun w => { w with grace := outcome, leftOpen := left }) sv1))

/-- R150: LEFT-OPEN is latched. -/
def latchLeftOpen (env : Env) (sv : Services) (e : EntranceId) : Services :=
  raise env .entrance (putEntrance e { look sv.entrances e with leftOpen := true } sv)

/-- R157: the grace timer of an auditorium runs out. -/
def graceExpired (env : Env) (a : Aud) (sv : Services) : Services :=
  if (sv.houses.get a).state = .closing then
    let left := notClosed env a sv
    left.foldl (latchLeftOpen env) (endClosing env a .expired left sv)
  else sv

/-! ## Sensor events (R149, R150, R157) -/

/-- The sensed state a reading confirms. -/
def sensedOf (isOpen : Bool) : Sensed := if isOpen then .opened else .closed

/-- R150: an entrance opened while its house is SEALED latches OPENED-WHILE-SEALED. -/
def latchOpened (env : Env) (a : Aud) (e : EntranceId) (isOpen : Bool) (sv : Services) : Services :=
  if isOpen ∧ (sv.houses.get a).state = .sealed then
    raise env .entrance (putEntrance e { look sv.entrances e with openedWhileSealed := true } sv)
  else sv

/-- R149: a sensor event; nothing when the entrance is sensed so already. -/
def sensorEvent (env : Env) (e : EntranceId) (isOpen : Bool) (sv : Services) : Services :=
  let x := look sv.entrances e
  if x.sensed = sensedOf isOpen then sv
  else
    let sv1 := putEntrance e { x with sensed := sensedOf isOpen } sv
    match (look env.cfg.entrances e).auditorium with
    | none => sv1
    | some a =>
      let sv2 := judgeHolding env (latchOpened env a e isOpen sv1) e
      if (sv2.houses.get a).state = .closing ∧ notClosed env a sv2 = [] then
        endClosing env a .allClosed [] sv2
      else sv2

/-- R163: the fault latch emptied. -/
def clearLatch (sv : Services) (e : EntranceId) : Services :=
  putEntrance e { look sv.entrances e with openedWhileSealed := false, leftOpen := false } sv

/-- R148: a changed sensor polarity sets the sensed state to UNKNOWN. -/
def takeEntranceConfig (e : EntranceId) (old new : EntranceConfig) (sv : Services) : Services :=
  if old.polarity = new.polarity then sv
  else putEntrance e { look sv.entrances e with sensed := .unknown, sample := none } sv

end Sys2Proof.Machine
end

