-- ==== Sys2Proof/Machine/Settle.lean ====
section
/-! DEFINITION. The reports of the router and the pool reach the blocks that own what they name
(R6, R7, R10, R11, R83). Reports are taken in the order they were sent; when none is in transit a
walk that is owed is made (log 5, log 20). -/

namespace Sys2Proof.Machine

/-- A report about a claim reaches its claimant (R6, R7, R10). -/
def deliverPushed (env : Env) (c : Claim) (z : ZoneId) (sv : Services) : Services :=
  match c.who with
  | .call id => callLosesZone id z sv
  | .clip d => clipPushed env d sv
  | .window a => chimePart a z sv
  | .live _ => sv
  | .test _ => sv
  | .override => sv

/-- "Claim restored" (R10): a call's current set follows from the zone records, an admit chime's
result stays. -/
def deliverRestored (env : Env) (c : Claim) (sv : Services) : Services :=
  match c.who with
  | .clip d => clipRestored env d sv
  | _ => sv

/-- "Zone lost" (R7). -/
def deliverLost (env : Env) (c : Claim) (z : ZoneId) (sv : Services) : Services :=
  match c.who with
  | .call id => callLosesZone id z sv
  | .clip d => clipLost env d sv
  | .live d => liveLost d sv
  | .window a => chimePart a z sv
  | .test _ => sv
  | .override => sv

/-- R11: a zone-release report: the engine, then the chime logic of each auditorium. The scheduler's
walk is owed already. -/
def deliverReleased (env : Env) (z : ZoneId) (sv : Services) : Services :=
  chimeRetry env z .two (chimeRetry env z .one (engineRetry env z sv))

/-- One report reaches its block. -/
def deliver (env : Env) (r : Report) (sv : Services) : Services :=
  match r with
  | .claimPushed c z => deliverPushed env c z sv
  | .claimRestored c _ => deliverRestored env c sv
  | .zoneLost c z => deliverLost env c z sv
  | .zoneReleased z _ _ => deliverReleased env z sv
  | .prefillReached i =>
    match slotChannel i with
    | some d => enginePrefill env d i sv
    | none => schedulerPrefill i sv
  | .passDone i _ =>
    match slotChannel i with
    | some d => enginePassDone env d i sv
    | none => schedulerMessageDone env i sv
  | .streamDone i owner =>
    match slotChannel i with
    | some d => engineStreamDone env d i owner sv
    | none => schedulerStreamDone env i owner sv
  | .slotAbandoned i reason owner =>
    match slotChannel i with
    | some d => engineAbandoned env d i reason owner sv
    | none => schedulerAbandoned env i reason owner sv

/-- The reports and walks one settling may take; what is left waits for the next tick (log 32). -/
def settleFuel : Nat := 4096

/-- Takes the reports in transit, oldest first, and makes the walks owed. -/
def settleWith : Nat → Env → Services → Services
  | 0, _, sv => sv
  | fuel + 1, env, sv =>
    match sv.reports with
    | r :: rest => settleWith fuel env (deliver env r { sv with reports := rest })
    | [] => if sv.walkDue then settleWith fuel env (walk env sv) else sv

/-- Every report in transit is taken. -/
def settle (env : Env) (sv : Services) : Services := settleWith settleFuel env sv

/-- The services settle. -/
def State.settled (s : State) : State := s.serve settle

end Sys2Proof.Machine
end

