-- ==== Sys2Proof/Machine/Layout.lean ====
section
/-! DEFINITION. The byte forms of records, statuses and results, laid out as spec/09 section 9.1 says:
fields in the order named, each in the least whole number of bytes that holds its range, a named
value by its place, a may-be-none field behind a presence byte (log 11, log 12, log 13). -/

namespace Sys2Proof.Machine

/-! ## Places of named values -/

/-- spec/01 section 1.1. -/
def kindCode : ZoneKind → Nat
  | .unused => 0
  | .hallLoop => 1
  | .foyerLoop => 2
  | .foyerSpeaker => 3
  | .lobby => 4
  | .description => 5

/-- The kind of a place. -/
def kindOfCode : Nat → Option ZoneKind
  | 0 => some .unused
  | 1 => some .hallLoop
  | 2 => some .foyerLoop
  | 3 => some .foyerSpeaker
  | 4 => some .lobby
  | 5 => some .description
  | _ => none

/-- A two-valued name of a place: the first value is `true`. -/
def yesNoOf : Nat → Option Bool
  | 0 => some true
  | 1 => some false
  | _ => none

/-- spec/01 section 1.1: AUX, SILENCE. -/
def homeCode : FoyerHome → Nat
  | .aux => 0
  | .silence => 1

/-- spec/03: ACTIVE-LOW, ACTIVE-HIGH. -/
def polarityCode : CuePolarity → Nat
  | .activeLow => 0
  | .activeHigh => 1

/-- spec/08 section 8.1: OPEN-HIGH, OPEN-LOW. -/
def sensorCode : SensorPolarity → Nat
  | .openHigh => 0
  | .openLow => 1

/-- spec/06 section 6.1: LIVE-A, LIVE-B. -/
def liveCode : LiveInput → Nat
  | .liveA => 0
  | .liveB => 1

/-- spec/01 section 1.1. -/
def driveCode : DriveState → Nat
  | .unknown => 0
  | .good => 1
  | .degraded => 2
  | .failed => 3

/-- R26. -/
def moduleStateCode : ModuleState → Nat
  | .unknown => 0
  | .absent => 1
  | .notReady => 2
  | .good => 3
  | .warn => 4
  | .fault => 5

/-- R83. -/
def slotStateCode : SlotState → Nat
  | .idle => 0
  | .loading => 1
  | .playing => 2
  | .starved => 3
  | .paused => 4

/-- spec/08 section 8.2. -/
def houseCode : HouseState → Nat
  | .opened => 0
  | .sealed => 1
  | .admitting => 2
  | .closing => 3

/-- R50. -/
def filterCode : FilterState → Nat
  | .unsettled => 0
  | .released => 1
  | .pressed => 2

/-- spec/04 section 4.3. -/
def gapCode : GapState → Nat
  | .sound => 0
  | .settling => 1
  | .quiet => 2

/-- R58. -/
def originCode : CueOrigin → Nat
  | .line => 0
  | .link => 1
  | .console => 2
  | .jump => 3

/-- R109. -/
def clipOutcomeCode : ClipOutcome → Nat
  | .done => 0
  | .cut => 1
  | .stopped => 2
  | .late => 3
  | .starved => 4
  | .resumeLimit => 5
  | .hostLost => 6
  | .config => 7

/-- spec/07 section 7.2. -/
def callOutcomeCode : CallOutcome → Nat
  | .done => 0
  | .expired => 1
  | .cancelled => 2
  | .streamFailed => 3
  | .hostLost => 4
  | .config => 5

/-- spec/07 section 7.1. -/
def chimeCode : Chime → Nat
  | .noChime => 0
  | .single => 1
  | .double => 2
  | .rising3 => 3

/-- R193. -/
def causeCode : ResetCause → Nat
  | .powerOn => 0
  | .supplyDip => 1
  | .resetLine => 2
  | .linkReset => 3

/-! ## Configuration records -/

/-- The auditorium field: 1 or 2 behind a presence byte. -/
def audField (a : Option Aud) : List Byte := mayBe 1 (a.map (fun x => u8 (audNumber x)))

/-- The ZONE record. -/
def encodeZone (c : ZoneConfig) : List Byte :=
  u8 (kindCode c.kind) ++ audField c.auditorium ++ moduleMask c.modules ++ u16 c.windowLow
    ++ u16 c.windowHigh ++ u8 (homeCode c.foyerHome) ++ yesNo c.flagged ++ u8 c.level ++ yesNo c.mute

/-- The ENTRANCE record. Its auditorium, 1, 2 or unused, is a field that may be none: unused is none
behind the presence byte (DESIGN CHOICE, log 58). -/
def encodeEntrance (c : EntranceConfig) : List Byte :=
  audField c.auditorium ++ yesNo c.admission ++ zoneMask c.adjacent ++ u8 (sensorCode c.polarity)

/-- The CHANNEL record. -/
def encodeChannel (c : ChannelConfig) : List Byte :=
  audField c.auditorium ++ mayBe 1 (c.zone.map (fun z => u8 z.val))
    ++ mayBe 1 (c.liveInput.map (fun i => u8 (liveCode i))) ++ u8 c.duck ++ u8 c.resumeLimit

/-- The AUDITORIUM record. -/
def encodeAuditorium (c : AuditoriumConfig) : List Byte :=
  u8 (polarityCode c.cuePolarity) ++ u16 c.lockout ++ s8 c.quietThreshold ++ s8 c.soundThreshold
    ++ u16 c.openTime ++ u16 c.windowDefault ++ u8 c.grace ++ u8 c.relayDuck

/-- The SUPERVISION record. -/
def encodeSupervision (c : SupervisionConfig) : List Byte :=
  w16 c.enables ++ u16 c.gap ++ u8 c.tripLimit ++ u8 c.warnTemp ++ u8 c.tripTemp

/-- The LINK record. -/
def encodeLink (c : LinkConfig) : List Byte := u8 c.silence ++ w16 c.enables

/-- A record in its byte form. -/
def encodeRecord : ConfigRecord → List Byte
  | .zone c => encodeZone c
  | .entrance c => encodeEntrance c
  | .channel c => encodeChannel c
  | .auditorium c => encodeAuditorium c
  | .supervision c => encodeSupervision c
  | .link c => encodeLink c

/-- The byte at a place; a place past the end reads 0 (records are cut to their length first). -/
def byteAt (bytes : List Byte) (i : Nat) : Nat := (bytes.getD i 0).toNat

/-- The number of `k` bytes at a place. -/
def numAt (bytes : List Byte) (i k : Nat) : Nat := leNat ((bytes.drop i).take k)

/-- The signed byte at a place. -/
def signedAt (bytes : List Byte) (i : Nat) : Int := (bytes.getD i 0).toInt

/-- The 16-bit word at a place. -/
def wordAt (bytes : List Byte) (i : Nat) : Word16 := BitVec.ofNat 16 (numAt bytes i 2)

/-- A may-be-none field of one byte whose presence byte is at a place: `some none` is a none. With a
presence byte of 0 the value's byte is not read, whatever it holds (DESIGN CHOICE, log 70). -/
def mayBeAt {α : Type} (bytes : List Byte) (i : Nat) (read : Nat → Option α) : Option (Option α) :=
  match byteAt bytes i with
  | 0 => some none
  | 1 => (read (byteAt bytes (i + 1))).map some
  | _ => none

/-- A zone mask; none when a bit names no zone. -/
def zonesOfMask (mask : Nat) : Option (List ZoneId) :=
  if mask < 2 ^ 20 then some (allZones.filter (fun z => mask.testBit z.val)) else none

/-- A module mask; none when a bit names no module. -/
def modulesOfMask (mask : Nat) : Option (List ModuleId) :=
  if mask < 2 ^ 13 ∧ !mask.testBit 0 then some (allModules.filter (fun m => mask.testBit (m.val + 1)))
  else none

/-- The home of a place. -/
def homeOfCode : Nat → Option FoyerHome
  | 0 => some .aux
  | 1 => some .silence
  | _ => none

/-- The cue polarity of a place. -/
def polarityOfCode : Nat → Option CuePolarity
  | 0 => some .activeLow
  | 1 => some .activeHigh
  | _ => none

/-- The sensor polarity of a place. -/
def sensorOfCode : Nat → Option SensorPolarity
  | 0 => some .openHigh
  | 1 => some .openLow
  | _ => none

/-- The live input of a place. -/
def liveOfCode : Nat → Option LiveInput
  | 0 => some .liveA
  | 1 => some .liveB
  | _ => none

/-- The ZONE record of 13 bytes. -/
def decodeZone (b : List Byte) : Option ZoneConfig := do
  let kind ← kindOfCode (byteAt b 0)
  let auditorium ← mayBeAt b 1 audOf
  let modules ← modulesOfMask (numAt b 3 2)
  let home ← homeOfCode (byteAt b 9)
  let flagged ← yesNoOf (byteAt b 10)
  let mute ← yesNoOf (byteAt b 12)
  some { kind := kind, auditorium := auditorium, modules := modules, windowLow := numAt b 5 2
         windowHigh := numAt b 7 2, foyerHome := home, flagged := flagged, level := byteAt b 11
         mute := mute }

/-- The ENTRANCE record of 8 bytes. -/
def decodeEntrance (b : List Byte) : Option EntranceConfig := do
  let auditorium ← mayBeAt b 0 audOf
  let admission ← yesNoOf (byteAt b 2)
  let adjacent ← zonesOfMask (numAt b 3 4)
  let polarity ← sensorOfCode (byteAt b 7)
  some { auditorium := auditorium, admission := admission, adjacent := adjacent, polarity := polarity }

/-- The CHANNEL record of 8 bytes. -/
def decodeChannel (b : List Byte) : Option ChannelConfig := do
  let auditorium ← mayBeAt b 0 audOf
  let zone ← mayBeAt b 2 zoneOf
  let live ← mayBeAt b 4 liveOfCode
  some { auditorium := auditorium, zone := zone, liveInput := live, duck := byteAt b 6
         resumeLimit := byteAt b 7 }

/-- The AUDITORIUM record of 11 bytes. -/
def decodeAuditorium (b : List Byte) : Option AuditoriumConfig := do
  let polarity ← polarityOfCode (byteAt b 0)
  some { cuePolarity := polarity, lockout := numAt b 1 2, quietThreshold := signedAt b 3
         soundThreshold := signedAt b 4, openTime := numAt b 5 2, windowDefault := numAt b 7 2
         grace := byteAt b 9, relayDuck := byteAt b 10 }

/-- The SUPERVISION record of 7 bytes. -/
def decodeSupervision (b : List Byte) : SupervisionConfig :=
  { enables := wordAt b 0, gap := numAt b 2 2, tripLimit := byteAt b 4, warnTemp := byteAt b 5
    tripTemp := byteAt b 6 }

/-- The LINK record of 3 bytes. -/
def decodeLink (b : List Byte) : LinkConfig := { silence := byteAt b 0, enables := wordAt b 1 }

/-- The length of the record at an index; none past the last record (spec/11 section 11.1). -/
def recordLength (index : Nat) : Option Nat :=
  if index < 20 then some 13
  else if index < 32 then some 8
  else if index < 36 then some 8
  else if index < 38 then some 11
  else if index = 38 then some 7
  else if index = 39 then some 3
  else none

/-- The record of an index from its bytes; none when a code names no value. -/
def decodeRecord (index : Nat) (b : List Byte) : Option ConfigRecord :=
  if recordLength index ≠ some b.length then none
  else if index < 20 then (decodeZone b).map .zone
  else if index < 32 then (decodeEntrance b).map .entrance
  else if index < 36 then (decodeChannel b).map .channel
  else if index < 38 then (decodeAuditorium b).map .auditorium
  else if index = 38 then some (.supervision (decodeSupervision b))
  else some (.link (decodeLink b))

/-- The record in force at an index (spec/11 section 11.1). -/
def recordAt (c : Configuration) (index : Nat) : Option ConfigRecord :=
  if h : index < 20 then some (.zone (look c.zones ⟨index, h⟩))
  else if h : index - 20 < 12 then some (.entrance (look c.entrances ⟨index - 20, h⟩))
  else if h : index - 32 < 4 then some (.channel (look c.channels ⟨index - 32, h⟩))
  else if index = 36 then some (.auditorium c.auditoria.one)
  else if index = 37 then some (.auditorium c.auditoria.two)
  else if index = 38 then some (.supervision c.supervision)
  else if index = 39 then some (.link c.link)
  else none

/-! ## Results -/

/-- R189-R194: a result's place: the load results in the order of R189, then INVALID and SAVED. -/
def resultCode : SettingsResult → Nat
  | .memory => 0
  | .marker => 1
  | .length => 2
  | .crc => 3
  | .range _ => 4
  | .loaded => 5
  | .invalid _ => 6
  | .saved => 7

/-- The index that goes with a RANGE or INVALID result. -/
def resultIndex : SettingsResult → Option Nat
  | .range i => some i
  | .invalid i => some i
  | _ => none

/-- R190: START-LOAD, LOAD, SAVE. -/
def settingsKindCode : SettingsKind → Nat
  | .startLoad => 0
  | .load => 1
  | .save => 2

/-- R190: the settings result record. -/
def encodeResult (r : ResultRecord) : List Byte :=
  mayBe 1 (r.kind.map (fun k => u8 (settingsKindCode k)))
    ++ mayBe 1 (r.result.map (fun x => u8 (resultCode x)))
    ++ mayBe 1 ((r.result.bind resultIndex).map u8) ++ yesNo r.inProgress

/-- R191, R192: what the reply of a settings operation carries. -/
def resultBytes (r : SettingsResult) : List Byte :=
  u8 (resultCode r) ++ (match r with | .range i => u8 i | _ => [])

/-! ## Zones (R23) -/

/-- spec/01 section 1.2: a claim as rank, claimant kind and claimant id. -/
def encodeClaim (c : Claim) : List Byte :=
  let (kind, id) : Nat × Option Nat := match c.who with
    | .override => (0, none)
    | .call n => (1, some n)
    | .live d => (2, some d.val)
    | .clip d => (3, some d.val)
    | .window a => (4, some (audNumber a))
    | .test .link => (5, some 0)
    | .test .console => (5, some 1)
  u8 c.rank ++ u8 kind ++ mayBe 1 (id.map u8)

/-- Milliseconds as whole seconds left. The spec gives no rounding; the model rounds up (DESIGN CHOICE,
log 41). -/
def secondsLeft (ms : Nat) : Nat := (ms + 999) / 1000

/-- R23: one zone of a ZONE-STATUS reply. The remaining limit times are two fields that may be none,
LINK's and then CONSOLE's (DESIGN CHOICE, log 41). -/
def zoneStatusItem (env : Env) (sv : Services) (z : ZoneId) : List Byte :=
  let c := look env.cfg.zones z
  let r := look sv.zones z
  encodeZone c ++ u8 (driveCode r.drive) ++ u8 (if r.backoff then 6 else 0)
    ++ u8 (effectiveAttenuation c r) ++ u8 r.holds ++ mayBe 4 (r.active.map encodeClaim)
    ++ counted (r.stack.reverse.map encodeClaim)
    ++ mayBe 2 (r.testLink.map (fun t => u16 (secondsLeft t)))
    ++ mayBe 2 (r.testConsole.map (fun t => u16 (secondsLeft t)))

/-- R23: ZONE-STATUS; 255 names all zones. -/
def zoneStatus (env : Env) (sv : Services) (zone : Nat) : Answer :=
  if zone = 255 then .divided (allZones.map (zoneStatusItem env sv))
  else
    match zoneOf zone with
    | some z => .plain .ok (zoneStatusItem env sv z)
    | none => .refuse .range

/-! ## Streams (R90) -/

/-- R90: one slot of the STREAM-STATUS reply. -/
def slotStatusItem (sv : Services) (i : SlotId) : List Byte :=
  let sl := look sv.slots i
  u8 (slotStateCode sl.state) ++ mayBe 1 (sl.owner.map u8) ++ u16 sl.length ++ yesNo sl.retain
    ++ yesNo sl.loop ++ u16 sl.held.length ++ u16 sl.toReceive ++ u8 sl.guarantee ++ u8 sl.unfilled
    ++ u8 sl.prefill ++ u16 sl.position ++ u16 sl.passes ++ u16 (sl.starve.getD 0) ++ yesNo sl.wants
    ++ u16 sl.wantAmount ++ u16 (roomNow sv i)

/-- R90: STREAM-STATUS. -/
def streamStatus (sv : Services) : Answer :=
  .divided ((u16 sv.free ++ u16 (reserve sv.slots)) :: allSlots.map (slotStatusItem sv))

/-! ## Channels (R123) -/

/-- AT-CUE, GAP. -/
def conditionCode : StartCondition → Nat
  | .atCue => 0
  | .gap => 1

/-- A clip descriptor. -/
def encodeClip (d : ClipDesc) : List Byte :=
  u8 d.clipId ++ u16 d.length ++ u8 (conditionCode d.condition) ++ u32 d.latestStart

/-- R123: the queue; the head also has its slot and whether it is filled. -/
def encodeQueue (c : Channel) : List Byte :=
  match c.queue with
  | [] => counted []
  | head :: rest =>
    counted ((encodeClip head ++ slotField c.headSlot ++ yesNo c.headFilled) :: rest.map encodeClip)

/-- R123: one channel of a CHANNEL-STATUS reply. The time left of a resume-limit timer that stands is
sent as 0, and the live claim is a field that may be none, its values ON-ZONE 0 and WAITING 1 (DESIGN
CHOICE, log 54). -/
def channelStatusItem (env : Env) (sv : Services) (d : ChannelId) : List Byte :=
  let k := look env.cfg.channels d
  let c := look sv.channels d
  encodeChannel k ++ yesNo (inService k) ++ u8 (match c.mode with | .scripted => 0 | .standing => 1)
    ++ yesNo (match c.active with | some a => a.finishing | none => false)
    ++ mayBe 12 (c.active.map (fun a =>
        encodeClip a.desc ++ u8 a.slot.val ++ u8 a.state.code ++ u16 (a.resumeLeft.getD 0)))
    ++ encodeQueue c
    ++ mayBe 7 (c.lastOutcome.map (fun o =>
        u8 o.clipId ++ u8 (clipOutcomeCode o.outcome) ++ u32 o.clock ++ yesNo o.standing))
    ++ u8 (if c.liveFlag then 1 else 0)
    ++ mayBe 1 (match c.liveClaim with
        | .none => none
        | .onZone => some (u8 0)
        | .waiting => some (u8 1))

/-- R123: CHANNEL-STATUS; 255 names all channels. -/
def channelStatus (env : Env) (sv : Services) (channel : Nat) : Answer :=
  if channel = 255 then .divided (allChannels.map (channelStatusItem env sv))
  else
    match channelOf channel with
    | some d => .plain .ok (channelStatusItem env sv d)
    | none => .refuse .range

/-! ## Calls (R129, R146) -/

/-- A message, its kind and no more than the parameter its kind has (DESIGN CHOICE, log 62). -/
def encodeMessage : Message → List Byte
  | .noMessage => u8 0
  | .stream n => u8 1 ++ u16 n
  | .liveMic n => u8 2 ++ u8 n

/-- A call descriptor as posted. -/
def encodeCallDesc (d : CallDesc) : List Byte :=
  u8 d.callId ++ u8 d.priority ++ zoneMask d.targets ++ u8 (chimeCode d.chime)
    ++ encodeMessage d.message ++ u8 d.repetitions ++ u16 d.spacing ++ yesNo d.whole
    ++ u8 (if d.parked then 1 else 0) ++ u16 d.expiry

/-- R127: CHIME, BREAK, MESSAGE. -/
def phaseCode : CallPhase → Nat
  | .chime => 0
  | .pause => 1
  | .message => 2

/-- R146: one call of a CALL-STATUS reply. -/
def callStatusItem (sv : Services) (k : Call) : List Byte :=
  encodeCallDesc k.desc ++ u8 k.state.code ++ mayBe 1 (k.phase.map (fun p => u8 (phaseCode p)))
    ++ zoneMask (currentSet sv k.desc) ++ zoneMask k.unbroken ++ zoneMask k.heard
    ++ zoneMask (stackedSet sv k.desc) ++ u8 k.done ++ u8 k.desc.repetitions ++ slotField k.slot
    ++ yesNo k.filled ++ u32 k.posted ++ mayBe 4 (k.firstStart.map u32)
    ++ leBytes 3 (k.expiryLeft.getD 0) ++ leBytes 3 (k.spacingLeft.getD 0)
    ++ leBytes 3 (k.micLeft.getD 0)

/-- R146: the head of a CALL-STATUS reply. -/
def callStatusHead (sv : Services) : List Byte :=
  u32 sv.callClock ++ u8 sv.calls.length ++ u8 sv.finished.length

/-- R146: CALL-STATUS; 0 names all live calls. -/
def callStatus (sv : Services) (id : Nat) : Answer :=
  if id = 0 then
    .divided (callStatusHead sv :: (queueOrder sv.calls).map (callStatusItem sv))
  else
    match findCall id sv with
    | some k => .plain .ok (callStatusHead sv ++ callStatusItem sv k)
    | none => .refuse .absent

/-- R128: a finished record. -/
def encodeFinished (r : FinishedRecord) : List Byte :=
  u8 r.callId ++ zoneMask r.targets ++ zoneMask r.heard ++ u8 r.done ++ mayBe 4 (r.firstStart.map u32)
    ++ u32 r.endTime ++ u8 (callOutcomeCode r.outcome)

/-! ## Entrances (R162) -/

/-- R160: the window record; 23 bytes and the chime results. The grace outcome is a field that may be
none, its NONE 0; PART is 1 and SKIPPED 2; chime results none are one byte of zeros (DESIGN CHOICE, log
63). -/
def encodeWindow (w : WindowRecord) : List Byte :=
  u16 w.number ++ u32 w.opened ++ u8 (match w.openedBy with | .cue => 0 | .request => 1)
    ++ u16 w.windowTime ++ yesNo w.closeOnMusic ++ mayBe 4 (w.closed.map u32)
    ++ mayBe 1 (w.closeReason.map (fun r => u8 (match r with
        | .expired => 0 | .cue => 1 | .request => 2 | .music => 3 | .houseOpen => 4)))
    ++ mayBe 1 (match w.grace with
        | .pending => none
        | .notNeeded => some (u8 0)
        | .allClosed => some (u8 1)
        | .expired => some (u8 2)
        | .houseOpen => some (u8 3))
    ++ entranceMask w.leftOpen
    ++ mayBe 1 (w.chimes.map (fun l => counted (l.map (fun p =>
        u8 p.1.val ++ u8 (match p.2 with | .whole => 0 | .part => 1 | .skipped => 2)))))

/-- R162: one auditorium of an ENTRANCE-STATUS reply. An empty window record is 23 bytes of zeros behind
its presence byte (DESIGN CHOICE, log 63). -/
def houseStatusItem (env : Env) (sv : Services) (a : Aud) : List Byte :=
  let h := sv.houses.get a
  let k := env.cfg.auditoria.get a
  u8 (houseCode h.state)
    ++ leBytes 3 (if h.state = .admitting then h.windowLeft.getD 0 else 0)
    ++ u16 (if h.state = .closing then h.graceLeft.getD 0 else 0)
    ++ yesNo (chimeSounds (.window a) sv) ++ mayBe 23 (h.record.map encodeWindow)
    ++ u16 k.windowDefault ++ u8 k.grace ++ u8 k.relayDuck

/-- R162: one entrance of an ENTRANCE-STATUS reply. In the byte of the fault latch OPENED-WHILE-SEALED is
bit 0 and LEFT-OPEN bit 1, their places in R150's table (DESIGN CHOICE, log 67). -/
def entranceStatusItem (env : Env) (sv : Services) (e : EntranceId) : List Byte :=
  let x := look sv.entrances e
  encodeEntrance (look env.cfg.entrances e)
    ++ u8 (match x.sensed with | .unknown => 0 | .closed => 1 | .opened => 2)
    ++ u8 (match x.lamp with | .off => 0 | .red => 1 | .green => 2)
    ++ u8 ((if x.openedWhileSealed then 1 else 0) + (if x.leftOpen then 2 else 0)) ++ yesNo x.holding

/-- R162: ENTRANCE-STATUS; 0 names both auditoria. -/
def entranceStatus (env : Env) (sv : Services) (auditorium : Nat) : Answer :=
  let entrances := allEntrances.map (entranceStatusItem env sv)
  if auditorium = 0 then
    .divided (houseStatusItem env sv .one :: houseStatusItem env sv .two :: entrances)
  else
    match audOf auditorium with
    | some a => .plain .ok (houseStatusItem env sv a ++ entrances.flatten)
    | none => .refuse .range

/-! ## Cues (R54, R59, R63, R67) -/

/-- spec/03 section 3.5: an action, its kind and parameters. -/
def encodeAction : CueAction → List Byte
  | .startClip d => u8 0 ++ u8 d
  | .stopClip d => u8 1 ++ u8 d
  | .openAdmit n m => u8 2 ++ u16 n ++ yesNo m
  | .closeAdmit => u8 3
  | .releaseCall i => u8 4 ++ u8 i
  | .mark => u8 5

/-- R64: DONE, or REFUSED with its status. The status byte is sent after DONE too, as 0x00 (DESIGN
CHOICE, log 49). -/
def encodeOutcome (st : Status) : List Byte := (if st = .ok then 0 else 1) :: [st.code]

/-- R66: the fire record. -/
def encodeFire (f : FireRecord) : List Byte :=
  u16 f.number ++ u32 f.clock ++ u8 (originCode f.origin)
    ++ counted (f.outcomes.map (fun p => encodeAction p.1 ++ encodeOutcome p.2))

/-- R67: the lowest cue number above the position. -/
def nextEntry (c : CueFollower) : Option Nat :=
  (c.list.find? (fun e => decide (c.position < e.number))).map (·.number)

/-- R67: CUE-STATUS of an auditorium. An empty fire record is sent as 8 bytes of zeros, the width of a
record without outcomes (DESIGN CHOICE, log 49). -/
def cueStatusBytes (k : AuditoriumConfig) (c : CueFollower) : List Byte :=
  u32 c.clock ++ u8 (if c.running then 0 else 1) ++ u16 c.position
    ++ mayBe 2 ((nextEntry c).map u16) ++ u8 c.list.length ++ u8 (filterCode c.filter)
    ++ u16 k.lockout ++ u16 (c.lockout.getD 0) ++ yesNo c.firing.isSome ++ u8 c.waiting.length
    ++ mayBe 8 (c.fire.map encodeFire)

/-- R59: the capture log. -/
def captureBytes (c : CueFollower) : List Byte :=
  counted (c.log.map (fun r => u16 r.position ++ u32 r.clock ++ u8 (originCode r.origin)))

/-- R63: a cue entry and the number of entries. -/
def cueReadBytes (e : CueEntry) (entries : Nat) : List Byte :=
  u16 e.number ++ counted (e.actions.map encodeAction) ++ u8 entries

/-! ## Gaps (R79) -/

/-- A gap record. -/
def encodeGap (g : GapRecord) : List Byte := u32 g.start ++ u32 g.length

/-- R79: GAP-STATUS of an auditorium. -/
def gapStatusBytes (k : AuditoriumConfig) (q : QuietDetector) : List Byte :=
  s8 q.level ++ u8 (gapCode q.state) ++ mayBe 8 (q.current.map encodeGap) ++ u16 (q.openLeft.getD 0)
    ++ s8 k.quietThreshold ++ s8 k.soundThreshold ++ u16 k.openTime
    ++ mayBe 8 (q.lastGap.map encodeGap) ++ mayBe 8 (q.longestGap.map encodeGap)

/-! ## Modules (R46) -/

/-- The five word-3 conditions as a set. -/
def wordFaultBits (f : WordFaults) : Nat :=
  (if f.overcurrent then 1 else 0) + (if f.openLoop then 2 else 0) + (if f.overtemp then 4 else 0)
    + (if f.supply then 8 else 0) + (if f.internal then 16 else 0)

/-- R26: the fault latch as a set: the word-3 conditions in the places word 3 gives them, LOOP-SHORT
in bit 5 and LOOP-OPEN in bit 6 (DESIGN CHOICE, log 57). -/
def latchBits (m : ModuleRecord) : Nat :=
  wordFaultBits m.latch + (if m.loopShort then 32 else 0) + (if m.loopOpen then 64 else 0)

/-- R46: the value of a module's protective queue entry. -/
def protectiveEntry (sup : Supervisor) (m : ModuleId) : Option Bool :=
  (sup.protective.find? (fun p => p.1 == m)).map (·.2)

/-- R30: the loop zone of lowest index that lists a module. -/
def loopZoneOf (cfg : Configuration) (m : ModuleId) : Option ZoneId :=
  allZones.find? (fun z =>
    isLoopKind (look cfg.zones z).kind && (look cfg.zones z).modules.contains m)

/-- R26: poll enable of a module. -/
def pollEnabled (cfg : Configuration) (m : ModuleId) : Bool :=
  cfg.supervision.enables.getLsbD (m.val + 1)

/-- R46: one module of a MODULE-STATUS reply. The value of its protective queue entry is sent as the bus
word it is, in two bytes (DESIGN CHOICE, log 49). -/
def moduleStatusItem (cfg : Configuration) (sup : Supervisor) (m : ModuleId) : List Byte :=
  let r := look sup.modules m
  u8 (moduleStateCode r.state) ++ mayBe 2 (r.identity.map w16)
    ++ mayBe 2 (r.caps.map (fun c => yesNo c.thermal ++ yesNo c.supply))
    ++ u8 (match r.outputEnabled with | none => 0 | some true => 1 | some false => 2)
    ++ mayBe 2 (r.resistance.map u16) ++ mayBe 2 (r.temperature.map s16) ++ u8 (latchBits r)
    ++ u8 (wordFaultBits r.carried) ++ u8 r.run ++ yesNo r.tripped ++ yesNo (pollEnabled cfg m)
    ++ mayBe 2 ((protectiveEntry sup m).map (fun v => u16 (if v then 1 else 0)))
    ++ mayBe 1 ((loopZoneOf cfg m).map (fun z => u8 z.val))

/-- R46: what a MODULE-STATUS reply gives once. A machine that waits for the configuration in force
shows IDLE (log 26). The module and the step under visit are one field that may be none, of two bytes
(DESIGN CHOICE, log 59). -/
def pollStatusItem (cfg : Configuration) (sup : Supervisor) : List Byte :=
  let (state, visit) : Nat × Option (List Byte) := match sup.poll with
    | .atStart => (0, none)
    | .idle => (0, none)
    | .visit v => (1, some (u8 (moduleNumber v.module_) ++ u8 v.step))
    | .gap _ => (2, none)
  u8 state ++ mayBe 2 visit ++ u16 cfg.supervision.gap ++ u8 cfg.supervision.tripLimit
    ++ u8 cfg.supervision.warnTemp ++ u8 cfg.supervision.tripTemp ++ yesNo sup.pass.isSome

/-- R46: MODULE-STATUS; 255 names all modules. -/
def moduleStatus (cfg : Configuration) (sup : Supervisor) (n : Nat) : Answer :=
  if n = 255 then .divided (allModules.map (moduleStatusItem cfg sup) ++ [pollStatusItem cfg sup])
  else
    match moduleOf n with
    | some m => .plain .ok (moduleStatusItem cfg sup m ++ pollStatusItem cfg sup)
    | none => .refuse .range

/-! ## IDENT (R178) -/

/-- R178: what IDENT answers. -/
def identBytes (c : PartControl) (l : LinkPort) : List Byte :=
  u16 0x4824 ++ u8 Config.revision ++ u8 (if c.running then 1 else 0)
    ++ u8 (match c.strap with | .wait => 0 | .self => 1) ++ u8 (if c.fastLink then 2 else 1)
    ++ u8 (causeCode c.cause) ++ yesNo l.standalone ++ u8 c.cfg.link.silence

end Sys2Proof.Machine
end

