-- ==== Sys2Proof/Machine/Terminal.lean ====
section
/-! DEFINITION. How the console shows a result (R181, R183, R184, R185). -/

namespace Sys2Proof.Machine

/-! ## The characters the console sends -/

/-- The characters of a word. -/
def asciiOf (t : String) : List Byte := t.toList.map (fun c => BitVec.ofNat 8 c.toNat)

/-- R184: a number in decimal digits, a minus before a negative one. -/
def decimalOf (n : Int) : List Byte :=
  let digits := (Nat.toDigits 10 n.natAbs).map (fun c => BitVec.ofNat 8 c.toNat)
  if n < 0 then 0x2D :: digits else digits

/-- A hexadecimal digit, letters in capitals (log 40). -/
def hexDigit (n : Nat) : Byte := BitVec.ofNat 8 (if n < 10 then 0x30 + n else 0x37 + n)

/-- R184: a word as 0x and four hexadecimal digits. -/
def hexOf (w : Word16) : List Byte :=
  [0x30, 0x78, hexDigit (w.toNat / 4096 % 16), hexDigit (w.toNat / 256 % 16),
   hexDigit (w.toNat / 16 % 16), hexDigit (w.toNat % 16)]

/-- The characters of a field. -/
def TextField.chars : TextField → List Byte
  | .text t => asciiOf t
  | .number n => decimalOf n
  | .hex w => hexOf w

/-- R181: a line ends with carriage return and line feed. -/
def lineEndChars : List Byte := [0x0D, 0x0A]

/-- R184: fields separated by single spaces. -/
def fieldChars : List TextField → List Byte
  | [] => []
  | [f] => f.chars
  | f :: rest => f.chars ++ 0x20 :: fieldChars rest

/-- R181, R182, R184: the characters of a piece of text: the banner line `HX24 console`, the prompt
`>` and space, an echo, backspace, space, backspace, `$`, the end of a line, a result line whole. -/
def ConsoleText.chars : ConsoleText → List Byte
  | .banner => asciiOf "HX24 console" ++ lineEndChars
  | .prompt => [0x3E, 0x20]
  | .echo c => [c]
  | .rubOut => [0x08, 0x20, 0x08]
  | .dollar => [0x24]
  | .lineEnd => lineEndChars
  | .line fields => fieldChars fields ++ lineEndChars

/-- What the terminal has received since the reset (log 16). -/
def Console.terminal (c : Console) : List Byte := c.sent.flatMap ConsoleText.chars

/-! ## Showing a result -/

/-- The console sends text. -/
def Console.say (c : Console) (texts : List ConsoleText) : Console := { c with sent := c.sent ++ texts }

/-- R185: a result's lines and a prompt; the console is back in EDITING with the line empty. -/
def Console.answer (c : Console) (lines : List (List TextField)) : Console :=
  { c.say ((lines.map ConsoleText.line).append [ConsoleText.prompt]) with state := .editing, line := [] }

/-- The console shows a result. -/
def State.show (s : State) (lines : List (List TextField)) : State :=
  { s with console := s.console.answer lines }

/-- R183: a refusal is its status name alone. -/
def State.showStatus (s : State) (st : Status) : State := s.show [[.text st.text]]

end Sys2Proof.Machine
end

