-- ==== Sys2Proof/Machine/Follower.lean ====
section
/-! DEFINITION. The cue followers (spec/03): advances, jumps, the capture log, the cue list and the
firing of its entries. -/

namespace Sys2Proof.Machine

/-- A cue follower changed. -/
def State.updCue (s : State) (a : Aud) (f : CueFollower → CueFollower) : State :=
  { s with cue := updTwo s.cue a f }

/-- R58: a capture record appended, the oldest removed when there are 16. -/
def appendCapture (r : Capture) (l : List Capture) : List Capture :=
  (if 16 ≤ l.length then l.drop (l.length - 15) else l) ++ [r]

/-- R53: the origin of an advance. -/
def CueAsker.origin : CueAsker → CueOrigin
  | .line => .line
  | .link _ => .link
  | .console => .console

/-! ## Actions (R64, R65) -/

/-- The status a service's answer gives an action, after the reports it caused have been taken. -/
def State.outcome (s : State) (r : Answer × Services) : Status × State :=
  (r.1.status, { s with svc := r.2 }.settled)

/-- R65: the cue follower's own check before a clip action. -/
def channelOfCue (s : State) (a : Aud) (channel : Nat) : Bool :=
  match channelOf channel with
  | some d => (look s.control.cfg.channels d).auditorium == some a
  | none => false

/-- R65: one action goes to its owner. -/
def doAction (a : Aud) (act : CueAction) (s : State) : Status × State :=
  match act with
  | .startClip d =>
    if channelOfCue s a d then s.outcome (clipStart s.env d s.svc) else (.range, s)
  | .stopClip d =>
    if channelOfCue s a d then s.outcome (clipStop s.env d s.svc) else (.range, s)
  | .openAdmit n m =>
    let (st, sv) := admitOpen s.env a n m .cue s.svc
    (st, { s with svc := sv }.settled)
  | .closeAdmit =>
    let (st, sv) := admitClose s.env a .cue s.svc
    (st, { s with svc := sv }.settled)
  | .releaseCall id => s.outcome (callRelease id s.svc)
  | .mark => (.ok, s)

/-! ## Firing (R64, R66) -/

/-- R64: an action's outcome joins the firing's, and the action leaves what is to be handed on. -/
def Firing.record (f : Firing) (act : CueAction) (st : Status) : Firing :=
  { f with outcomes := f.outcomes ++ [(act, st)], rest := f.rest.tail }

/-- R64: hands one action of the firing on and takes its outcome. -/
def handOn (a : Aud) (s : State) (act : CueAction) : State :=
  let (st, s1) := doAction a act s
  s1.updCue a (fun c => { c with firing := c.firing.map (fun f => f.record act st) })

/-- R184: an action's outcome as the console shows it. -/
def outcomeText (st : Status) : TextField :=
  .text (if st = .ok then "DONE" else "REFUSED-" ++ st.text)

/-- R54, R55: the asker of an advance gets its result: the position, the cue number fired (0 for
none) and the outcomes. -/
def answerAdvance (asker : CueAsker) (position number : Nat) (outcomes : List ActionOutcome)
    (s : State) : State :=
  match asker with
  | .line => s
  | .link tag =>
    s.reply tag .cueGo (.plain .ok (u16 position ++ u16 number
      ++ (if number = 0 then [] else counted (outcomes.map (fun p => encodeOutcome p.2)))))
  | .console =>
    s.show [[.text "OK", .number position, .number number]
      ++ outcomes.map (fun p => outcomeText p.2)]

/-- R66: the last outcome has been taken: the fire record, the CUE notice, the answer. -/
def finishFiring (a : Aud) (s : State) : State :=
  let c := s.cue.get a
  match c.firing with
  | none => s
  | some f =>
    let s1 := s.updCue a (fun c =>
      { c with
        firing := none
        fire := some { number := f.number, clock := f.clock, origin := f.asker.origin
                       outcomes := f.outcomes } })
    answerAdvance f.asker c.position f.number f.outcomes (s1.serve (fun env sv => raise env .cue sv))

/-- R64: carries out what is left of the firing in progress, in list order. -/
def fireRest (a : Aud) (s : State) : State :=
  match (s.cue.get a).firing with
  | none => s
  | some f => finishFiring a (f.rest.foldl (handOn a) s)

/-! ## Advances and jumps (R53, R56, R57) -/

/-- R53: an advance is taken. -/
def takeAdvance (a : Aud) (asker : CueAsker) (s : State) : State :=
  let c := s.cue.get a
  let p := holdAt 65535 c.position
  let s1 := s.updCue a (fun c =>
    { c with
      position := p
      log := appendCapture { position := p, clock := c.clock, origin := asker.origin } c.log })
  match (if p = c.position then none else c.list.find? (fun e => e.number == p)) with
  | none => answerAdvance asker p 0 [] s1
  | some e =>
    fireRest a (s1.updCue a (fun c =>
      { c with
        firing := some { number := e.number, clock := c.clock, asker := asker, outcomes := []
                         rest := e.actions } }))

/-- R56: the entries a jump to `p` skips. -/
def skipped (c : CueFollower) (p : Nat) : Nat :=
  (c.list.filter (fun e => decide (c.position < e.number) && decide (e.number < p))).length

/-- R56: a jump is taken. -/
def takeJump (a : Aud) (tag : Byte) (p : Nat) (s : State) : State :=
  let n := skipped (s.cue.get a) p
  let s1 := s.updCue a (fun c =>
    { c with
      position := p, log := appendCapture { position := p, clock := c.clock, origin := .jump } c.log })
  s1.reply tag .cueSet (.plain .ok (u16 p ++ u8 n))

/-- R57: an advance or jump is taken. -/
def takeCue (a : Aud) (w : WaitingCue) (s : State) : State :=
  match w with
  | .advance asker => takeAdvance a asker s
  | .jump tag p => takeJump a tag p s

/-- R57, R68: a waiting or refused advance or jump is answered with a status; a press of the line is
dropped. -/
def refuseCue (w : WaitingCue) (st : Status) (s : State) : State :=
  match w with
  | .advance .line => s
  | .advance (.link tag) => s.reply tag .cueGo (.refuse st)
  | .advance .console => s.showStatus st
  | .jump tag _ => s.reply tag .cueSet (.refuse st)

/-- R57: takes up to `n` of those that wait, oldest first, while no firing is in progress. -/
def drainCues : Nat → Aud → State → State
  | 0, _, s => s
  | n + 1, a, s =>
    let c := s.cue.get a
    match c.firing, c.waiting with
    | none, w :: rest => drainCues n a (takeCue a w (s.updCue a (fun c => { c with waiting := rest })))
    | _, _ => s

/-- R57: an advance or jump reaches the cue follower. -/
def arriveCue (a : Aud) (w : WaitingCue) (s : State) : State :=
  let c := s.cue.get a
  if c.firing.isSome || !c.waiting.isEmpty then
    if 8 ≤ c.waiting.length then refuseCue w .full s
    else s.updCue a (fun c => { c with waiting := c.waiting ++ [w] })
  else takeCue a w s

/-- R57, R64: a firing found in progress goes on, then those that wait are taken. -/
def resumeFiring (a : Aud) (s : State) : State := drainCues 8 a (fireRest a s)

/-! ## The cue list (R60, R61, R62) -/

/-- R60: the checks of one action. -/
def actionLegal (s : State) (a : Aud) : CueAction → Bool
  | .startClip d => channelOfCue s a d
  | .stopClip d => channelOfCue s a d
  | .openAdmit n _ => decide (n = 0) || between 5 300 n
  | .closeAdmit => true
  | .releaseCall i => between 1 255 i
  | .mark => true

/-- R60: every action is of a known kind. -/
def knownActions : List (Option CueAction) → Option (List CueAction)
  | [] => some []
  | none :: _ => none
  | some x :: rest => (knownActions rest).map (x :: ·)

/-- R61: an entry in its place in the list. -/
def insertEntry (e : CueEntry) : List CueEntry → List CueEntry
  | [] => [e]
  | x :: rest =>
    if x.number < e.number then x :: insertEntry e rest
    else if x.number = e.number then e :: rest
    else e :: x :: rest

/-! ## The show clock and entry to CONFIG (R48, R68) -/

/-- R48: "house closed" with its reset flag. -/
def CueFollower.houseClosed (resetFlag : Bool) (c : CueFollower) : CueFollower :=
  { c with clock := if resetFlag then 0 else c.clock, running := true }

/-- R48: "house opened". -/
def CueFollower.houseOpened (c : CueFollower) : CueFollower := { c with running := false }

/-- R68: the cue follower's teardown. -/
def cueTeardown (a : Aud) (s : State) : State :=
  let waiting := (s.cue.get a).waiting
  let s1 := s.updCue a (fun c =>
    { c with
      filter := .unsettled, sample := none, lockout := none, waiting := []
      firing := c.firing.map (fun f =>
        { f with outcomes := f.outcomes ++ f.rest.map (fun x => (x, Status.state)), rest := [] }) })
  finishFiring a (waiting.foldl (fun acc w => refuseCue w .state acc) s1)

end Sys2Proof.Machine
end

