-- ==== Sys2Proof/Machine/Supervisor.lean ====
section
/-! DEFINITION. The loop supervisor (spec/02): drive states, the bus arbiter, the poll machine and its
visits, trips, protective writes and pass-throughs. -/

namespace Sys2Proof.Machine

/-- The loop supervisor replaced. -/
def State.setSup (s : State) (sup : Supervisor) : State := { s with sup := sup }

/-- A module's record changed. -/
def State.updModule (s : State) (m : ModuleId) (f : ModuleRecord → ModuleRecord) : State :=
  s.setSup { s.sup with modules := put s.sup.modules m (f (look s.sup.modules m)) }

/-! ## Drive state and backoff (R40, R41, R43) -/

/-- spec/02 section 2.7. -/
inductive ModuleClass where
  | healthy | unknown | bad
  deriving DecidableEq, Repr

/-- spec/02 section 2.7: the class of a module. -/
def classOf (r : ModuleRecord) : ModuleClass :=
  if r.tripped then .bad
  else
    match r.state with
    | .good => .healthy
    | .warn => .healthy
    | .unknown => .unknown
    | .absent => .bad
    | .notReady => .bad
    | .fault => .bad

/-- R40: the drive state from the classes of a zone's modules. -/
def driveOf (cs : List ModuleClass) : DriveState :=
  if cs.isEmpty then .unknown
  else if cs.all (fun c => c == .healthy) then .good
  else if cs.all (fun c => c == .bad) then .failed
  else if cs.any (fun c => c == .bad) then .degraded
  else .unknown

/-- R40: the drive state the module records give a zone. -/
def resolvedDrive (s : State) (z : ZoneId) : DriveState :=
  driveOf ((look s.control.cfg.zones z).modules.map (fun m => classOf (look s.sup.modules m)))

/-- R41: the backoff the module records give a zone: 6 dB or none. -/
def resolvedBackoff (s : State) (z : ZoneId) : Bool :=
  (look s.control.cfg.zones z).modules.any (fun m => (look s.sup.modules m).state == .warn)

/-- R40, R43: resolves a loop zone; a changed drive state raises ZONE. -/
def resolveZone (s : State) (z : ZoneId) : State :=
  if isLoopKind (look s.control.cfg.zones z).kind then
    let drive := resolvedDrive s z
    let before := (look s.svc.zones z).drive
    let s1 := { s with svc := writeDrive z drive (resolvedBackoff s z) s.svc }
    if drive = before then s1 else s1.serve (fun env sv => raise env .zone sv)
  else s

/-- R40: resolves every loop zone that lists a module. -/
def resolveModule (s : State) (m : ModuleId) : State :=
  allZones.foldl (fun acc z =>
    if (look acc.control.cfg.zones z).modules.contains m then resolveZone acc z else acc) s

/-- R43: MODULE is raised on a state changing to FAULT or ABSENT, and on a trip. -/
def noticeModule (was now : ModuleState) (trips : Bool) (s : State) : State :=
  if ((now = .fault ∨ now = .absent) ∧ was ≠ now) ∨ trips then
    s.serve (fun env sv => raise env .module_ sv)
  else s

/-! ## Word 3 (R29) -/

/-- R29: the conditions of word 3. -/
def wordFaults (w : Word16) : WordFaults :=
  { overcurrent := w.getLsbD 0, openLoop := w.getLsbD 1, overtemp := w.getLsbD 2
    supply := w.getLsbD 3, internal := w.getLsbD 4 || (w >>> 5) != 0 }

/-- The union of two sets of conditions. -/
def WordFaults.union (a b : WordFaults) : WordFaults :=
  { overcurrent := a.overcurrent || b.overcurrent, openLoop := a.openLoop || b.openLoop
    overtemp := a.overtemp || b.overtemp, supply := a.supply || b.supply
    internal := a.internal || b.internal }

/-- A set of conditions with a member. -/
def WordFaults.some (a : WordFaults) : Bool :=
  a.overcurrent || a.openLoop || a.overtemp || a.supply || a.internal

/-! ## The protective queue (R33) -/

/-- R33: queues a protective write; a module's entry keeps its place and takes the value. -/
def queueProtective (m : ModuleId) (value : Bool) (q : List (ModuleId × Bool)) :
    List (ModuleId × Bool) :=
  if q.any (fun p => p.1 == m) then q.map (fun p => if p.1 = m then (m, value) else p)
  else q ++ [(m, value)]

/-- R33: queues a protective write of word 8. -/
def State.protect (s : State) (m : ModuleId) (value : Bool) : State :=
  s.setSup { s.sup with protective := queueProtective m value s.sup.protective }

/-! ## The arbiter (R36, R39) -/

/-- The word each step of a visit reads (R28-R31). -/
def stepWord : Nat → Nat
  | 1 => 0
  | 2 => 2
  | 3 => 1
  | 4 => 3
  | 5 => 4
  | _ => 5

/-- R36: the poll machine's next transaction, in VISIT. -/
def grantPoll (s : State) : State :=
  match s.sup.poll with
  | .visit v =>
    s.setSup { s.sup with
      bus := some { user := .poll, module_ := v.module_, word := stepWord v.step, value := none } }
  | _ => s

/-- R39: a pass-through that must not reach the module. -/
def passBarred (s : State) (p : PassThrough) : Bool :=
  p.value.isSome && p.word == 8 && (look s.sup.modules p.module_).tripped

/-- R38, R39: the pass-through ends: the reply to a link request, or what the console shows. -/
def answerPass (p : PassThrough) (st : Status) (value : Option Word16) (s : State) : State :=
  let kind := if p.value.isSome then RequestKind.ampWrite else RequestKind.ampRead
  match p.asker, value with
  | .link tag, some w => s.reply tag kind (.plain st (w16 w))
  | .link tag, none => s.reply tag kind (.plain st [])
  | .console, some w => s.show [[.text st.text, .hex w]]
  | .console, none => s.showStatus st

/-- R36: grants the bus when it is idle: the protective queue, then the pass-through, then the poll
machine. -/
def grantBus (s : State) : State :=
  match s.sup.bus, s.sup.protective, s.sup.pass with
  | some _, _, _ => s
  | none, (m, v) :: rest, _ =>
    s.setSup { s.sup with
      protective := rest
      bus := some { user := .protective, module_ := m, word := 8
                    value := some (if v then 1 else 0) } }
  | none, [], some p =>
    if passBarred s p then
      grantPoll (answerPass p .state none (s.setSup { s.sup with pass := none }))
    else
      s.setSup { s.sup with
        bus := some { user := .passThrough, module_ := p.module_, word := p.word, value := p.value } }
  | none, [], none => grantPoll s

/-! ## The poll machine (R27) -/

/-- R27: a module's visit begins at step 1. -/
def visitOf (m : ModuleId) : PollState :=
  .visit { module_ := m, step := 1, faulty := false, warm := false, dropped := false }

/-- R27: a round begins, or the machine enters IDLE. -/
def beginRound (s : State) : State :=
  match allModules.find? (pollEnabled s.control.cfg) with
  | some m => s.setSup { s.sup with poll := visitOf m }
  | none => s.setSup { s.sup with poll := .idle }

/-- R27: what follows a visit of `m`: the next higher enabled module, the gap, or IDLE. -/
def nextVisit (m : ModuleId) (s : State) : State :=
  match allModules.find? (fun k => decide (m < k) && pollEnabled s.control.cfg k) with
  | some k => s.setSup { s.sup with poll := visitOf k }
  | none =>
    if allModules.any (pollEnabled s.control.cfg) then s.setSup { s.sup with poll := .gap 0 }
    else s.setSup { s.sup with poll := .idle }

/-- R28, R32, R33: a module is found ABSENT. -/
def makeAbsent (m : ModuleId) (s : State) : State :=
  let was := (look s.sup.modules m).state
  let s1 := resolveModule (s.updModule m (fun r => { r with state := .absent, caps := none })) m
  noticeModule was .absent false s1

/-- The visit moves to a step, with its marks. -/
def State.setVisit (s : State) (v : Visit) : State := s.setSup { s.sup with poll := .visit v }

/-- R29: the step after step 2: step 3 is made only while the capabilities are not cached, as they
stand at the end of step 2 (DESIGN CHOICE, log 48). -/
def stepAfterState (r : ModuleRecord) : Nat := if r.caps.isNone then 3 else 4

/-- R32: what step 7 makes of a visit. -/
def visitResult (v : Visit) : ModuleState :=
  if v.faulty then .fault else if v.warm then .warn else .good

/-- R32: the module's record after step 7, and whether it trips. -/
def resolveRecord (limit : Nat) (v : Visit) (r : ModuleRecord) : ModuleRecord × Bool :=
  let result := visitResult v
  if result = .fault then
    let trips := decide (limit ≤ r.run + 1) && !r.tripped
    ({ r with state := .fault, run := min limit (r.run + 1), tripped := r.tripped || trips }, trips)
  else ({ r with state := result, run := 0 }, false)

/-- R32: step 7 resolves the visit, then the poll machine goes on. The ZONE of a zone it resolves is
raised before its MODULE (DESIGN CHOICE, log 60). -/
def resolveVisit (v : Visit) (s : State) : State :=
  let m := v.module_
  let before := look s.sup.modules m
  let (after, trips) := resolveRecord s.control.cfg.supervision.tripLimit v before
  let s1 := s.updModule m (fun _ => after)
  let s2 := if trips then s1.protect m false else s1
  nextVisit m (noticeModule before.state after.state trips (resolveModule s2 m))

/-- R31: the step after step 5: step 6 with thermal sense, else the resolution. Whether a step is made
is decided at the end of the step before it, on the capabilities cached then (DESIGN CHOICE, log 48).
-/
def afterResistance (v : Visit) (s : State) : State :=
  match (look s.sup.modules v.module_).caps with
  | some c => if c.thermal then s.setVisit { v with step := 6 } else resolveVisit v s
  | none => resolveVisit v s

/-- R28 step 1: the identity. -/
def visitIdentity (v : Visit) (w : Word16) (s : State) : State :=
  let m := v.module_
  if w = 0xFFFF then nextVisit m (makeAbsent m s)
  else
    let r := look s.sup.modules m
    let exchanged := match r.identity with | some old => decide (old ≠ w) | none => false
    let s1 := s.updModule m (fun r =>
      if exchanged then { r with identity := some w, caps := none, run := 0, tripped := false }
      else { r with identity := some w })
    let s2 := if exchanged then resolveModule s1 m else s1
    s2.setVisit { v with step := 2 }

/-- R28 step 2: the state word. -/
def visitState (v : Visit) (w : Word16) (s : State) : State :=
  let m := v.module_
  let s1 := s.updModule m (fun r => { r with outputEnabled := some (w.getLsbD 1) })
  let r := look s1.sup.modules m
  let s2 := if r.tripped && w.getLsbD 1 then s1.protect m false else s1
  if w.getLsbD 0 then s2.setVisit { v with step := stepAfterState r }
  else nextVisit m (resolveModule (s2.updModule m (fun r => { r with state := .notReady })) m)

/-- R29, R31 step 3: the capabilities. -/
def visitCaps (v : Visit) (w : Word16) (s : State) : State :=
  (s.updModule v.module_ (fun r =>
    { r with
      caps := some { thermal := w.getLsbD 0, supply := w.getLsbD 1 }
      temperature := if w.getLsbD 0 then r.temperature else none })).setVisit { v with step := 4 }

/-- R29 step 4: the latched faults, and the carried faults with them. -/
def visitFaults (v : Visit) (w : Word16) (s : State) : State :=
  let m := v.module_
  let r := look s.sup.modules m
  let faulty := ((wordFaults w).union r.carried).some
  (s.updModule m (fun r =>
    { r with latch := r.latch.union (wordFaults w), carried := WordFaults.none })).setVisit
    { v with step := 5, faulty := v.faulty || faulty }

/-- R30 step 5: the loop resistance against the window of the loop zone that lists the module. -/
def visitResistance (v : Visit) (w : Word16) (s : State) : State :=
  let m := v.module_
  let n := w.toNat
  let (short, opened) := match loopZoneOf s.control.cfg m with
    | some z =>
      let c := look s.control.cfg.zones z
      (decide (n < c.windowLow), decide (c.windowHigh < n))
    | none => (false, false)
  let s1 := s.updModule m (fun r =>
    { r with
      resistance := some n, loopShort := r.loopShort || short, loopOpen := r.loopOpen || opened })
  afterResistance { v with faulty := v.faulty || short || opened } s1

/-- R31 step 6: the temperature. -/
def visitTemperature (v : Visit) (w : Word16) (s : State) : State :=
  let t := w.toInt
  let k := s.control.cfg.supervision
  let hot := decide ((k.tripTemp : Int) ≤ t)
  let warm := decide ((k.warnTemp : Int) ≤ t) && !hot
  let s1 := s.updModule v.module_ (fun r =>
    { r with temperature := some t, latch := { r.latch with overtemp := r.latch.overtemp || hot } })
  resolveVisit { v with faulty := v.faulty || hot, warm := v.warm || warm } s1

/-- R28-R31: the answer to the step a visit has reached. -/
def visitAnswer (v : Visit) (w : Word16) (s : State) : State :=
  match v.step with
  | 1 => visitIdentity v w s
  | 2 => visitState v w s
  | 3 => visitCaps v w s
  | 4 => visitFaults v w s
  | 5 => visitResistance v w s
  | _ => visitTemperature v w s

/-! ## The end of a transaction (R25) -/

/-- R27, R28, R44: the poll machine takes its transaction's end; a dropped visit discards it. -/
def pollEnd (answer : Option Word16) (s : State) : State :=
  match s.sup.poll with
  | .visit v =>
    if v.dropped then nextVisit v.module_ s
    else
      match answer with
      | some w => visitAnswer v w s
      | none => nextVisit v.module_ (makeAbsent v.module_ s)
  | _ => s

/-- R38: a word 3 read by a pass-through adds to the latch and to the carried faults. -/
def carryFaults (m : ModuleId) (w : Word16) (s : State) : State :=
  s.updModule m (fun r =>
    { r with latch := r.latch.union (wordFaults w), carried := r.carried.union (wordFaults w) })

/-- R38, R39: the pending pass-through takes its transaction's end. -/
def passEnd (answer : Option Word16) (s : State) : State :=
  match s.sup.pass with
  | none => s
  | some p =>
    let s1 := s.setSup { s.sup with pass := none }
    match answer, p.value with
    | none, _ => answerPass p .noAnswer none s1
    | some _, some _ => answerPass p .ok none s1
    | some w, none =>
      answerPass p .ok (some w) (if p.word = 3 then carryFaults p.module_ w s1 else s1)

/-- R33: a protective write's end. -/
def protectiveEnd (m : ModuleId) (answer : Option Word16) (s : State) : State :=
  match answer with
  | some _ => s
  | none => makeAbsent m s

/-- R25, R36: the transaction in flight ends; its user takes the result, and the arbiter grants the
next. Nothing when none is in flight. -/
def busEnd (answer : Option Word16) (s : State) : State :=
  match s.sup.bus with
  | none => s
  | some t =>
    let s1 := s.setSup { s.sup with bus := none }
    grantBus
      (match t.user with
       | .protective => protectiveEnd t.module_ answer s1
       | .passThrough => passEnd answer s1
       | .poll => pollEnd answer s1)

/-! ## Polling set (R44, R45) -/

/-- R44: a module whose poll enable goes from yes to no. A visit of it lasts to the end of the
transaction in flight where that is its own; where the bus carries a pass-through or a protective write
in its place, the visit ends at once (DESIGN CHOICE, log 35). -/
def dropModule (s : State) (m : ModuleId) : State :=
  let s1 := resolveModule
    (s.updModule m (fun r => { r with state := .unknown, caps := none, run := 0 })) m
  match s1.sup.poll with
  | .visit v =>
    if v.module_ = m then
      if (s1.sup.bus.map (·.user)) = some .poll then s1.setVisit { v with dropped := true }
      else nextVisit m s1
    else s1
  | _ => s1

/-- R27, R44: what new enables and a new gap do to a machine in IDLE or GAP. -/
def wakePoll (s : State) : State :=
  match s.sup.poll with
  | .idle => beginRound s
  | .gap elapsed => if s.control.cfg.supervision.gap ≤ elapsed then beginRound s else s
  | _ => s

/-- R44: writes the poll enables and the gap (in milliseconds). -/
def applyPoll (enables : Word16) (gap : Nat) (s : State) : State :=
  let old := s.control.cfg
  let cfg := { old with supervision := { old.supervision with enables := enables, gap := gap } }
  let dropped := allModules.filter (fun m => pollEnabled old m && !pollEnabled cfg m)
  grantBus (wakePoll (dropped.foldl dropModule (s.setCfg cfg)))

/-- R45: fault runs above a new trip limit are lowered to it. -/
def lowerRuns (limit : Nat) (s : State) : State :=
  s.setSup { s.sup with modules := s.sup.modules.map (fun r => { r with run := min limit r.run }) }

/-- R45: the supervisor takes a SUPERVISION record. -/
def takeSupervision (c : SupervisionConfig) (s : State) : State :=
  let cfg := s.control.cfg
  let s1 := s.setCfg { cfg with supervision :=
    { cfg.supervision with tripLimit := c.tripLimit, warnTemp := c.warnTemp, tripTemp := c.tripTemp } }
  applyPoll c.enables c.gap (lowerRuns c.tripLimit s1)

end Sys2Proof.Machine
end

