-- ==== Sys2Proof/Machine/Control.lean ====
section
/-! DEFINITION. Part control (spec/11): the checks of configuration records and how their owners take
them, the entries to RUN and CONFIG, the settings image and its save and load, and the resets. -/

namespace Sys2Proof.Machine

/-! ## Record checks (R186) -/

/-- A whole number of tens. -/
def inTens (n : Nat) : Bool := n % 10 == 0

/-- A signed range. -/
def betweenInt (lo hi n : Int) : Bool := decide (lo ≤ n) && decide (n ≤ hi)

/-- R186: the range checks of one record alone. -/
def recordLegal : ConfigRecord → Bool
  | .zone c =>
    decide (c.modules.length ≤ 2) && decide c.modules.Nodup && decide (c.windowLow ≤ c.windowHigh)
      && decide (c.windowHigh ≤ 65535) && decide (c.level ≤ 60)
  | .entrance c => decide (c.adjacent.length ≤ 4) && decide c.adjacent.Nodup
  | .channel c => decide (c.duck ≤ 30) && decide (c.resumeLimit ≤ 30)
  | .auditorium c =>
    decide (c.lockout ≤ 2000) && betweenInt (-70) (-20) c.quietThreshold
      && betweenInt (c.quietThreshold + 3) (-10) c.soundThreshold
      && between 200 5000 c.openTime && inTens c.openTime && between 5 300 c.windowDefault
      && between 5 60 c.grace && decide (c.relayDuck ≤ 30)
  | .supervision c =>
    pollMaskLegal c.enables && between 10 2550 c.gap && inTens c.gap && between 1 7 c.tripLimit
      && between 40 110 c.warnTemp && between 45 125 c.tripTemp && decide (c.warnTemp + 5 ≤ c.tripTemp)
  | .link c => decide (c.silence ≤ 60) && kindSetLegal c.enables

/-- R186: the record is of the type its index names. -/
def indexTakes (index : Nat) : ConfigRecord → Bool
  | .zone _ => decide (index < 20)
  | .entrance _ => between 20 31 index
  | .channel _ => between 32 35 index
  | .auditorium _ => between 36 37 index
  | .supervision _ => decide (index = 38)
  | .link _ => decide (index = 39)

/-! ## Owners take a record (R186) -/

/-- R1, R40: the router takes a ZONE record, then the supervisor resolves the zone and every zone
that lists a module of the old or the new record. For ZONE (R43) the former drive state is the UNKNOWN
that a change of kind has written, so a zone that was GOOD and resolves to UNKNOWN raises none (DESIGN
CHOICE, log 46). -/
def takeZone (z : ZoneId) (c : ZoneConfig) (s : State) : State :=
  let old := look s.control.cfg.zones z
  let s1 := s.setCfg { s.control.cfg with zones := put s.control.cfg.zones z c }
  let s2 := { s1 with svc := takeZoneKind z old.kind c.kind s1.svc }
  (old.modules ++ c.modules).foldl resolveModule (resolveZone s2 z)

/-- R148: the entrance controller takes an ENTRANCE record. -/
def takeEntrance (e : EntranceId) (c : EntranceConfig) (s : State) : State :=
  let old := look s.control.cfg.entrances e
  let s1 := s.setCfg { s.control.cfg with entrances := put s.control.cfg.entrances e c }
  { s1 with svc := takeEntranceConfig e old c s1.svc }

/-- R173, R174: the link port takes a LINK record and judges the gate. -/
def takeLink (c : LinkConfig) (s : State) : State :=
  (s.setCfg { s.control.cfg with link := c }).serve
    (fun env sv => sv.setLink (judgeNotice env sv.link))

/-- R186: a record replaces the one in force, and its owner takes the new values. -/
def takeRecord (s : State) (index : Nat) (r : ConfigRecord) : State :=
  match r with
  | .zone c => match zoneOf index with | some z => takeZone z c s | none => s
  | .entrance c => match entranceOf (index - 20) with | some e => takeEntrance e c s | none => s
  | .channel c =>
    match channelOf (index - 32) with
    | some d => s.setCfg { s.control.cfg with channels := put s.control.cfg.channels d c }
    | none => s
  | .auditorium c =>
    let a := if index = 36 then Aud.one else Aud.two
    s.setCfg { s.control.cfg with auditoria := s.control.cfg.auditoria.set a c }
  | .supervision c => takeSupervision c s
  | .link c => takeLink c s

/-- R189: forty records, which their owners take one after the other, in ascending index (DESIGN CHOICE,
log 68). -/
def takeRecords : Nat → List ConfigRecord → State → State
  | _, [], s => s
  | i, r :: rest, s => takeRecords (i + 1) rest (takeRecord s i r)

/-! ## Validation (R187) -/

/-- R187: a module of the zone is listed by a zone of lower index. -/
def listedBelow (cfg : Configuration) (z : ZoneId) : Bool :=
  (look cfg.zones z).modules.any (fun m =>
    allZones.any (fun y => decide (y < z) && (look cfg.zones y).modules.contains m))

/-- R187: a ZONE record passes. -/
def zonePasses (cfg : Configuration) (z : ZoneId) : Bool :=
  let c := look cfg.zones z
  let modulesRight := if isLoopKind c.kind then !c.modules.isEmpty else c.modules.isEmpty
  let auditoriumRight := match c.kind with
    | .hallLoop | .lobby | .description => c.auditorium.isSome
    | .foyerLoop | .foyerSpeaker => c.auditorium.isNone
    | .unused => true
  modulesRight && auditoriumRight && !listedBelow cfg z

/-- R187: an ENTRANCE record passes. -/
def entrancePasses (cfg : Configuration) (e : EntranceId) : Bool :=
  (look cfg.entrances e).adjacent.all (fun z => isFoyerKind (look cfg.zones z).kind)

/-- R187: a CHANNEL record passes. -/
def channelPasses (cfg : Configuration) (d : ChannelId) : Bool :=
  let c := look cfg.channels d
  match c.zone with
  | none => true
  | some z =>
    if inService c then
      let k := look cfg.zones z
      k.kind == .description && k.auditorium == c.auditorium
        && !(allChannels.any (fun y =>
          decide (y < d) && inService (look cfg.channels y) && (look cfg.channels y).zone == some z))
    else true

/-- R187: the index of the first record that fails. -/
def firstFailure (cfg : Configuration) : Option Nat :=
  match allZones.find? (fun z => !zonePasses cfg z) with
  | some z => some z.val
  | none =>
    match allEntrances.find? (fun e => !entrancePasses cfg e) with
    | some e => some (20 + e.val)
    | none =>
      match allChannels.find? (fun d => !channelPasses cfg d) with
      | some d => some (32 + d.val)
      | none => none

/-! ## The silence timer (R175) -/

/-- R175: the silence timer starts with the silence time, or stays stopped when that is 0. -/
def startSilence (seconds : Nat) (l : LinkPort) : LinkPort :=
  { l with silenceLeft := if seconds = 0 then none else some (seconds * 1000) }

/-- The link port changed. -/
def State.updLink (s : State) (f : LinkPort → LinkPort) : State :=
  { s with svc := s.svc.setLink (f s.svc.link) }

/-! ## Operating state (R187, R188) -/

/-- The operating state set. -/
def State.setRunning (s : State) (b : Bool) : State :=
  { s with control := { s.control with running := b } }

/-- R78, R187: a detector as entry to RUN and to CONFIG leaves it. -/
def QuietDetector.rest (q : QuietDetector) : QuietDetector :=
  { q with state := .sound, openLeft := none, current := none }

/-- R187: each block takes the entry to RUN. -/
def blocksEnterRun (s : State) : State :=
  (s.serve routerEnterRun).updLink (startSilence s.control.cfg.link.silence)

/-- R137, R145, R122, R99: the teardown of the services other than the router and the link port. R188
leaves their order open; the engine and the scheduler come before the pool, so the slots of the clips
and calls they end get no report (DESIGN CHOICE, log 61). -/
def servicesTeardown (env : Env) (sv : Services) : Services :=
  abandonWhere .config (fun _ => true) (schedulerTeardown env (engineTeardown env sv))

/-- R188: the router takes the entry to CONFIG, then the other blocks. -/
def blocksEnterConfig (s : State) : State :=
  let s1 := { s with svc := routerEnterConfig s.svc }
  let s2 := cueTeardown .two (cueTeardown .one s1)
  let s3 := { s2 with quiet := ⟨s2.quiet.one.rest, s2.quiet.two.rest⟩ }
  (s3.serve servicesTeardown).updLink (fun l => { l with silenceLeft := none })

/-! ## The settings image (spec/11 section 11.3) -/

/-- The forty records of a configuration, in ascending index. -/
def allRecords (c : Configuration) : List ConfigRecord := (List.range 40).filterMap (recordAt c)

/-- The record area. -/
def recordArea (c : Configuration) : List Byte := ((allRecords c).map encodeRecord).flatten

/-- The length of the record area in format 1. -/
def areaLength : Nat := 420

/-- The address of the record area. -/
def areaStart : Nat := 16

/-- The marker when valid. -/
def validMarker : Nat := 0xA5243C5A

/-- The header of an image. -/
def headerOf (area : List Byte) : List Byte :=
  u32 validMarker ++ u8 1 ++ u16 area.length ++ u32 (crc32 area).toNat

/-- A read that returns all ones throughout. -/
def allOnes (bytes : List Byte) : Bool := bytes.all (fun b => b == 0xFF)

/-- Cuts the record area into the byte forms of its records, from an index up. -/
def cutRecords : Nat → Nat → List Byte → List (Nat × Option ConfigRecord)
  | 0, _, _ => []
  | n + 1, index, bytes =>
    let k := (recordLength index).getD 0
    (index, decodeRecord index (bytes.take k)) :: cutRecords n (index + 1) (bytes.drop k)

/-- R189: a record as read passes the checks of R186. -/
def readPasses : Option ConfigRecord → Bool
  | some r => recordLegal r
  | none => false

/-- R189: what a load makes of the header and the record area it read: the result, and the records
of a LOADED image. A read of ones is judged first, so an area of ones is MEMORY whatever the marker;
R191's MARKER for a save cut short holds because no save leaves such an area (DESIGN CHOICE, log 9). -/
def judgeImage (fault : Bool) (header area : List Byte) : SettingsResult × List ConfigRecord :=
  if fault || allOnes header || allOnes area then (.memory, [])
  else if numAt header 0 4 ≠ validMarker ∨ byteAt header 4 ≠ 1 then (.marker, [])
  else if numAt header 5 2 ≠ areaLength then (.length, [])
  else if numAt header 7 4 ≠ (crc32 area).toNat then (.crc, [])
  else
    let records := cutRecords 40 0 area
    match records.find? (fun p => !readPasses p.2) with
    | some p => (.range p.1, [])
    | none => (.loaded, records.filterMap (·.2))

/-- R189: a load of the settings memory. -/
def readImage (c : PartControl) : SettingsResult × List ConfigRecord :=
  judgeImage c.memoryFault (c.memory.readAll 0 11) (c.memory.readAll areaStart areaLength)

/-- Part control changed. -/
def State.updControl (s : State) (f : PartControl → PartControl) : State :=
  { s with control := f s.control }

/-- R190: an operation begins. -/
def beginSettings (op : SettingsOp) (kind : SettingsKind) (s : State) : State :=
  s.updControl (fun c =>
    { c with
      settings := some op, memoryFault := false
      result := { kind := some kind, result := none, inProgress := true } })

/-- R190: an operation ends: the result record, then SETTINGS. -/
def endSettings (r : SettingsResult) (s : State) : State :=
  (s.updControl (fun c =>
    { c with
      settings := none, memoryFault := false
      result := { kind := c.result.kind, result := some r, inProgress := false } })).serve
    (fun env sv => raise env .settings sv)

/-- R191 stage 1: the marker is invalidated. -/
def invalidate (m : Memory) : Memory := m.writeAll 0 (u32 0)

/-- R191: a load is in progress. -/
def loading (c : PartControl) : Bool :=
  match c.settings with
  | some .startLoad => true
  | some (.load _) => true
  | _ => false

/-! ## Resets (R193) -/

/-- R193: a reset begins, or joins the one that holds; the record keeps the kind that began it, or
POWER-ON when power is applied. What holds through a reset is the settings memory, the straps as
last read, the pins and the commands waiting. -/
def beginReset (cause : ResetCause) (s : State) : State :=
  let recorded :=
    if s.control.holding ∧ cause ≠ .powerOn then s.control.cause else cause
  State.inReset recorded s.control.strap s.control.fastLink s.control.memory s.pins s.pending

/-- R193, R194: the reset has ended and the straps are read: WAIT stays in CONFIG, SELF begins a
start-up load. -/
def leaveReset (mode1 mode0 : Bool) (s : State) : State :=
  let s1 := s.updControl (fun c =>
    { c with holding := false, strap := if mode1 then .self else .wait, fastLink := mode0 })
  let s2 := { s1 with pins := { s1.pins with mode1 := mode1, mode0 := mode0 } }
  if mode1 then beginSettings .startLoad .startLoad s2 else beginRound s2

end Sys2Proof.Machine
end

