-- ==== Sys2Proof/Machine/Acceptance.lean ====
section
/-! DEFINITION. How a request frame is accepted (R168, R169, R175, R177) and how an event reaches the
part: the frames every meaning is built in. A request row is a whole valid frame whose KIND and BODY
length are right, so only the list's room is checked here (log 1). -/

namespace Sys2Proof.Machine

/-- What a step answers: always a next state (log 24). -/
abbrev Result := Host.Outcome State Fault Refusal

/-- R175, R177: a valid frame has arrived: STANDALONE ends and the silence timer restarts. -/
def validFrame (s : State) : State :=
  s.updLink (fun l =>
    let awake := { l with standalone := false }
    if s.control.running then startSilence s.control.cfg.link.silence awake else awake)

/-- An immediate reply of the transmit queue. -/
def TxItem.isImmediate : TxItem → Bool
  | .immediate _ _ _ => true
  | _ => false

/-- R168: an immediate reply; a fifth waiting one is dropped. One that is being sent, at the head of
the queue, still counts among the four (DESIGN CHOICE, log 55). -/
def sendImmediate (tag kind : Byte) (body : List Byte) (s : State) : State :=
  s.updLink (fun l =>
    if 4 ≤ (l.tx.filter TxItem.isImmediate).length then l
    else { l with tx := l.tx ++ [.immediate tag kind body] })

/-- R168: the KIND code of a reply. -/
def replyCode (kind : RequestKind) : Byte := kind.code + 0x80

/-- The KIND code of a notice frame (spec/09 section 9.1). -/
def noticeCode : Byte := 0x7E

/-- R167, spec/09 section 9.1: a frame as it is sent: the start byte, LEN, TAG, KIND, BODY and the CRC
over LEN to BODY, low byte first. -/
def frameBytes (tag kind : Byte) (body : List Byte) : List Byte :=
  let covered := BitVec.ofNat 8 (body.length + 2) :: tag :: kind :: body
  0xE7 :: (covered ++ w16 (crc16 covered))

/-- R168, R170, R174: the frame an item of the transmit queue sends next. A reply has its request's
TAG and the KIND request code + 0x80, a notice the TAG 0. -/
def TxItem.frame : TxItem → List Byte
  | .reply tag kind bodies => frameBytes tag (replyCode kind) (bodies.headD [])
  | .immediate tag kind body => frameBytes tag kind body
  | .notice body => frameBytes 0 noticeCode body

/-- R171: the bytes of the frame being sent, which is the one at the head of the queue. -/
def LinkPort.sending (l : LinkPort) : Option (List Byte) := l.tx.head?.map TxItem.frame

/-- R169: the request joins the outstanding list. -/
def joinList (tag : Byte) (kind : RequestKind) (s : State) : State :=
  s.updLink (fun l => { l with outstanding := l.outstanding ++ [{ tag := tag, kind := kind }] })

/-- R168 step 3 and R169: a frame that passed the first two checks is refused BUSY, or accepted and
handed to its owner, whose reports then settle. -/
def accept (tag : Byte) (kind : RequestKind) (work : State → State) (s : State) : State :=
  if 4 ≤ s.svc.link.outstanding.length then sendImmediate tag (replyCode kind) [Status.busy.code] s
  else (work (joinList tag kind s)).settled

/-- A request's frame arrives whole. While a reset holds it is lost (log 23); after an accepted RESET
it is discarded, though it counts for host silence (R175, R179, log 28). -/
def request (tag : Byte) (kind : RequestKind) (work : State → State) (s : State) : Result :=
  .next
    (if s.control.holding then s
     else if s.svc.link.accepting then accept tag kind work (validFrame s)
     else validFrame s)

/-- An event reaches the part; none does while a reset holds (log 23). -/
def event (work : State → State) (s : State) : Result :=
  .next (if s.control.holding then s else (work s).settled)

/-- A service decides a request and its answer is the reply. -/
def answerWith (tag : Byte) (kind : RequestKind) (f : Env → Services → Answer × Services)
    (s : State) : State :=
  let (ans, sv) := f s.env s.svc
  { s with svc := sv }.reply tag kind ans

end Sys2Proof.Machine
end

