-- ==== Sys2Proof/Machine/Resets.lean ====
section
/-! DEFINITION. Resets and start-up (R193, R194), and the transmitter's end of a frame (R171, R179). -/

namespace Sys2Proof.Machine

/-- POWER_ON (R193). -/
def execPowerOn (s : State) : Result := .next (beginReset .powerOn s)

/-- SUPPLY_DIP (R193). -/
def execSupplyDip (s : State) : Result := .next (beginReset .supplyDip s)

/-- RESET_LINE (R193): RST is low. -/
def execResetLine (s : State) : Result :=
  .next (beginReset .resetLine { s with pins := { s.pins with rst := false } })

/-- RESET_END (R193, R194); nothing when no reset holds. -/
def execResetEnd (mode1 mode0 : Bool) (s : State) : Result :=
  .next
    (if s.control.holding then
      (leaveReset mode1 mode0 { s with pins := { s.pins with rst := true } }).settled
     else s)

/-- R47: the configuration in force has been applied, and the first round begins. -/
def firstRound (s : State) : State :=
  match s.sup.poll with
  | .atStart => grantBus (beginRound s)
  | _ => s

/-- R194: a LOADED image is validated; it enters RUN or leaves the part in CONFIG. The entry to RUN
comes before the result record and SETTINGS (DESIGN CHOICE, log 69). -/
def enterLoaded (s : State) : State :=
  match firstFailure s.control.cfg with
  | none => endSettings .loaded (blocksEnterRun (s.setRunning true))
  | some i => endSettings (.invalid i) s

/-- R189, R194: the start-up load ends. -/
def startLoadDone (s : State) : State :=
  match s.control.settings with
  | some .startLoad =>
    let (result, records) := readImage s.control
    let s1 := match result with
      | .loaded => enterLoaded (takeRecords 0 records s)
      | other => endSettings other s
    firstRound s1
  | _ => s

/-- START_LOAD_DONE (R194); nothing when no start-up load is in progress. -/
def execStartLoadDone (s : State) : Result := event startLoadDone s

/-- R169: the entry of a reply that has been sent leaves the outstanding list. -/
def leaveList (tag : Byte) (kind : RequestKind) (l : List Outstanding) : List Outstanding :=
  l.erase { tag := tag, kind := kind }

/-- R171, R174, R179: the transmitter finishes the frame at the head of the queue. -/
def frameSent (s : State) : State :=
  match s.svc.link.tx with
  | [] => s
  | .reply tag kind (_ :: b :: more) :: rest =>
    s.updLink (fun l => { l with tx := .reply tag kind (b :: more) :: rest })
  | .reply tag kind _ :: rest =>
    let s1 := s.updLink (fun l =>
      { l with tx := rest, outstanding := leaveList tag kind l.outstanding })
    if kind = .reset then beginReset .linkReset s1 else s1
  | .immediate _ _ _ :: rest => s.updLink (fun l => { l with tx := rest })
  | .notice _ :: rest =>
    s.serve (fun env sv => sv.setLink (judgeNotice env { sv.link with tx := rest }))

/-- FRAME_SENT (R171). -/
def execFrameSent (s : State) : Result := .next (if s.control.holding then s else frameSent s)

end Sys2Proof.Machine
end

