-- ==== Sys2Proof/Machine/Notices.lean ====
section
/-! DEFINITION. The link port's own requests and the silence timer (R172-R179). -/

namespace Sys2Proof.Machine

/-- R176: the silence timer runs out. After a valid frame taken first the timer has been restarted
(R175), and nothing runs out. -/
def silenceExpired (s : State) : State :=
  if s.svc.link.silenceLeft = some 0 then
    (s.updLink (fun l => { l with standalone := true, silenceLeft := none })).serve (fun env sv =>
      abandonWhere .hostLost (fun sl => decide (0 < sl.toReceive)) (raise env .silence sv))
  else s

/-- SILENCE_TIMER_EXPIRY (R176); nothing when the timer is stopped or has time left. -/
def execSilenceTimerExpiry (s : State) : Result := event silenceExpired s

/-- R178. -/
def workIdent (tag : Byte) (s : State) : State :=
  s.reply tag .ident (.plain .ok (identBytes s.control s.svc.link))

/-- IDENT (R178). -/
def execIdent (tag : Byte) (s : State) : Result := request tag .ident (workIdent tag) s

/-- R179: the reply is queued and the port stops accepting; the reset comes at FRAME_SENT. -/
def workReset (tag : Byte) (s : State) : State :=
  (s.reply tag .reset (.plain .ok [])).updLink (fun l => { l with accepting := false })

/-- RESET (R179). -/
def execReset (tag : Byte) (s : State) : Result := request tag .reset (workReset tag) s

/-- R173: the enable set in force. -/
def setEnables (kinds : Word16) (s : State) : State :=
  s.setCfg { s.control.cfg with link := { s.control.cfg.link with enables := kinds } }

/-- R174: the gate condition is judged. -/
def judgeGate (s : State) : State := s.serve (fun env sv => sv.setLink (judgeNotice env sv.link))

/-- R173. -/
def workNoticeEnable (tag : Byte) (kinds : Word16) (s : State) : State :=
  if kindSetLegal kinds then judgeGate ((setEnables kinds s).reply tag .noticeEnable (.plain .ok []))
  else s.reply tag .noticeEnable (.refuse .range)

/-- NOTICE_ENABLE (R173). -/
def execNoticeEnable (tag : Byte) (kinds : Word16) (s : State) : Result :=
  request tag .noticeEnable (workNoticeEnable tag kinds) s

/-- R174. -/
def workNoticeResume (tag : Byte) (s : State) : State :=
  judgeGate ((s.reply tag .noticeResume (.plain .ok (w16 s.svc.link.pendingKinds))).updLink
    (fun l => { l with gateOpen := true }))

/-- NOTICE_RESUME (R174). -/
def execNoticeResume (tag : Byte) (s : State) : Result :=
  request tag .noticeResume (workNoticeResume tag) s

/-- R172. -/
def workNoticeClear (tag : Byte) (kinds : Word16) (s : State) : State :=
  if kindSetLegal kinds then
    let left := s.svc.link.pendingKinds &&& ~~~ kinds
    (s.updLink (fun l => { l with pendingKinds := left })).reply tag .noticeClear
      (.plain .ok (w16 left))
  else s.reply tag .noticeClear (.refuse .range)

/-- NOTICE_CLEAR (R172). -/
def execNoticeClear (tag : Byte) (kinds : Word16) (s : State) : Result :=
  request tag .noticeClear (workNoticeClear tag kinds) s

/-- R175. -/
def workSilenceSet (tag : Byte) (seconds : Nat) (s : State) : State :=
  if 60 < seconds then s.reply tag .silenceSet (.refuse .range)
  else
    let s1 := s.setCfg { s.control.cfg with link := { s.control.cfg.link with silence := seconds } }
    let s2 := if s.control.running then s1.updLink (startSilence seconds) else s1
    s2.reply tag .silenceSet (.plain .ok [])

/-- SILENCE_SET (R175). -/
def execSilenceSet (tag : Byte) (seconds : Nat) (s : State) : Result :=
  request tag .silenceSet (workSilenceSet tag seconds) s

end Sys2Proof.Machine
end

