-- ==== Sys2Proof/Machine/Modes.lean ====
section
/-! DEFINITION. MODE and the configuration records (R186, R187, R188). -/

namespace Sys2Proof.Machine

/-- R187. -/
def workModeRun (tag : Byte) (s : State) : State :=
  if s.control.running then s.reply tag .mode (.plain .ok [])
  else if loading s.control then s.reply tag .mode (.refuse .busy)
  else
    match firstFailure s.control.cfg with
    | some i => s.reply tag .mode (.plain .range (u8 i))
    | none => blocksEnterRun ((s.setRunning true).reply tag .mode (.plain .ok []))

/-- MODE_RUN (R187). -/
def execModeRun (tag : Byte) (s : State) : Result := request tag .mode (workModeRun tag) s

/-- Both house states are OPEN (R188). -/
def housesOpen (s : State) : Bool :=
  s.svc.houses.one.state == .opened && s.svc.houses.two.state == .opened

/-- R188. -/
def workModeConfig (tag : Byte) (s : State) : State :=
  if !s.control.running then s.reply tag .mode (.plain .ok [])
  else if housesOpen s then blocksEnterConfig ((s.setRunning false).reply tag .mode (.plain .ok []))
  else s.reply tag .mode (.refuse .state)

/-- MODE_CONFIG (R188). -/
def execModeConfig (tag : Byte) (s : State) : Result := request tag .mode (workModeConfig tag) s

/-- R186: the first check that refuses a CONFIG-WRITE, if any. -/
def writeRefusal (s : State) (index : Nat) (record : Option ConfigRecord) : Option Status :=
  if s.control.running then some .state
  else if loading s.control then some .busy
  else
    match record with
    | none => some .range
    | some r => if indexTakes index r && recordLegal r then none else some .range

/-- R186. -/
def workConfigWrite (tag : Byte) (index : Nat) (record : Option ConfigRecord) (s : State) : State :=
  match writeRefusal s index record, record with
  | some st, _ => s.reply tag .configWrite (.refuse st)
  | none, some r => (takeRecord s index r).reply tag .configWrite (.plain .ok [])
  | none, none => s.reply tag .configWrite (.refuse .range)

/-- CONFIG_WRITE (R186). -/
def execConfigWrite (tag : Byte) (index : Nat) (record : Option ConfigRecord) (s : State) : Result :=
  request tag .configWrite (workConfigWrite tag index record) s

/-- R186, R190: what CONFIG-READ answers. -/
def configReadAnswer (c : PartControl) (index : Nat) : Answer :=
  if index = 40 then .plain .ok (encodeResult c.result)
  else
    match recordAt c.cfg index with
    | some r => .plain .ok (encodeRecord r)
    | none => .refuse .range

/-- R186. -/
def workConfigRead (tag : Byte) (index : Nat) (s : State) : State :=
  s.reply tag .configRead (configReadAnswer s.control index)

/-- CONFIG_READ (R186, R190). -/
def execConfigRead (tag : Byte) (index : Nat) (s : State) : Result :=
  request tag .configRead (workConfigRead tag index) s

end Sys2Proof.Machine
end

