-- ==== Sys2Proof/Machine/Settings.lean ====
section
/-! DEFINITION. Saving and loading the settings image (R189-R192). -/

namespace Sys2Proof.Machine

/-- R191: the settings memory as stages 1 and 2 leave it: the marker invalid, the record area as the
copy. Both are there when the save is accepted (DESIGN CHOICE, log 9), so a reset before stage 3 ends
leaves an image that a load judges MARKER, and no area of ones that R189 would judge first. -/
def begunImage (m : Memory) (copy : Configuration) : Memory :=
  (invalidate m).writeAll areaStart (recordArea copy)

/-- R191: a save is accepted, copies the configuration in force and writes stages 1 and 2. -/
def workSettingsSave (tag : Byte) (s : State) : State :=
  if s.control.settings.isSome then s.reply tag .settingsSave (.refuse .busy)
  else
    (beginSettings (.save tag s.control.cfg) .save s).updControl
      (fun c => { c with memory := begunImage c.memory c.cfg })

/-- SETTINGS_SAVE (R191); answered on completion. -/
def execSettingsSave (tag : Byte) (s : State) : Result :=
  request tag .settingsSave (workSettingsSave tag) s

/-- R191: the settings memory as stages 2 and 3 leave it, the header as it reads back (log 9). The
record area stands since the save was accepted (`begunImage`). -/
def writtenImage (m : Memory) (copy : Configuration) (readBack : List Byte) : Memory :=
  (m.writeAll areaStart (recordArea copy)).writeAll 0 (readBack.take 11)

/-- R191: the save's stages have ended and the header has been read back. -/
def settingsSaveDone (readBack : List Byte) (s : State) : State :=
  match s.control.settings with
  | some (.save tag copy) =>
    let fault := s.control.memoryFault
    let result : SettingsResult :=
      if !fault && readBack == headerOf (recordArea copy) then .saved else .memory
    let s1 := s.updControl (fun c =>
      { c with memory := if fault then c.memory else writtenImage c.memory copy readBack })
    endSettings result (s1.reply tag .settingsSave (.plain .ok (resultBytes result)))
  | _ => s

/-- SETTINGS_SAVE_DONE (R191); nothing when no save is in progress. -/
def execSettingsSaveDone (readBack : List Byte) (s : State) : Result :=
  event (settingsSaveDone readBack) s

/-- R192. -/
def workSettingsLoad (tag : Byte) (s : State) : State :=
  if s.control.running then s.reply tag .settingsLoad (.refuse .state)
  else if s.control.settings.isSome then s.reply tag .settingsLoad (.refuse .busy)
  else beginSettings (.load tag) .load s

/-- SETTINGS_LOAD (R192); answered on completion. -/
def execSettingsLoad (tag : Byte) (s : State) : Result :=
  request tag .settingsLoad (workSettingsLoad tag) s

/-- R189, R192: the load ends. -/
def settingsLoadDone (s : State) : State :=
  match s.control.settings with
  | some (.load tag) =>
    let (result, records) := readImage s.control
    let s1 := takeRecords 0 records s
    endSettings result (s1.reply tag .settingsLoad (.plain .ok (resultBytes result)))
  | _ => s

/-- SETTINGS_LOAD_DONE (R189, R192); nothing when no load is in progress. -/
def execSettingsLoadDone (s : State) : Result := event settingsLoadDone s

/-- R189: a page write of the save in progress is not reported done: a memory fault. -/
def pageWriteTimeout (s : State) : State :=
  match s.control.settings with
  | some (.save _ _) => s.updControl (fun c => { c with memoryFault := true })
  | _ => s

/-- SETTINGS_PAGE_WRITE_TIMEOUT (R189); nothing when no save is in progress. -/
def execSettingsPageWriteTimeout (s : State) : Result := event pageWriteTimeout s

end Sys2Proof.Machine
end

