-- ==== Sys2Proof/Machine/Zones.lean ====
section
/-! DEFINITION. The requests and events of the zone router (R3, R16-R20, R23). -/

namespace Sys2Proof.Machine

/-- R3: writes a zone's level and mute; a mute turned on makes the zone unheard. -/
def setLevel (z : ZoneId) (level : Nat) (mute : Bool) (s : State) : State :=
  let c := look s.control.cfg.zones z
  let s1 := s.setCfg { s.control.cfg with
    zones := put s.control.cfg.zones z { c with level := level, mute := mute } }
  if mute && !c.mute then { s1 with svc := zoneUnheard z s1.svc } else s1

/-- R3. -/
def workZoneSet (tag : Byte) (zone level : Nat) (mute : Option Bool) (s : State) : State :=
  match zoneOf zone, mute with
  | some z, some m =>
    if 60 < level then s.reply tag .zoneSet (.refuse .range)
    else (setLevel z level m s).reply tag .zoneSet (.plain .ok [])
  | _, _ => s.reply tag .zoneSet (.refuse .range)

/-- ZONE_SET (R3). -/
def execZoneSet (tag : Byte) (zone level : Nat) (mute : Option Bool) (s : State) : Result :=
  request tag .zoneSet (workZoneSet tag zone level mute) s

/-- R23. -/
def workZoneStatus (tag : Byte) (zone : Nat) (s : State) : State :=
  s.reply tag .zoneStatus (zoneStatus s.env s.svc zone)

/-- ZONE_STATUS (R23). -/
def execZoneStatus (tag : Byte) (zone : Nat) (s : State) : Result :=
  request tag .zoneStatus (workZoneStatus tag zone) s

/-- A service's status is the whole answer. -/
def bare (r : Status × Services) : Answer × Services := (.plain r.1 [], r.2)

/-- R19. -/
def workTestStart (tag : Byte) (zone : Nat) (s : State) : State :=
  answerWith tag .testTone (fun env sv => bare (startTest env .link zone sv)) s

/-- TEST_TONE_START (R19). -/
def execTestToneStart (tag : Byte) (zone : Nat) (s : State) : Result :=
  request tag .testTone (workTestStart tag zone) s

/-- R20. -/
def workTestStop (tag : Byte) (zone : Nat) (s : State) : State :=
  answerWith tag .testTone (fun env sv => bare (stopTest env .link zone sv)) s

/-- TEST_TONE_STOP (R20). -/
def execTestToneStop (tag : Byte) (zone : Nat) (s : State) : Result :=
  request tag .testTone (workTestStop tag zone) s

/-- R20: the limit timer of a running test runs out. -/
def testExpired (zone : ZoneId) (source : TestSource) (s : State) : State :=
  if ((look s.svc.zones zone).testLeft source).isSome then
    s.serve (fun env sv => endTest env source zone sv)
  else s

/-- TEST_LIMIT_EXPIRY (R20); nothing when the test does not run. -/
def execTestLimitExpiry (zone : ZoneId) (source : TestSource) (s : State) : Result :=
  event (testExpired zone source) s

/-- The level of OVR and its last sample. -/
def setOvr (b : Bool) (s : State) : State :=
  { s with pins := { s.pins with ovr := b }, ovrSample := some b }

/-- R16, R17: OVR is confirmed ASSERTED. -/
def overrideAsserted (s : State) : State :=
  if s.svc.override then s
  else
    (setOvr true s).serve (fun env sv =>
      let sv1 := { sv with override := true }
      if env.run then overrideClaim env (raise env .override sv1) else sv1)

/-- OVERRIDE_ASSERTED (R16, R17); nothing when it is confirmed so already. -/
def execOverrideAsserted (s : State) : Result := event overrideAsserted s

/-- R16, R18: OVR is confirmed RELEASED. -/
def overrideReleased (s : State) : State :=
  if s.svc.override then
    (setOvr false s).serve (fun env sv =>
      let sv1 := { sv with override := false }
      if env.run then releaseAll env .override (raise env .override sv1) else sv1)
  else s

/-- OVERRIDE_RELEASED (R16, R18); nothing when it is confirmed so already. -/
def execOverrideReleased (s : State) : Result := event overrideReleased s

end Sys2Proof.Machine
end

