-- ==== Sys2Proof/Machine/Loops.lean ====
section
/-! DEFINITION. The requests and events of the loop supervisor (R25, R27, R34-R39, R44, R46). -/

namespace Sys2Proof.Machine

/-- R44; the gap is in units of 10 ms. -/
def workPollSet (tag : Byte) (modules : Word16) (gap : Nat) (s : State) : State :=
  if pollMaskLegal modules && between 1 255 gap then
    (applyPoll modules (gap * 10) s).reply tag .pollSet (.plain .ok [])
  else s.reply tag .pollSet (.refuse .range)

/-- POLL_SET (R44). -/
def execPollSet (tag : Byte) (modules : Word16) (gap : Nat) (s : State) : Result :=
  request tag .pollSet (workPollSet tag modules gap) s

/-- R46. -/
def workModuleStatus (tag : Byte) (mod : Nat) (s : State) : State :=
  s.reply tag .moduleStatus (moduleStatus s.control.cfg s.sup mod)

/-- MODULE_STATUS (R46). -/
def execModuleStatus (tag : Byte) (mod : Nat) (s : State) : Result :=
  request tag .moduleStatus (workModuleStatus tag mod) s

/-- R35: a fault latch emptied. -/
def ModuleRecord.cleared (r : ModuleRecord) : ModuleRecord :=
  { r with latch := WordFaults.none, loopShort := false, loopOpen := false }

/-- R35; 255 names all modules. -/
def workModuleClear (tag : Byte) (mod : Nat) (s : State) : State :=
  if mod = 255 then
    (s.setSup { s.sup with modules := s.sup.modules.map ModuleRecord.cleared }).reply tag
      .moduleClear (.plain .ok [])
  else
    match moduleOf mod with
    | some m => (s.updModule m ModuleRecord.cleared).reply tag .moduleClear (.plain .ok [])
    | none => s.reply tag .moduleClear (.refuse .range)

/-- MODULE_CLEAR (R35). -/
def execModuleClear (tag : Byte) (mod : Nat) (s : State) : Result :=
  request tag .moduleClear (workModuleClear tag mod) s

/-- R34: a tripped module is restored. -/
def restoreModule (m : ModuleId) (s : State) : State :=
  let s1 := (s.updModule m (fun r =>
    { r with tripped := false, run := 0, state := .unknown })).protect m true
  grantBus (resolveModule s1 m)

/-- R34. -/
def workModuleRestore (tag : Byte) (mod : Nat) (s : State) : State :=
  match moduleOf mod with
  | none => s.reply tag .moduleRestore (.refuse .range)
  | some m =>
    if (look s.sup.modules m).tripped then
      (restoreModule m s).reply tag .moduleRestore (.plain .ok [])
    else s.reply tag .moduleRestore (.refuse .state)

/-- MODULE_RESTORE (R34). -/
def execModuleRestore (tag : Byte) (mod : Nat) (s : State) : Result :=
  request tag .moduleRestore (workModuleRestore tag mod) s

/-- R37, R39: the first check that refuses a pass-through, if any; the module it names (log 39). -/
def passCheck (s : State) (mod word : Nat) (write : Bool) : Except Status ModuleId :=
  match moduleOf mod with
  | none => .error .range
  | some m =>
    if 15 < word then .error .range
    else if s.sup.pass.isSome then .error .busy
    else if write && word == 8 && (look s.sup.modules m).tripped then .error .state
    else .ok m

/-- R37: a pass-through is pending, and asks for the bus. -/
def beginPass (p : PassThrough) (s : State) : State := grantBus (s.setSup { s.sup with pass := some p })

/-- R38. -/
def workAmpRead (tag : Byte) (mod word : Nat) (s : State) : State :=
  match passCheck s mod word false with
  | .error st => s.reply tag .ampRead (.refuse st)
  | .ok m => beginPass { asker := .link tag, module_ := m, word := word, value := none } s

/-- AMP_READ (R37, R38); answered on completion. -/
def execAmpRead (tag : Byte) (mod word : Nat) (s : State) : Result :=
  request tag .ampRead (workAmpRead tag mod word) s

/-- R39. -/
def workAmpWrite (tag : Byte) (mod word : Nat) (value : Word16) (s : State) : State :=
  match passCheck s mod word true with
  | .error st => s.reply tag .ampWrite (.refuse st)
  | .ok m => beginPass { asker := .link tag, module_ := m, word := word, value := some value } s

/-- AMP_WRITE (R37, R39); answered on completion. -/
def execAmpWrite (tag : Byte) (mod word : Nat) (value : Word16) (s : State) : Result :=
  request tag .ampWrite (workAmpWrite tag mod word value) s

/-- BUS_TRANSACTION_END (R25): a read's answer, or a write's acknowledgement, whose value has no
meaning; nothing when no transaction is in flight. -/
def execBusTransactionEnd (value : Word16) (s : State) : Result := event (busEnd (some value)) s

/-- BUS_ANSWER_TIMEOUT (R25): the transaction ends NO-ANSWER; nothing when none is in flight. -/
def execBusAnswerTimeout (s : State) : Result := event (busEnd none) s

/-- R27: the gap runs out. -/
def pollGapExpired (s : State) : State :=
  match s.sup.poll with
  | .gap _ => grantBus (beginRound s)
  | _ => s

/-- POLL_GAP_EXPIRY (R27); nothing when the machine is not in GAP. -/
def execPollGapExpiry (s : State) : Result := event pollGapExpired s

end Sys2Proof.Machine
end

