-- ==== Sys2Proof/Machine/Cues.lean ====
section
/-! DEFINITION. The requests and events of the cue followers (R50-R67). -/

namespace Sys2Proof.Machine

/-- R50: the line level that is active. -/
def activeLevel (p : CuePolarity) : Bool :=
  match p with
  | .activeLow => false
  | .activeHigh => true

/-- R50: the cue line is found settled at a level; its filter takes a state. -/
def setCueLine (a : Aud) (active : Bool) (filter : FilterState) (s : State) : State :=
  let level := (activeLevel (s.control.cfg.auditoria.get a).cuePolarity) == active
  { s with pins := { s.pins with cue := s.pins.cue.set a level } }.updCue a
    (fun c => { c with filter := filter, sample := some level })

/-- R51: the lockout timer starts with the cue lockout; 0 does not start it. -/
def startLockout (ms : Nat) (c : CueFollower) : CueFollower :=
  if ms = 0 then c else { c with lockout := some ms }

/-- R50, R51: a press is confirmed; outside the lockout it is an advance. -/
def cuePressed (a : Aud) (s : State) : State :=
  let c := s.cue.get a
  if s.control.running ∧ c.filter = .released then
    let s1 := setCueLine a true .pressed s
    if c.lockout.isSome then s1
    else
      arriveCue a (.advance .line)
        (s1.updCue a (startLockout (s.control.cfg.auditoria.get a).lockout))
  else s

/-- CUE_PRESS (R50, R51); nothing but from RELEASED in RUN. -/
def execCuePress (a : Aud) (s : State) : Result := event (cuePressed a) s

/-- R50: a release is confirmed. -/
def cueReleased (a : Aud) (s : State) : State :=
  if s.control.running ∧ (s.cue.get a).filter = .pressed then setCueLine a false .released s else s

/-- CUE_LINE_RELEASE (R50); nothing but from PRESSED in RUN. -/
def execCueLineRelease (a : Aud) (s : State) : Result := event (cueReleased a) s

/-- R50: the line leaves UNSETTLED; no press is confirmed. -/
def cueSettled (a : Aud) (active : Bool) (s : State) : State :=
  if s.control.running ∧ (s.cue.get a).filter = .unsettled then
    setCueLine a active (if active then .pressed else .released) s
  else s

/-- CUE_LINE_SETTLED (R50); nothing but from UNSETTLED in RUN. -/
def execCueLineSettled (a : Aud) (active : Bool) (s : State) : Result := event (cueSettled a active) s

/-- LOCKOUT_EXPIRY (R51). -/
def execLockoutExpiry (a : Aud) (s : State) : Result :=
  event (fun s => s.updCue a (fun c => { c with lockout := none })) s

/-- R54. -/
def workCueGo (tag : Byte) (auditorium : Nat) (s : State) : State :=
  match audOf auditorium with
  | none => s.reply tag .cueGo (.refuse .range)
  | some a =>
    if s.control.running then arriveCue a (.advance (.link tag)) s
    else s.reply tag .cueGo (.refuse .state)

/-- CUE_GO (R54); answered on completion. -/
def execCueGo (tag : Byte) (auditorium : Nat) (s : State) : Result :=
  request tag .cueGo (workCueGo tag auditorium) s

/-- R56. -/
def workCueSet (tag : Byte) (auditorium position : Nat) (s : State) : State :=
  match audOf auditorium with
  | none => s.reply tag .cueSet (.refuse .range)
  | some a =>
    if 65535 < position then s.reply tag .cueSet (.refuse .range)
    else if s.control.running then arriveCue a (.jump tag position) s
    else s.reply tag .cueSet (.refuse .state)

/-- CUE_SET (R56); answered on completion. -/
def execCueSet (tag : Byte) (auditorium position : Nat) (s : State) : Result :=
  request tag .cueSet (workCueSet tag auditorium position) s

/-- R60: the first check that refuses a CUE-WRITE, or the entry to write. -/
def cueWriteCheck (s : State) (auditorium number : Nat) (actions : List (Option CueAction)) :
    Except Status (Aud × CueEntry) :=
  match audOf auditorium, knownActions actions with
  | some a, some acts =>
    if !between 1 65535 number then .error .range
    else if !between 1 4 acts.length then .error .range
    else if !acts.all (actionLegal s a) then .error .range
    else
      let list := (s.cue.get a).list
      if 64 ≤ list.length && !list.any (fun e => e.number == number) then .error .full
      else .ok (a, { number := number, actions := acts })
  | _, _ => .error .range

/-- R60, R61. -/
def workCueWrite (tag : Byte) (auditorium number : Nat) (actions : List (Option CueAction))
    (s : State) : State :=
  match cueWriteCheck s auditorium number actions with
  | .error st => s.reply tag .cueWrite (.refuse st)
  | .ok (a, e) =>
    let list := insertEntry e (s.cue.get a).list
    (s.updCue a (fun c => { c with list := list })).reply tag .cueWrite (.plain .ok (u8 list.length))

/-- CUE_WRITE (R60, R61). -/
def execCueWrite (tag : Byte) (auditorium number : Nat) (actions : List (Option CueAction))
    (s : State) : Result :=
  request tag .cueWrite (workCueWrite tag auditorium number actions) s

/-- R62; 0 names every entry. -/
def workCueErase (tag : Byte) (auditorium number : Nat) (s : State) : State :=
  match audOf auditorium with
  | none => s.reply tag .cueErase (.refuse .range)
  | some a =>
    let list := (s.cue.get a).list
    if number ≠ 0 ∧ !list.any (fun e => e.number == number) then
      s.reply tag .cueErase (.refuse .absent)
    else
      let left := if number = 0 then [] else list.filter (fun e => e.number != number)
      (s.updCue a (fun c => { c with list := left })).reply tag .cueErase (.plain .ok (u8 left.length))

/-- CUE_ERASE (R62). -/
def execCueErase (tag : Byte) (auditorium number : Nat) (s : State) : Result :=
  request tag .cueErase (workCueErase tag auditorium number) s

/-- R63: what CUE-READ answers. -/
def cueReadAnswer (s : State) (auditorium number : Nat) : Answer :=
  match audOf auditorium with
  | none => .refuse .range
  | some a =>
    if number = 0 then .refuse .range
    else
      let list := (s.cue.get a).list
      match list.find? (fun e => decide (number ≤ e.number)) with
      | some e => .plain .ok (cueReadBytes e list.length)
      | none => .refuse .absent

/-- R63. -/
def workCueRead (tag : Byte) (auditorium number : Nat) (s : State) : State :=
  s.reply tag .cueRead (cueReadAnswer s auditorium number)

/-- CUE_READ (R63). -/
def execCueRead (tag : Byte) (auditorium number : Nat) (s : State) : Result :=
  request tag .cueRead (workCueRead tag auditorium number) s

/-- An answer about one auditorium; any other number is refused with RANGE. -/
def audAnswer (auditorium : Nat) (f : Aud → List Byte) : Answer :=
  match audOf auditorium with
  | some a => .plain .ok (f a)
  | none => .refuse .range

/-- R67. -/
def workCueStatus (tag : Byte) (auditorium : Nat) (s : State) : State :=
  s.reply tag .cueStatus (audAnswer auditorium (fun a =>
    cueStatusBytes (s.control.cfg.auditoria.get a) (s.cue.get a)))

/-- CUE_STATUS (R67). -/
def execCueStatus (tag : Byte) (auditorium : Nat) (s : State) : Result :=
  request tag .cueStatus (workCueStatus tag auditorium) s

/-- R59. -/
def workCaptureRead (tag : Byte) (auditorium : Nat) (s : State) : State :=
  s.reply tag .captureRead (audAnswer auditorium (fun a => captureBytes (s.cue.get a)))

/-- CAPTURE_READ (R59). -/
def execCaptureRead (tag : Byte) (auditorium : Nat) (s : State) : Result :=
  request tag .captureRead (workCaptureRead tag auditorium) s

end Sys2Proof.Machine
end

