-- ==== Sys2Proof/Machine/Gaps.lean ====
section
/-! DEFINITION. The quiet detectors (spec/04): the level meter and the gap state machine. -/

namespace Sys2Proof.Machine

/-- A detector changed. -/
def State.updQuiet (s : State) (a : Aud) (f : QuietDetector → QuietDetector) : State :=
  { s with quiet := updTwo s.quiet a f }

/-! ## The level meter (R70) -/

/-- The energy of a sample; one the port receives no data for counts as zero. -/
def sampleEnergy : Option Int → Nat
  | none => 0
  | some v => v.natAbs ^ 2

/-- The energy of a stretch of samples. -/
def energyOf (samples : List (Option Int)) : Nat := samples.foldl (fun acc x => acc + sampleEnergy x) 0

/-- R70: the level is at least -n dBFS: the mean square of 4,800 samples against that of a
full-scale sine, both raised to the tenth power. -/
def atLeast (energy n : Nat) : Bool :=
  decide ((4800 * Config.fullScale ^ 2) ^ 10 ≤ (2 * energy) ^ 10 * 10 ^ n)

/-- R70: the level in whole dBFS, rounded down, from -90 to 0. -/
def levelOf (energy : Nat) : Int :=
  match (List.range 90).find? (atLeast energy) with
  | some n => -(n : Int)
  | none => -90

/-- R70: an update: the newest 10 ms join the history of 100 ms, and the current level follows. -/
def meterUpdate (samples : List (Option Int)) (q : QuietDetector) : QuietDetector :=
  let history := (energyOf samples :: q.history).take 10
  { q with history := history, level := levelOf history.sum }

/-! ## The gap state machine (R72, R73, R74, R77) -/

/-- R77: the longest gap after a gap that has ended. -/
def longerGap (ended : GapRecord) : Option GapRecord → Option GapRecord
  | none => some ended
  | some g => if g.length < ended.length then some ended else some g

/-- R74: a gap ends. -/
def QuietDetector.endGap (q : QuietDetector) : QuietDetector :=
  match q.current with
  | some g =>
    { q with
      state := .sound, current := none, openLeft := none, lastGap := some g
      longestGap := longerGap g q.longestGap }
  | none => { q with state := .sound, openLeft := none }

/-- R72, R73: a level event that does not end a gap. -/
def QuietDetector.levelEvent (k : AuditoriumConfig) (clock : Nat) (q : QuietDetector) :
    QuietDetector :=
  match q.state with
  | .sound =>
    if q.level < k.quietThreshold then
      { q with
        state := .settling, openLeft := some k.openTime
        current := some { start := clock, length := 0 } }
    else q
  | .settling => if k.soundThreshold ≤ q.level then q.rest else q
  | .quiet => q

/-- R70, R72-R74: a level update; in RUN it is a level event. -/
def levelUpdated (a : Aud) (samples : List (Option Int)) (s : State) : State :=
  let s1 := s.updQuiet a (meterUpdate samples)
  if s.control.running then
    let k := s.control.cfg.auditoria.get a
    let clock := (s.cue.get a).clock
    let q := s1.quiet.get a
    if q.state = .quiet ∧ k.soundThreshold ≤ q.level then
      (s1.updQuiet a QuietDetector.endGap).serve (fun env sv => musicResumed env a clock sv)
    else s1.updQuiet a (QuietDetector.levelEvent k clock)
  else s1

/-- LEVEL_UPDATE (R70, R72-R74). -/
def execLevelUpdate (a : Aud) (samples : List (Option Int)) (s : State) : Result :=
  event (levelUpdated a samples) s

/-- R73, R75: the open timer runs out. -/
def openTimerExpired (a : Aud) (s : State) : State :=
  if (s.quiet.get a).state = .settling then
    (s.updQuiet a (fun q => { q with state := .quiet, openLeft := none })).serve (fun env sv =>
      gapOpened env a sv)
  else s

/-- OPEN_TIMER_EXPIRY (R73, R75); nothing but in SETTLING. -/
def execOpenTimerExpiry (a : Aud) (s : State) : Result := event (openTimerExpired a) s

/-- R79. -/
def workGapStatus (tag : Byte) (auditorium : Nat) (s : State) : State :=
  s.reply tag .gapStatus (audAnswer auditorium (fun a =>
    gapStatusBytes (s.control.cfg.auditoria.get a) (s.quiet.get a)))

/-- GAP_STATUS (R79). -/
def execGapStatus (tag : Byte) (auditorium : Nat) (s : State) : Result :=
  request tag .gapStatus (workGapStatus tag auditorium) s

end Sys2Proof.Machine
end

