-- ==== Sys2Proof/Machine/Streams.lean ====
section
/-! DEFINITION. The requests and events of the block pool (R86, R90, R92, R99). -/

namespace Sys2Proof.Machine

/-- R86. -/
def workFeed (tag : Byte) (slot owner fill : Nat) (block : Block) (s : State) : State :=
  answerWith tag .feed (fun env sv => feedSlot env slot owner fill block sv) s

/-- FEED (R86, R87). -/
def execFeed (tag : Byte) (slot owner fill : Nat) (block : Block) (s : State) : Result :=
  request tag .feed (workFeed tag slot owner fill block) s

/-- R90. -/
def workStreamStatus (tag : Byte) (s : State) : State :=
  s.reply tag .streamStatus (streamStatus s.svc)

/-- STREAM_STATUS (R90). -/
def execStreamStatus (tag : Byte) (s : State) : Result := request tag .streamStatus (workStreamStatus tag) s

/-- BLOCK_PLAYED (R92-R95). -/
def execBlockPlayed (slot : SlotId) (s : State) : Result :=
  event (fun s => s.serve (fun env sv => blockPlayed env slot sv)) s

/-- STARVE_TIMER_EXPIRY (R95, R99). -/
def execStarveTimerExpiry (slot : SlotId) (s : State) : Result :=
  event (fun s => s.serve (fun _ sv => starveExpired slot sv)) s

end Sys2Proof.Machine
end

