-- ==== Sys2Proof/Machine/Clips.lean ====
section
/-! DEFINITION. The requests and events of the description engine (R102-R119, R123). -/

namespace Sys2Proof.Machine

/-! ## Live keys (R102, R103) -/

/-- The filter of a key. -/
def liveKeyOf (sv : Services) : LiveInput → LiveKey
  | .liveA => sv.keyA
  | .liveB => sv.keyB

/-- A key's filter takes a state and its line the level of it; a key is pressed when its line is
low. -/
def setLiveKey (key : LiveInput) (filter : FilterState) (level : Bool) (s : State) : State :=
  let k : LiveKey := { filter := filter, sample := some level }
  match key with
  | .liveA => { s with pins := { s.pins with keyA := level }, svc := { s.svc with keyA := k } }
  | .liveB => { s with pins := { s.pins with keyB := level }, svc := { s.svc with keyB := k } }

/-- R102, R103: a press is confirmed. -/
def liveKeyPressed (key : LiveInput) (s : State) : State :=
  if s.control.running ∧ (liveKeyOf s.svc key).filter ≠ .pressed then
    (setLiveKey key .pressed false s).serve (fun env sv => livePress env key sv)
  else s

/-- LIVE_KEY_PRESS (R102, R103); nothing from PRESSED, or in CONFIG. -/
def execLiveKeyPress (key : LiveInput) (s : State) : Result := event (liveKeyPressed key) s

/-- R102, R103: a release is confirmed. -/
def liveKeyReleased (key : LiveInput) (s : State) : State :=
  if s.control.running ∧ (liveKeyOf s.svc key).filter = .pressed then
    (setLiveKey key .released true s).serve (fun env sv => liveRelease env key sv)
  else s

/-- LIVE_KEY_RELEASE (R102, R103); nothing but from PRESSED in RUN. -/
def execLiveKeyRelease (key : LiveInput) (s : State) : Result := event (liveKeyReleased key) s

/-- R102: the key leaves UNSETTLED for RELEASED. -/
def liveKeySettled (key : LiveInput) (s : State) : State :=
  if s.control.running ∧ (liveKeyOf s.svc key).filter = .unsettled then
    setLiveKey key .released true s
  else s

/-- LIVE_KEY_SETTLED (R102); nothing but from UNSETTLED in RUN. -/
def execLiveKeySettled (key : LiveInput) (s : State) : Result := event (liveKeySettled key) s

/-! ## Clips -/

/-- R105. -/
def workClipArm (tag : Byte) (channel clipId length : Nat) (condition : Option StartCondition)
    (latestStart : Nat) (s : State) : State :=
  answerWith tag .clipArm
    (fun env sv => clipArm env channel clipId length condition latestStart sv) s

/-- CLIP_ARM (R105). -/
def execClipArm (tag : Byte) (channel clipId length : Nat) (condition : Option StartCondition)
    (latestStart : Nat) (s : State) : Result :=
  request tag .clipArm (workClipArm tag channel clipId length condition latestStart) s

/-- R108. -/
def workClipDisarm (tag : Byte) (channel clipId : Nat) (s : State) : State :=
  answerWith tag .clipDisarm (fun env sv => clipDisarm env channel clipId sv) s

/-- CLIP_DISARM (R108). -/
def execClipDisarm (tag : Byte) (channel clipId : Nat) (s : State) : Result :=
  request tag .clipDisarm (workClipDisarm tag channel clipId) s

/-- R110, R111. -/
def workClipStart (tag : Byte) (channel : Nat) (s : State) : State :=
  answerWith tag .clipStart (fun env sv => clipStart env channel sv) s

/-- CLIP_START (R110, R111). -/
def execClipStart (tag : Byte) (channel : Nat) (s : State) : Result :=
  request tag .clipStart (workClipStart tag channel) s

/-- R118. -/
def workClipStop (tag : Byte) (channel : Nat) (s : State) : State :=
  answerWith tag .clipStop (fun env sv => clipStop env channel sv) s

/-- CLIP_STOP (R118). -/
def execClipStop (tag : Byte) (channel : Nat) (s : State) : Result :=
  request tag .clipStop (workClipStop tag channel) s

/-- R119. -/
def workModeScripted (tag : Byte) (channel : Nat) (s : State) : State :=
  answerWith tag .channelMode (fun env sv => modeScripted env channel sv) s

/-- CHANNEL_MODE_SCRIPTED (R119). -/
def execChannelModeScripted (tag : Byte) (channel : Nat) (s : State) : Result :=
  request tag .channelMode (workModeScripted tag channel) s

/-- R119. -/
def workModeStanding (tag : Byte) (channel clipId length : Nat) (s : State) : State :=
  answerWith tag .channelMode (fun env sv => modeStanding env channel clipId length sv) s

/-- CHANNEL_MODE_STANDING (R119). -/
def execChannelModeStanding (tag : Byte) (channel clipId length : Nat) (s : State) : Result :=
  request tag .channelMode (workModeStanding tag channel clipId length) s

/-- R123. -/
def workChannelStatus (tag : Byte) (channel : Nat) (s : State) : State :=
  s.reply tag .channelStatus (channelStatus s.env s.svc channel)

/-- CHANNEL_STATUS (R123). -/
def execChannelStatus (tag : Byte) (channel : Nat) (s : State) : Result :=
  request tag .channelStatus (workChannelStatus tag channel) s

/-- R115: the count can pass a latest start only while the show clock runs, or has passed it. -/
def clockCanPass (s : State) (channel : ChannelId) : Bool :=
  match (look s.control.cfg.channels channel).auditorium, (look s.svc.channels channel).active with
  | some a, some k =>
    (s.cue.get a).running || decide (k.desc.latestStart < (s.cue.get a).clock)
  | _, _ => false

/-- LATEST_START_PASSED (R115); nothing for a channel whose clip has no latest start, does not wait,
or whose clock is HELD short of it. -/
def execLatestStartPassed (channel : ChannelId) (s : State) : Result :=
  event (fun s =>
    if clockCanPass s channel then s.serve (fun env sv => latestPassed env channel sv) else s) s

/-- RESUME_LIMIT_EXPIRY (R117). -/
def execResumeLimitExpiry (channel : ChannelId) (s : State) : Result :=
  event (fun s => s.serve (fun env sv => resumeLimitExpired env channel sv)) s

end Sys2Proof.Machine
end

