-- ==== Sys2Proof/Machine/CallCommands.lean ====
section
/-! DEFINITION. The requests and events of the call scheduler (R126-R146) and the end of a chime. -/

namespace Sys2Proof.Machine

/-- R126. -/
def workCallPost (tag : Byte) (call : CallFields) (s : State) : State :=
  answerWith tag .callPost (fun env sv => callPost env call sv) s

/-- CALL_POST (R126). -/
def execCallPost (tag : Byte) (call : CallFields) (s : State) : Result :=
  request tag .callPost (workCallPost tag call) s

/-- R130. -/
def workCallRelease (tag : Byte) (callId : Nat) (s : State) : State :=
  answerWith tag .callRelease (fun _ sv => callRelease callId sv) s

/-- CALL_RELEASE (R130). -/
def execCallRelease (tag : Byte) (callId : Nat) (s : State) : Result :=
  request tag .callRelease (workCallRelease tag callId) s

/-- R139. -/
def workCallEnd (tag : Byte) (callId : Nat) (s : State) : State :=
  answerWith tag .callEnd (fun env sv => callEnd env callId sv) s

/-- CALL_END (R139). -/
def execCallEnd (tag : Byte) (callId : Nat) (s : State) : Result :=
  request tag .callEnd (workCallEnd tag callId) s

/-- R132. -/
def workCallCancel (tag : Byte) (callId : Nat) (s : State) : State :=
  answerWith tag .callCancel (fun env sv => callCancel env callId sv) s

/-- CALL_CANCEL (R132). -/
def execCallCancel (tag : Byte) (callId : Nat) (s : State) : Result :=
  request tag .callCancel (workCallCancel tag callId) s

/-- R146. -/
def workCallStatus (tag : Byte) (callId : Nat) (s : State) : State :=
  s.reply tag .callStatus (callStatus s.svc callId)

/-- CALL_STATUS (R146). -/
def execCallStatus (tag : Byte) (callId : Nat) (s : State) : Result :=
  request tag .callStatus (workCallStatus tag callId) s

/-- R129: takes the oldest finished record. -/
def takeFinished (sv : Services) : Answer × Services :=
  match sv.finished with
  | [] => (.refuse .empty, sv)
  | r :: rest => (.plain .ok (encodeFinished r), { sv with finished := rest })

/-- R129. -/
def workCallFinished (tag : Byte) (s : State) : State :=
  answerWith tag .callFinished (fun _ sv => takeFinished sv) s

/-- CALL_FINISHED (R129). -/
def execCallFinished (tag : Byte) (s : State) : Result := request tag .callFinished (workCallFinished tag) s

/-- CALL_EXPIRY (R131). -/
def execCallExpiry (callId : Nat) (s : State) : Result :=
  event (fun s => s.serve (fun env sv => callExpired env callId sv)) s

/-- SPACING_EXPIRY (R143). -/
def execSpacingExpiry (callId : Nat) (s : State) : Result :=
  event (fun s => s.serve (fun _ sv => spacingExpired callId sv)) s

/-- BREAK_EXPIRY (R136). -/
def execBreakExpiry (callId : Nat) (s : State) : Result :=
  event (fun s => s.serve (fun env sv => breakExpired env callId sv)) s

/-- MIC_TIMER_EXPIRY (R139); nothing unless the call's microphone timer has run out. -/
def execMicTimerExpiry (callId : Nat) (s : State) : Result :=
  event (fun s => s.serve (fun env sv => micExpired env callId sv)) s

/-- R137: the chime's end reaches its owner. -/
def chimeEnded (owner : ChimeOwner) (env : Env) (sv : Services) : Services :=
  match owner with
  | .call id => callChimeEnded env id sv
  | .window a => admitChimeEnded env a sv

/-- CHIME_END (R137, R143, R158); nothing when the owner's chime does not sound. -/
def execChimeEnd (owner : ChimeOwner) (s : State) : Result :=
  event (fun s => s.serve (chimeEnded owner)) s

end Sys2Proof.Machine
end

