-- ==== Sys2Proof/Machine/Entrances.lean ====
section
/-! DEFINITION. The requests and events of the entrance controller (R149-R163). -/

namespace Sys2Proof.Machine

/-- R149: the level that reads open, or closed. -/
def sensorLevel (p : SensorPolarity) (isOpen : Bool) : Bool :=
  match p with
  | .openHigh => isOpen
  | .openLow => !isOpen

/-- R149: the sensor line of an entrance stands at a reading. -/
def setSensor (e : EntranceId) (isOpen : Bool) (s : State) : State :=
  let level := sensorLevel (look s.control.cfg.entrances e).polarity isOpen
  { s with
    pins := { s.pins with sensors := put s.pins.sensors e level }
    svc := putEntrance e { look s.svc.entrances e with sample := some level } s.svc }

/-- R149: a sensor event; nothing when the entrance is sensed so already. -/
def entranceEvent (e : EntranceId) (isOpen : Bool) (s : State) : State :=
  if (look s.svc.entrances e).sensed = sensedOf isOpen then s
  else (setSensor e isOpen s).serve (fun env sv => sensorEvent env e isOpen sv)

/-- ENTRANCE_SENSOR_EVENT (R149, R150, R157, R159). -/
def execEntranceSensorEvent (entrance : EntranceId) (isOpen : Bool) (s : State) : Result :=
  event (entranceEvent entrance isOpen) s

/-- R152: the house closes: the lamps, the reports to the follower, the detector and the engine, the
holds. The follower takes its report before the engine, so a reset flag has set the clock to 0 when a
standing clip that waits ends STOPPED (DESIGN CHOICE, log 64). -/
def closeHouse (a : Aud) (resetFlag : Bool) (s : State) : State :=
  let s1 := s.serve (fun env sv => sealHouse env a sv)
  let s2 := s1.updCue a (CueFollower.houseClosed resetFlag)
  let s3 := s2.updQuiet a (fun q => { q with longestGap := none })
  (s3.serve (fun env sv => engineHouseClosed env a sv)).serve (fun env sv => judgeHoldings env a sv)

/-- R152. The auditorium and the flag are checked before the operating state (DESIGN CHOICE, log 66). -/
def workHouseClose (tag : Byte) (auditorium : Nat) (resetFlag : Option Bool) (s : State) : State :=
  match audOf auditorium, resetFlag with
  | some a, some flag =>
    if !s.control.running ∨ (s.svc.houses.get a).state ≠ .opened then
      s.reply tag .houseClose (.refuse .state)
    else (closeHouse a flag s).reply tag .houseClose (.plain .ok [])
  | _, _ => s.reply tag .houseClose (.refuse .range)

/-- HOUSE_CLOSE (R152). -/
def execHouseClose (tag : Byte) (auditorium : Nat) (resetFlag : Option Bool) (s : State) : Result :=
  request tag .houseClose (workHouseClose tag auditorium resetFlag) s

/-- R153. The auditorium is checked before the operating state (DESIGN CHOICE, log 66). -/
def workHouseOpen (tag : Byte) (auditorium : Nat) (s : State) : State :=
  match audOf auditorium with
  | none => s.reply tag .houseOpen (.refuse .range)
  | some a =>
    if !s.control.running ∨ (s.svc.houses.get a).state = .opened then
      s.reply tag .houseOpen (.refuse .state)
    else
      ((s.serve (fun env sv => openHouse env a sv)).updCue a CueFollower.houseOpened).reply tag
        .houseOpen (.plain .ok [])

/-- HOUSE_OPEN (R153). -/
def execHouseOpen (tag : Byte) (auditorium : Nat) (s : State) : Result :=
  request tag .houseOpen (workHouseOpen tag auditorium) s

/-- R155: the answer of ADMIT-OPEN: the house state and the window time in force. -/
def admitOpenAnswer (env : Env) (a : Aud) (seconds : Nat) (r : Status × Services) :
    Answer × Services :=
  match r.1 with
  | .ok =>
    (.plain .ok (u8 (houseCode (r.2.houses.get a).state) ++ u16 (windowTime env a seconds)), r.2)
  | st => (.refuse st, r.2)

/-- R155. -/
def workAdmitOpen (tag : Byte) (auditorium seconds : Nat) (closeOnMusic : Option Bool) (s : State) :
    State :=
  match audOf auditorium, closeOnMusic with
  | some a, some m =>
    answerWith tag .admitOpen (fun env sv =>
      admitOpenAnswer env a seconds (admitOpen env a seconds m .request sv)) s
  | _, _ => s.reply tag .admitOpen (.refuse .range)

/-- ADMIT_OPEN (R155). -/
def execAdmitOpen (tag : Byte) (auditorium seconds : Nat) (closeOnMusic : Option Bool) (s : State) :
    Result :=
  request tag .admitOpen (workAdmitOpen tag auditorium seconds closeOnMusic) s

/-- R156: the answer of ADMIT-CLOSE: the new house state. -/
def admitCloseAnswer (a : Aud) (r : Status × Services) : Answer × Services :=
  match r.1 with
  | .ok => (.plain .ok (u8 (houseCode (r.2.houses.get a).state)), r.2)
  | st => (.refuse st, r.2)

/-- R156. The auditorium is checked before the operating state (DESIGN CHOICE, log 66). -/
def workAdmitClose (tag : Byte) (auditorium : Nat) (s : State) : State :=
  match audOf auditorium with
  | some a =>
    answerWith tag .admitClose (fun env sv => admitCloseAnswer a (admitClose env a .request sv)) s
  | none => s.reply tag .admitClose (.refuse .range)

/-- ADMIT_CLOSE (R156). -/
def execAdmitClose (tag : Byte) (auditorium : Nat) (s : State) : Result :=
  request tag .admitClose (workAdmitClose tag auditorium) s

/-- WINDOW_EXPIRY (R156); nothing but in ADMITTING with the window timer run out. -/
def execWindowExpiry (a : Aud) (s : State) : Result :=
  event (fun s => s.serve (fun env sv => windowExpired env a sv)) s

/-- GRACE_EXPIRY (R157); nothing but in CLOSING. -/
def execGraceExpiry (a : Aud) (s : State) : Result :=
  event (fun s => s.serve (fun env sv => graceExpired env a sv)) s

/-- R162. -/
def workEntranceStatus (tag : Byte) (auditorium : Nat) (s : State) : State :=
  s.reply tag .entranceStatus (entranceStatus s.env s.svc auditorium)

/-- ENTRANCE_STATUS (R162). -/
def execEntranceStatus (tag : Byte) (auditorium : Nat) (s : State) : Result :=
  request tag .entranceStatus (workEntranceStatus tag auditorium) s

/-- R163; 255 names all entrances. -/
def clearLatches (entrance : Nat) (sv : Services) : Answer × Services :=
  if entrance = 255 then (.plain .ok [], allEntrances.foldl clearLatch sv)
  else
    match entranceOf entrance with
    | some e => (.plain .ok [], clearLatch sv e)
    | none => (.refuse .range, sv)

/-- R163. -/
def workEntranceClear (tag : Byte) (entrance : Nat) (s : State) : State :=
  answerWith tag .entranceClear (fun _ sv => clearLatches entrance sv) s

/-- ENTRANCE_CLEAR (R163). -/
def execEntranceClear (tag : Byte) (entrance : Nat) (s : State) : Result :=
  request tag .entranceClear (workEntranceClear tag entrance) s

end Sys2Proof.Machine
end

