-- ==== Sys2Proof/Machine/ConsoleCommands.lean ====
section
/-! DEFINITION. The technician console (spec/10): its states, line editing, the parse of a command
line, and the commands. A console row of the table is the carriage return that ends the line which
spells the command (log 15). -/

namespace Sys2Proof.Machine

/-! ## Words the console shows (R184, log 40) -/

/-- spec/01 section 1.1. -/
def kindText : ZoneKind → String
  | .unused => "UNUSED"
  | .hallLoop => "HALL-LOOP"
  | .foyerLoop => "FOYER-LOOP"
  | .foyerSpeaker => "FOYER-SPEAKER"
  | .lobby => "LOBBY"
  | .description => "DESCRIPTION"

/-- spec/01 section 1.1. -/
def driveText : DriveState → String
  | .unknown => "UNKNOWN"
  | .good => "GOOD"
  | .degraded => "DEGRADED"
  | .failed => "FAILED"

/-- R26. -/
def moduleText : ModuleState → String
  | .unknown => "UNKNOWN"
  | .absent => "ABSENT"
  | .notReady => "NOT-READY"
  | .good => "GOOD"
  | .warn => "WARN"
  | .fault => "FAULT"

/-- spec/08 section 8.2. -/
def houseText : HouseState → String
  | .opened => "OPEN"
  | .sealed => "SEALED"
  | .admitting => "ADMITTING"
  | .closing => "CLOSING"

/-- A field that may be none. -/
def orNone {α : Type} (f : α → TextField) : Option α → TextField
  | some x => f x
  | none => .text "none"

/-- A number as a field. -/
def numberField (n : Nat) : TextField := .number (n : Int)

/-- Yes or no as a field. -/
def yesNoText (b : Bool) : TextField := .text (if b then "yes" else "no")

/-- spec/01 section 1.2: a claim as rank, claimant kind and id. -/
def claimFields (c : Claim) : List TextField :=
  let (kind, id) : String × TextField := match c.who with
    | .override => ("OVERRIDE", .text "none")
    | .call n => ("CALL", numberField n)
    | .live d => ("LIVE", numberField d.val)
    | .clip d => ("CLIP", numberField d.val)
    | .window a => ("ADMIT", numberField (audNumber a))
    | .test .link => ("TEST", .text "LINK")
    | .test .console => ("TEST", .text "CONSOLE")
  [numberField c.rank, .text kind, id]

/-! ## Result lines (R184) -/

/-- R184: the time left the `s` line shows, in seconds. -/
def houseSeconds (h : House) : Nat :=
  match h.state with
  | .admitting => secondsLeft (h.windowLeft.getD 0)
  | .closing => secondsLeft (h.graceLeft.getD 0)
  | _ => 0

/-- R184: the `s` line of an auditorium. -/
def statusLine (s : State) (a : Aud) : List TextField :=
  let c := s.cue.get a
  let h := s.svc.houses.get a
  [numberField (audNumber a), .text (if s.control.running then "RUN" else "CONFIG"),
   .text (houseText h.state), numberField c.position, numberField c.clock,
   .text (if c.running then "RUNNING" else "HELD"),
   numberField (match c.fire with | some f => f.number | none => 0), numberField (houseSeconds h)]

/-- R184: the first line of `z n`. -/
def zoneLine (env : Env) (sv : Services) (z : ZoneId) : List TextField :=
  let c := look env.cfg.zones z
  let r := look sv.zones z
  [numberField z.val, .text (kindText c.kind), orNone (fun a => numberField (audNumber a)) c.auditorium,
   numberField c.level, .text (if c.mute then "on" else "off"), .text (driveText r.drive),
   numberField (if r.backoff then 6 else 0), numberField (effectiveAttenuation c r),
   numberField r.holds]

/-- R184: the second line of `z n`. -/
def zoneClaimsLine (sv : Services) (z : ZoneId) : List TextField :=
  let r := look sv.zones z
  let active := match r.active with | some c => claimFields c | none => [TextField.text "HOME"]
  let stack := (r.stack.reverse.map claimFields).flatten
  let tests := [r.testLink, r.testConsole].filterMap (fun t => t.map (fun n => numberField (secondsLeft n)))
  active ++ stack ++ tests

/-- spec/01 section 1.1. -/
def foyerHomeText : FoyerHome → String
  | .aux => "AUX"
  | .silence => "SILENCE"

/-- R23: the fields of ZONE-STATUS that the two lines of R184 do not list: modules or none, resistance
window, foyer home, override flag. They are shown in a third line, behind R184's two (DESIGN CHOICE,
log 45). -/
def zoneRestLine (env : Env) (z : ZoneId) : List TextField :=
  let c := look env.cfg.zones z
  (if c.modules = [] then [.text "none"] else c.modules.map (fun m => numberField (moduleNumber m)))
    ++ [numberField c.windowLow, numberField c.windowHigh, .text (foyerHomeText c.foyerHome),
      yesNoText c.flagged]

/-- R184: the two lines of `m n`. R46 says that the line shows the fields of one module, R184 lists no
capabilities and no protective queue entry: the model shows those of R184 (DESIGN CHOICE, log 45). -/
def moduleLines (s : State) (m : ModuleId) : List (List TextField) :=
  let r := look s.sup.modules m
  let cfg := s.control.cfg
  [[numberField (moduleNumber m), .text (moduleText r.state), orNone TextField.hex r.identity,
    .text (match r.outputEnabled with | none => "unknown" | some true => "yes" | some false => "no"),
    yesNoText r.tripped, numberField r.run, yesNoText (pollEnabled cfg m)],
   [orNone numberField r.resistance, orNone TextField.number r.temperature,
    .hex (BitVec.ofNat 16 (latchBits r)), .hex (BitVec.ofNat 16 (wordFaultBits r.carried)),
    orNone (fun z : ZoneId => numberField z.val) (loopZoneOf cfg m)]]

/-! ## Commands (R183, R185) -/

/-- R183: the commands. -/
inductive ConsoleCommand where
  | status
  | zone (n : Nat)
  | module_ (n : Nat)
  | test (n : Nat) (start : Bool)
  | go (n : Nat)
  | read (m w : Nat)
  deriving DecidableEq, Repr

/-- A service's status shown on the console. -/
def showService (s : State) (r : Status × Services) : State := { s with svc := r.2 }.showStatus r.1

/-- R183: `s`. -/
def runStatus (s : State) : State := s.show [statusLine s .one, statusLine s .two]

/-- R183: `z n`. -/
def runZone (n : Nat) (s : State) : State :=
  match zoneOf n with
  | some z => s.show [zoneLine s.env s.svc z, zoneClaimsLine s.svc z, zoneRestLine s.env z]
  | none => s.showStatus .range

/-- R183: `m n`. -/
def runModule (n : Nat) (s : State) : State :=
  match moduleOf n with
  | some m => s.show (moduleLines s m)
  | none => s.showStatus .range

/-- R183: `t n 1`. -/
def runTestStart (n : Nat) (s : State) : State := showService s (startTest s.env .console n s.svc)

/-- R183: `t n 0`. -/
def runTestStop (n : Nat) (s : State) : State := showService s (stopTest s.env .console n s.svc)

/-- R55, R183: `g a`. The auditorium is checked before the operating state, so another than 1 or 2 is
answered RANGE in CONFIG too (DESIGN CHOICE, log 65). -/
def runGo (n : Nat) (s : State) : State :=
  match audOf n with
  | none => s.showStatus .range
  | some a => if s.control.running then arriveCue a (.advance .console) s else s.showStatus .state

/-- R37, R183: `r m w`. -/
def runRead (m w : Nat) (s : State) : State :=
  match passCheck s m w false with
  | .error st => s.showStatus st
  | .ok k => beginPass { asker := .console, module_ := k, word := w, value := none } s

/-- R183: a command goes to its owner. -/
def runCommand (c : ConsoleCommand) (s : State) : State :=
  match c with
  | .status => runStatus s
  | .zone n => runZone n s
  | .module_ n => runModule n s
  | .test n true => runTestStart n s
  | .test n false => runTestStop n s
  | .go n => runGo n s
  | .read m w => runRead m w s

/-- R183: an argument fits the values an argument has. -/
def argLegal (n : Nat) : Bool := decide (n ≤ 65535)

/-- R183: a command's arguments are within 0-65,535. -/
def ConsoleCommand.legal : ConsoleCommand → Bool
  | .status => true
  | .zone n => argLegal n
  | .module_ n => argLegal n
  | .test n _ => argLegal n
  | .go n => argLegal n
  | .read m w => argLegal m && argLegal w

/-- R183: a malformed line is answered with `?` and a prompt. -/
def malformed (s : State) : State := s.show [[.text "?"]]

/-- The console changed. -/
def State.updConsole (s : State) (f : Console → Console) : State := { s with console := f s.console }

/-- R183, R185: the line has ended and spells a command, or is malformed. -/
def endLine (c : Option ConsoleCommand) (s : State) : State :=
  let s1 := s.updConsole (fun k => { k.say [.lineEnd] with state := .executing, line := [] })
  match c with
  | some cmd => if cmd.legal then runCommand cmd s1 else malformed s1
  | none => malformed s1

/-- A console row: the carriage return that ends the line which spells the command; nothing but in
EDITING (log 15). -/
def commandRow (c : ConsoleCommand) (s : State) : Result :=
  event (fun s => if s.console.state = .editing then endLine (some c) s else s) s

/-- CONSOLE_STATUS (R184). -/
def execConsoleStatus (s : State) : Result := commandRow .status s

/-- CONSOLE_ZONE_STATUS (R23, R184). -/
def execConsoleZoneStatus (zone : Nat) (s : State) : Result := commandRow (.zone zone) s

/-- CONSOLE_MODULE_STATUS (R46, R184). -/
def execConsoleModuleStatus (mod : Nat) (s : State) : Result := commandRow (.module_ mod) s

/-- CONSOLE_TEST_START (R19). -/
def execConsoleTestStart (zone : Nat) (s : State) : Result := commandRow (.test zone true) s

/-- CONSOLE_TEST_STOP (R20). -/
def execConsoleTestStop (zone : Nat) (s : State) : Result := commandRow (.test zone false) s

/-- SOFT_CUE (R55). -/
def execSoftCue (auditorium : Nat) (s : State) : Result := commandRow (.go auditorium) s

/-- CONSOLE_AMP_READ (R37, R38). -/
def execConsoleAmpRead (mod word : Nat) (s : State) : Result := commandRow (.read mod word) s

/-! ## The parse of a line (R183) -/

/-- The words of a line; `word` is the word being read, last character first. -/
def wordsOf : List Byte → List Byte → List (List Byte)
  | [], word => if word = [] then [] else [word.reverse]
  | c :: rest, word =>
    if c = 0x20 then (if word = [] then wordsOf rest [] else word.reverse :: wordsOf rest [])
    else wordsOf rest (c :: word)

/-- A decimal digit. -/
def isDigit (c : Byte) : Bool := decide (0x30 ≤ c.toNat) && decide (c.toNat ≤ 0x39)

/-- R183: an argument of 1 to 5 digits with a value of 0-65,535. -/
def argOf (word : List Byte) : Option Nat :=
  let n := word.foldl (fun acc c => acc * 10 + (c.toNat - 0x30)) 0
  if word.all isDigit && between 1 5 word.length && argLegal n then some n else none

/-- The arguments of a line; none when one is malformed. -/
def argsOf : List (List Byte) → Option (List Nat)
  | [] => some []
  | w :: rest =>
    match argOf w, argsOf rest with
    | some n, some ns => some (n :: ns)
    | _, _ => none

/-- R183: the command a line spells; none when it is malformed. -/
def parseLine (line : List Byte) : Option ConsoleCommand :=
  match wordsOf line [] with
  | [letter] :: words =>
    match letter.toNat, argsOf words with
    | 0x73, some [] => some .status
    | 0x7A, some [n] => some (.zone n)
    | 0x6D, some [n] => some (.module_ n)
    | 0x74, some [n, 1] => some (.test n true)
    | 0x74, some [n, 0] => some (.test n false)
    | 0x67, some [n] => some (.go n)
    | 0x72, some [m, w] => some (.read m w)
    | _, _ => none
  | _ => none

/-! ## Characters (R181, R182) -/

/-- R182: a character taken in EDITING. The rule's table ends with the control characters; a byte of
0x80-0xFF, of which it does not speak, is ignored with them (DESIGN CHOICE, log 50). -/
def editCharacter (c : Byte) (s : State) : State :=
  let k := s.console
  if 0x20 ≤ c.toNat ∧ c.toNat ≤ 0x7E then
    if k.line = [] ∧ c = 0x23 then { s with console := { k with state := .comment } }
    else if k.line.length < 40 then
      { s with console := { k.say [.echo c] with line := k.line ++ [c] } }
    else s
  else if c = 0x08 then
    if k.line = [] then s else { s with console := { k.say [.rubOut] with line := k.line.dropLast } }
  else if c = 0x1B ∨ c = 0x7F then
    if k.line = [] then s
    else { s with console := { k.say [.dollar, .lineEnd, .prompt] with line := [] } }
  else if c = 0x0D then
    if k.line = [] then { s with console := k.say [.lineEnd, .prompt] }
    else endLine (parseLine k.line) s
  else s

/-- R182: a character taken in COMMENT. -/
def commentCharacter (c : Byte) (k : Console) : Console :=
  if c = 0x0D ∨ c = 0x1B ∨ c = 0x7F then { k.say [.prompt] with state := .editing } else k

/-- R181: whether the line stands at the stop level after a character. A break shows as a character
of zeros without its stop bit, and the line stays at the break level until another character comes or
CONSOLE_IDLE_EXPIRY tells that it has stood at the stop level (DESIGN CHOICE, log 44). -/
def atStopAfter (c : Byte) (framingError : Bool) : Bool := !(framingError && c == 0x00)

/-- R181: the receive line as a character leaves it, in every state of the console. -/
def lineAfter (c : Byte) (framingError : Bool) (s : State) : State :=
  { s with pins := { s.pins with consoleStop := atStopAfter c framingError } }

/-- R181, R182, R185: what the console does with a character. One with a framing error is ignored in
COMMENT as in EDITING, so a CR, ESC or DEL so received ends no comment: R182 speaks of EDITING alone
(DESIGN CHOICE, log 56). -/
def takeCharacter (c : Byte) (framingError : Bool) (s : State) : State :=
  match s.console.state with
  | .silent => s.updConsole (fun k => { k with idle := 0 })
  | .waking =>
    if framingError then s
    else s.updConsole (fun k => { k.say [.banner, .prompt] with state := .editing, line := [] })
  | .editing => if framingError then s else editCharacter c s
  | .comment => if framingError then s else s.updConsole (commentCharacter c)
  | .executing => s

/-- R181: a character arrives on the console line. -/
def consoleCharacter (c : Byte) (framingError : Bool) (s : State) : State :=
  takeCharacter c framingError (lineAfter c framingError s)

/-- CONSOLE_CHARACTER (R181, R182, R183). -/
def execConsoleCharacter (char : Byte) (framingError : Bool) (s : State) : Result :=
  event (consoleCharacter char framingError) s

/-- CONSOLE_IDLE_EXPIRY (R181): the receive line has stood at the stop level for 10 ms, after a break
too (log 44), and a SILENT console enters WAKING; in another state nothing. -/
def execConsoleIdleExpiry (s : State) : Result :=
  event (fun s =>
    if s.console.state = .silent then
      { s with
        console := { s.console with state := .waking, idle := 0 }
        pins := { s.pins with consoleStop := true } }
    else s) s

end Sys2Proof.Machine
end

