-- ==== Sys2Proof/Machine/LinkBytes.lean ====
section
/-! DEFINITION. The receiver (R166, R167) and the acceptance of the frames it finds (R168): a frame's
BODY is read field by field as spec/09 section 9.1 lays it out and becomes the work of the request it
carries. -/

namespace Sys2Proof.Machine

/-! ## The BODY of each request (spec/09 section 9.1) -/

/-- What a request asks of its owner; `none` is a BODY whose length the kind does not allow. -/
abbrev BodyWork := Option (State → State)

/-- A BODY of `n` bytes. -/
def ofLength (n : Nat) (b : List Byte) (work : State → State) : BodyWork :=
  if b.length = n then some work else none

/-- A request whose fields name no value is refused by its owner (log 31). -/
def refuseRange (tag : Byte) (kind : RequestKind) (s : State) : State :=
  s.reply tag kind (.refuse .range)

/-- MODE: an operating state. -/
def workMode (tag : Byte) (state : Nat) : State → State :=
  match state with
  | 0 => workModeConfig tag
  | 1 => workModeRun tag
  | _ => refuseRange tag .mode

/-- TEST-TONE: an action, start 1 or stop 0 (R19). -/
def workTest (tag : Byte) (zone action : Nat) : State → State :=
  match action with
  | 0 => workTestStop tag zone
  | 1 => workTestStart tag zone
  | _ => refuseRange tag .testTone

/-- CONFIG-WRITE: a record index and the record's fields. -/
def configBody (tag : Byte) (b : List Byte) : BodyWork :=
  match b with
  | [] => none
  | i :: fields =>
    match recordLength i.toNat with
    | some n => ofLength n fields (workConfigWrite tag i.toNat (decodeRecord i.toNat fields))
    | none =>
      if [3, 7, 8, 11, 13].contains fields.length then some (workConfigWrite tag i.toNat none)
      else none

/-- The bytes of an action after its kind (spec/03 section 3.5); none for an unknown kind. -/
def actionLength : Nat → Option Nat
  | 0 => some 1
  | 1 => some 1
  | 2 => some 3
  | 3 => some 0
  | 4 => some 1
  | 5 => some 0
  | _ => none

/-- An action from its kind and the bytes after it; none when a code names no value. -/
def actionOf (kind : Nat) (b : List Byte) : Option CueAction :=
  match kind with
  | 0 => some (.startClip (byteAt b 0))
  | 1 => some (.stopClip (byteAt b 0))
  | 2 => (yesNoOf (byteAt b 2)).map (CueAction.openAdmit (numAt b 0 2))
  | 3 => some .closeAdmit
  | 4 => some (.releaseCall (byteAt b 0))
  | 5 => some .mark
  | _ => none

/-- The actions a list of so many holds; the whole is none when the bytes do not end with the last
action. From an action of unknown kind on nothing can be cut, and the list holds that action. -/
def actionsOf : Nat → List Byte → Option (List (Option CueAction))
  | 0, [] => some []
  | 0, _ :: _ => none
  | _ + 1, [] => none
  | n + 1, k :: rest =>
    match actionLength k.toNat with
    | none => some [none]
    | some m =>
      match cut m rest with
      | none => none
      | some (fields, more) => (actionsOf n more).map (fun l => actionOf k.toNat fields :: l)

/-- The lengths of action lists of 1 to 4 actions of 1, 2 or 4 bytes (log 31). -/
def listLengths : List Nat := [1, 2, 3, 4, 5, 6, 7, 8, 9, 10, 11, 12, 13, 14, 16]

/-- CUE-WRITE: an auditorium, a cue number and an action list. -/
def cueWriteBody (tag : Byte) (b : List Byte) : BodyWork :=
  if !listLengths.contains (b.length - 4) then none
  else
    let work := workCueWrite tag (byteAt b 0) (numAt b 1 2)
    if between 1 4 (byteAt b 3) then (actionsOf (byteAt b 3) (b.drop 4)).map work
    else some (work [])

/-- CHANNEL-MODE: a channel and a mode, with a clip id and a length for STANDING (R119). -/
def channelModeBody (tag : Byte) (b : List Byte) : BodyWork :=
  match byteAt b 1, b.length with
  | 0, 2 => some (workModeScripted tag (byteAt b 0))
  | 1, 5 => some (workModeStanding tag (byteAt b 0) (byteAt b 2) (numAt b 3 2))
  | 0, _ => none
  | 1, _ => none
  | _, 2 => some (refuseRange tag .channelMode)
  | _, 5 => some (refuseRange tag .channelMode)
  | _, _ => none

/-- The bytes of a message's parameter (spec/07 section 7.1), those of its own kind only (DESIGN CHOICE,
log 62); none for an unknown kind. -/
def messageLength : Nat → Option Nat
  | 0 => some 0
  | 1 => some 2
  | 2 => some 1
  | _ => none

/-- A message from its kind and the bytes after it. -/
def messageOf (kind : Nat) (b : List Byte) : Option Message :=
  match kind with
  | 0 => some .noMessage
  | 1 => some (.stream (numAt b 0 2))
  | 2 => some (.liveMic (byteAt b 0))
  | _ => none

/-- A chime of a place. -/
def chimeOfCode : Nat → Option Chime
  | 0 => some .noChime
  | 1 => some .single
  | 2 => some .double
  | 3 => some .rising3
  | _ => none

/-- A call descriptor: `b` is its bytes, of which the message's parameter takes `m`. -/
def callFieldsOf (b : List Byte) (m : Nat) : CallFields :=
  let rest := b.drop (8 + m)
  { callId := byteAt b 0, priority := byteAt b 1, targets := bitsOf 32 (numAt b 2 4)
    chime := chimeOfCode (byteAt b 6), message := messageOf (byteAt b 7) (b.drop 8)
    repetitions := byteAt rest 0, spacing := numAt rest 1 2, whole := yesNoOf (byteAt rest 3)
    parked := (yesNoOf (byteAt rest 4)).map (fun now => !now), expiry := numAt rest 5 2 }

/-- CALL-POST: a descriptor, of 15, 17 or 16 bytes as its message has no parameter, a length or a time
(DESIGN CHOICE, log 62). -/
def callPostBody (tag : Byte) (b : List Byte) : BodyWork :=
  match messageLength (byteAt b 7) with
  | some m => ofLength (15 + m) b (workCallPost tag (callFieldsOf b m))
  | none => if between 15 17 b.length then some (refuseRange tag .callPost) else none

/-- FEED: slot, owner tag, fill count and 128 samples. -/
def feedBody (tag : Byte) (b : List Byte) : BodyWork :=
  ofLength 131 b (workFeed tag (byteAt b 0) (byteAt b 1) (byteAt b 2)
    (Vector.ofFn (fun i : Fin 128 => b.getD (3 + i.val) 0)))

/-- CLIP-ARM: a channel and a clip descriptor. -/
def clipArmBody (tag : Byte) (b : List Byte) : BodyWork :=
  let condition : Option StartCondition := match byteAt b 4 with
    | 0 => some .atCue
    | 1 => some .gap
    | _ => none
  ofLength 9 b (workClipArm tag (byteAt b 0) (byteAt b 1) (numAt b 2 2) condition (numAt b 5 4))

/-- The work a BODY asks for, requests of codes 0x01 to 0x1D. -/
def lowWork (kind : RequestKind) (tag : Byte) (b : List Byte) : BodyWork :=
  match kind with
  | .ident => ofLength 0 b (workIdent tag)
  | .reset => ofLength 0 b (workReset tag)
  | .noticeEnable => ofLength 2 b (workNoticeEnable tag (wordAt b 0))
  | .noticeResume => ofLength 0 b (workNoticeResume tag)
  | .noticeClear => ofLength 2 b (workNoticeClear tag (wordAt b 0))
  | .silenceSet => ofLength 1 b (workSilenceSet tag (byteAt b 0))
  | .mode => ofLength 1 b (workMode tag (byteAt b 0))
  | .configWrite => configBody tag b
  | .configRead => ofLength 1 b (workConfigRead tag (byteAt b 0))
  | .settingsSave => ofLength 0 b (workSettingsSave tag)
  | .settingsLoad => ofLength 0 b (workSettingsLoad tag)
  | .zoneSet => ofLength 3 b (workZoneSet tag (byteAt b 0) (byteAt b 1) (yesNoOf (byteAt b 2)))
  | .zoneStatus => ofLength 1 b (workZoneStatus tag (byteAt b 0))
  | .testTone => ofLength 2 b (workTest tag (byteAt b 0) (byteAt b 1))
  | .pollSet => ofLength 3 b (workPollSet tag (wordAt b 0) (byteAt b 2))
  | .moduleStatus => ofLength 1 b (workModuleStatus tag (byteAt b 0))
  | .moduleClear => ofLength 1 b (workModuleClear tag (byteAt b 0))
  | .moduleRestore => ofLength 1 b (workModuleRestore tag (byteAt b 0))
  | .ampRead => ofLength 2 b (workAmpRead tag (byteAt b 0) (byteAt b 1))
  | .ampWrite => ofLength 4 b (workAmpWrite tag (byteAt b 0) (byteAt b 1) (wordAt b 2))
  | _ => none

/-- The work a BODY asks for, requests of codes 0x20 to 0x35. -/
def midWork (kind : RequestKind) (tag : Byte) (b : List Byte) : BodyWork :=
  match kind with
  | .cueWrite => cueWriteBody tag b
  | .cueErase => ofLength 3 b (workCueErase tag (byteAt b 0) (numAt b 1 2))
  | .cueRead => ofLength 3 b (workCueRead tag (byteAt b 0) (numAt b 1 2))
  | .cueGo => ofLength 1 b (workCueGo tag (byteAt b 0))
  | .cueSet => ofLength 3 b (workCueSet tag (byteAt b 0) (numAt b 1 2))
  | .cueStatus => ofLength 1 b (workCueStatus tag (byteAt b 0))
  | .captureRead => ofLength 1 b (workCaptureRead tag (byteAt b 0))
  | .gapStatus => ofLength 1 b (workGapStatus tag (byteAt b 0))
  | .feed => feedBody tag b
  | .streamStatus => ofLength 0 b (workStreamStatus tag)
  | .clipArm => clipArmBody tag b
  | .clipStart => ofLength 1 b (workClipStart tag (byteAt b 0))
  | .clipStop => ofLength 1 b (workClipStop tag (byteAt b 0))
  | .clipDisarm => ofLength 2 b (workClipDisarm tag (byteAt b 0) (byteAt b 1))
  | .channelMode => channelModeBody tag b
  | .channelStatus => ofLength 1 b (workChannelStatus tag (byteAt b 0))
  | _ => none

/-- The work a BODY asks for, requests of codes 0x38 to 0x45. The reset flag of HOUSE-CLOSE has no list
of values in the spec; it is read as yes and no are, 0 set and 1 clear (DESIGN CHOICE, log 49). -/
def highWork (kind : RequestKind) (tag : Byte) (b : List Byte) : BodyWork :=
  match kind with
  | .callPost => callPostBody tag b
  | .callRelease => ofLength 1 b (workCallRelease tag (byteAt b 0))
  | .callEnd => ofLength 1 b (workCallEnd tag (byteAt b 0))
  | .callCancel => ofLength 1 b (workCallCancel tag (byteAt b 0))
  | .callStatus => ofLength 1 b (workCallStatus tag (byteAt b 0))
  | .callFinished => ofLength 0 b (workCallFinished tag)
  | .houseOpen => ofLength 1 b (workHouseOpen tag (byteAt b 0))
  | .houseClose => ofLength 2 b (workHouseClose tag (byteAt b 0) (yesNoOf (byteAt b 1)))
  | .admitOpen => ofLength 4 b (workAdmitOpen tag (byteAt b 0) (numAt b 1 2) (yesNoOf (byteAt b 3)))
  | .admitClose => ofLength 1 b (workAdmitClose tag (byteAt b 0))
  | .entranceStatus => ofLength 1 b (workEntranceStatus tag (byteAt b 0))
  | .entranceClear => ofLength 1 b (workEntranceClear tag (byteAt b 0))
  | _ => none

/-- The work a BODY asks for. -/
def bodyWork (kind : RequestKind) (tag : Byte) (b : List Byte) : BodyWork :=
  if lowKinds.contains kind then lowWork kind tag b
  else if midKinds.contains kind then midWork kind tag b
  else highWork kind tag b

/-! ## Acceptance (R168) -/

/-- R168: the checks of a valid frame, in order. -/
def acceptFrame (tag kind : Byte) (b : List Byte) (s : State) : State :=
  match kindOf kind with
  | none => sendImmediate tag 0xFF [Status.kind.code, kind] s
  | some k =>
    match bodyWork k tag b with
    | none => sendImmediate tag (replyCode k) [Status.length.code] s
    | some work => accept tag k work s

/-- R175, R177, R179: a valid frame has arrived; after an accepted RESET it is only counted. -/
def takeFrame (frame : List Byte) (s : State) : State :=
  let s1 := validFrame s
  if s.svc.link.accepting then
    acceptFrame (frame.getD 2 0) (frame.getD 3 0) ((frame.drop 4).take (byteAt frame 1 - 2)) s1
  else s1

/-! ## The receiver (R166, R167) -/

/-- The receiver's state (R166), as its buffer shows it. -/
inductive ReceiverState where
  | hunt
  | lengthByte
  | collect
  deriving DecidableEq, Repr

/-- R166: HUNT has no byte kept, LENGTH the start byte alone. -/
def LinkPort.receiver (l : LinkPort) : ReceiverState :=
  match l.buffer with
  | [] => .hunt
  | [_] => .lengthByte
  | _ => .collect

/-- The time a frame has from the arrival of its start byte, in milliseconds (R166). -/
def frameTime : Nat := 20

/-- R167: the CRC of a whole frame is right: the bytes from LEN to the end of BODY against the last
two bytes, low byte first. -/
def crcRight (frame : List Byte) : Bool :=
  let covered := (frame.drop 1).take (frame.length - 3)
  (crc16 covered).toNat == numAt frame (frame.length - 2) 2

/-- What an examination of the kept bytes finds at their front. -/
inductive Found where
  /-- A byte that begins no frame, or a frame to discard: one byte goes. -/
  | drop
  /-- A frame of so many bytes whose CRC is right. -/
  | frame (size : Nat)
  /-- A frame that is not complete yet. -/
  | wait
  deriving DecidableEq, Repr

/-- R166, R167: the kept bytes from a first byte on. -/
def examine (first : KeptByte) (rest : List KeptByte) : Found :=
  if first.byte ≠ 0xE7 then .drop
  else
    match rest with
    | [] => if frameTime ≤ first.age then .drop else .wait
    | len :: _ =>
      if !between 2 251 len.byte.toNat then .drop
      else if rest.length + 1 < len.byte.toNat + 4 then
        if frameTime ≤ first.age then .drop else .wait
      else if crcRight (((first :: rest).take (len.byte.toNat + 4)).map (·.byte)) then
        .frame (len.byte.toNat + 4)
      else .drop

/-- R166: the kept bytes examined until no frame can be taken from their front. Each turn of `n`
takes at least one byte. The frames found are taken in order. -/
def hunt : Nat → List KeptByte → State → State
  | 0, kept, s => s.updLink (fun l => { l with buffer := kept })
  | _ + 1, [], s => s.updLink (fun l => { l with buffer := [] })
  | n + 1, first :: rest, s =>
    match examine first rest with
    | .drop => hunt n rest s
    | .wait => s.updLink (fun l => { l with buffer := first :: rest })
    | .frame size =>
      let whole := first :: rest
      hunt n (whole.drop size) (takeFrame ((whole.take size).map (·.byte)) s)

/-- R166: the kept bytes are examined. -/
def examineAll (kept : List KeptByte) (s : State) : State := hunt kept.length kept s

/-- R166: a character arrives. With a framing error it is dropped, and discards the frame being
received. -/
def linkByte (byte : Byte) (framingError : Bool) (s : State) : State :=
  let kept := s.svc.link.buffer
  if framingError then examineAll kept.tail s
  else examineAll (kept ++ [{ byte := byte, age := 0 }]) s

/-- LINK_BYTE_RECEIVED (R166, R167, R168). -/
def execLinkByteReceived (byte : Byte) (framingError : Bool) (s : State) : Result :=
  event (linkByte byte framingError) s

/-- FRAME_TIMEOUT (R166): a frame is not complete 20 ms after its start byte; nothing in HUNT. -/
def execFrameTimeout (s : State) : Result :=
  event (fun s => if s.svc.link.buffer = [] then s else examineAll s.svc.link.buffer.tail s) s

end Sys2Proof.Machine
end

