-- ==== Sys2Proof/Machine/Tick.lean ====
section
/-! DEFINITION. One millisecond of the part's own time (log 3): its clocks count, its timers run, its
field lines are sampled, and the events that come due are put into the queue. -/

namespace Sys2Proof.Machine

/-! ## Counting -/

/-- A timer after one millisecond. -/
def tickTimer (t : Option Nat) : Option Nat := t.map (fun n => n - 1)

/-- A timer has run out. -/
def ranOut (t : Option Nat) : Bool := t == some 0

/-- A command that is due, if it is. -/
def dueIf (b : Bool) (c : Instr) : List Instr := if b then [c] else []

/-- R20: the limit timers of a zone. -/
def ZoneRecord.tick (r : ZoneRecord) : ZoneRecord :=
  { r with testLink := tickTimer r.testLink, testConsole := tickTimer r.testConsole }

/-- R92: a PLAYING slot plays 16 samples in a millisecond; R95: the starve timer. -/
def Slot.tick (sl : Slot) : Slot :=
  { sl with
    offset := if sl.state = .playing then sl.offset + 16 else sl.offset
    starve := tickTimer sl.starve }

/-- R117: the resume-limit timer. -/
def Channel.tick (c : Channel) : Channel :=
  { c with active := c.active.map (fun k => { k with resumeLeft := tickTimer k.resumeLeft }) }

/-- R131, R136, R139, R143: the timers of a call. -/
def Call.tick (k : Call) : Call :=
  { k with
    expiryLeft := tickTimer k.expiryLeft, spacingLeft := tickTimer k.spacingLeft
    micLeft := tickTimer k.micLeft, breakLeft := tickTimer k.breakLeft }

/-- R137: a chime sounds on. -/
def RunningChime.tick (c : RunningChime) : RunningChime := { c with left := c.left - 1 }

/-- R155, R157: the window and grace timers. -/
def House.tick (h : House) : House :=
  { h with windowLeft := tickTimer h.windowLeft, graceLeft := tickTimer h.graceLeft }

/-- R166, R175: the kept bytes age, the silence timer runs. -/
def LinkPort.tick (l : LinkPort) : LinkPort :=
  { l with
    buffer := l.buffer.map (fun k => { k with age := k.age + 1 })
    silenceLeft := tickTimer l.silenceLeft }

/-- The services after one millisecond; R125: the call clock. -/
def Services.tick (sv : Services) : Services :=
  { sv with
    zones := sv.zones.map ZoneRecord.tick, slots := sv.slots.map Slot.tick
    channels := sv.channels.map Channel.tick, calls := sv.calls.map Call.tick
    callClock := holdAt clockLimit sv.callClock, chimes := sv.chimes.map RunningChime.tick
    houses := ⟨sv.houses.one.tick, sv.houses.two.tick⟩, link := sv.link.tick }

/-- R27: the gap of the poll machine. -/
def PollState.tick : PollState → PollState
  | .gap elapsed => .gap (elapsed + 1)
  | p => p

/-- R48, R51: the show clock and the lockout timer. -/
def CueFollower.tick (c : CueFollower) : CueFollower :=
  { c with
    clock := if c.running then holdAt clockLimit c.clock else c.clock
    lockout := tickTimer c.lockout }

/-- R72: the gap length count and the open timer. -/
def QuietDetector.tick (q : QuietDetector) : QuietDetector :=
  { q with
    openLeft := tickTimer q.openLeft
    current := if q.state = .sound then q.current
      else q.current.map (fun g => { g with length := holdAt clockLimit g.length }) }

/-- R181: the wait of a SILENT console for a line at the stop level. -/
def Console.tick (lineAtStop : Bool) (c : Console) : Console :=
  if c.state = .silent then { c with idle := if lineAtStop then c.idle + 1 else 0 } else c

/-- The part's clocks and timers after one millisecond. -/
def State.count (s : State) : State :=
  { s with
    svc := s.svc.tick, sup := { s.sup with poll := s.sup.poll.tick }
    cue := ⟨s.cue.one.tick, s.cue.two.tick⟩, quiet := ⟨s.quiet.one.tick, s.quiet.two.tick⟩
    console := s.console.tick s.pins.consoleStop }

/-! ## What has run out -/

/-- The time a SILENT console waits, in milliseconds (R181). -/
def consoleWait : Nat := 10

/-- R166: a frame under way has not been completed in its time. -/
def frameDue (l : LinkPort) : List Instr :=
  dueIf (match l.buffer with | k :: _ => decide (frameTime ≤ k.age) | [] => false) .frameTimeout

/-- The link's silence timer, the console's and the supervisor's timers. -/
def portsDue (s : State) : List Instr :=
  dueIf (ranOut s.svc.link.silenceLeft) .silenceTimerExpiry
    ++ dueIf (decide (s.console.state = .silent) && decide (consoleWait ≤ s.console.idle))
        .consoleIdleExpiry
    ++ dueIf (match s.sup.poll with
        | .gap elapsed => decide (s.control.cfg.supervision.gap ≤ elapsed)
        | _ => false) .pollGapExpiry

/-- R20: the tests of a zone that have run their limit. -/
def zoneDue (sv : Services) (z : ZoneId) : List Instr :=
  dueIf (ranOut (look sv.zones z).testLink) (.testLimitExpiry z .link)
    ++ dueIf (ranOut (look sv.zones z).testConsole) (.testLimitExpiry z .console)

/-- The lockout and open timers, window and grace timers of an auditorium. -/
def audDue (s : State) (a : Aud) : List Instr :=
  dueIf (ranOut (s.cue.get a).lockout) (.lockoutExpiry a)
    ++ dueIf (ranOut (s.quiet.get a).openLeft) (.openTimerExpiry a)
    ++ dueIf (ranOut (s.svc.houses.get a).windowLeft) (.windowExpiry a)
    ++ dueIf (ranOut (s.svc.houses.get a).graceLeft) (.graceExpiry a)

/-- R92, R95: a block that has played to its end, a starve timer. -/
def slotDue (sv : Services) (i : SlotId) : List Instr :=
  let sl := look sv.slots i
  dueIf (decide (sl.state = .playing) && decide (sl.fillNow ≤ sl.offset)) (.blockPlayed i)
    ++ dueIf (ranOut sl.starve) (.starveTimerExpiry i)

/-- R115: the show clock has passed the latest start of a waiting clip. -/
def latestDue (s : State) (d : ChannelId) : Bool :=
  match (look s.control.cfg.channels d).auditorium, (look s.svc.channels d).active with
  | some a, some k =>
    k.state.waits && k.desc.latestStart != 0 && decide (k.desc.latestStart < (s.cue.get a).clock)
  | _, _ => false

/-- R115, R117: the timers of a channel. -/
def channelDue (s : State) (d : ChannelId) : List Instr :=
  dueIf (latestDue s d) (.latestStartPassed d)
    ++ dueIf (match (look s.svc.channels d).active with
        | some k => ranOut k.resumeLeft
        | none => false) (.resumeLimitExpiry d)

/-- R131, R136, R139, R143: the timers of a call. -/
def callDue (k : Call) : List Instr :=
  dueIf (ranOut k.expiryLeft) (.callExpiry k.desc.callId)
    ++ dueIf (ranOut k.spacingLeft) (.spacingExpiry k.desc.callId)
    ++ dueIf (ranOut k.breakLeft) (.breakExpiry k.desc.callId)
    ++ dueIf (ranOut k.micLeft) (.micTimerExpiry k.desc.callId)

/-- R137: a chime that has run its length. -/
def chimeDue (c : RunningChime) : List Instr := dueIf (decide (c.left = 0)) (.chimeEnd c.owner)

/-- Every timer that has run out, in the model's order (log 3). -/
def timersDue (s : State) : List Instr :=
  portsDue s ++ allZones.flatMap (zoneDue s.svc) ++ audDue s .one ++ audDue s .two
    ++ allSlots.flatMap (slotDue s.svc) ++ allChannels.flatMap (channelDue s)
    ++ s.svc.calls.flatMap callDue ++ s.svc.chimes.flatMap chimeDue

/-! ## Sampling (R16, R50, R102, R149) -/

/-- Two successive samples agree on a level. -/
def agree (last : Option Bool) (now : Bool) : Bool := last == some now

/-- R50: what the cue line's sample confirms. -/
def cueLineDue (s : State) (a : Aud) : List Instr :=
  let c := s.cue.get a
  let level := s.pins.cue.get a
  let active := level == activeLevel (s.control.cfg.auditoria.get a).cuePolarity
  if agree c.sample level then
    match c.filter, active with
    | .unsettled, b => [.cueLineSettled a b]
    | .released, true => [.cuePress a]
    | .pressed, false => [.cueLineRelease a]
    | _, _ => []
  else []

/-- R102: what a live key's sample confirms; the key is pressed when its line is low. -/
def liveKeyDue (key : LiveInput) (k : LiveKey) (level : Bool) : List Instr :=
  if agree k.sample level then
    match k.filter, level with
    | .unsettled, true => [.liveKeySettled key]
    | .unsettled, false => [.liveKeyPress key]
    | .released, false => [.liveKeyPress key]
    | .pressed, true => [.liveKeyRelease key]
    | _, _ => []
  else []

/-- R149: what an entrance sensor's sample confirms. -/
def sensorDue (s : State) (e : EntranceId) : List Instr :=
  let x := look s.svc.entrances e
  let level := look s.pins.sensors e
  let isOpen := level == sensorLevel (look s.control.cfg.entrances e).polarity true
  dueIf (agree x.sample level && x.sensed != sensedOf isOpen) (.entranceSensorEvent e isOpen)

/-- R16: what OVR's sample confirms. -/
def ovrDue (s : State) : List Instr :=
  if agree s.ovrSample s.pins.ovr && s.pins.ovr != s.svc.override then
    [if s.pins.ovr then .overrideAsserted else .overrideReleased]
  else []

/-- The lines sampled every millisecond in RUN (R50, R102). -/
def fastLinesDue (s : State) : List Instr :=
  if s.control.running then
    cueLineDue s .one ++ cueLineDue s .two ++ liveKeyDue .liveA s.svc.keyA s.pins.keyA
      ++ liveKeyDue .liveB s.svc.keyB s.pins.keyB
  else []

/-- The lines sampled every 10 ms (R16, R149). -/
def slowLinesDue (s : State) : List Instr :=
  if s.phase = 0 then ovrDue s ++ allEntrances.flatMap (sensorDue s) else []

/-- The samples of the lines sampled every millisecond. -/
def sampleFast (s : State) : State :=
  if s.control.running then
    { s with
      cue := ⟨{ s.cue.one with sample := some s.pins.cue.one },
              { s.cue.two with sample := some s.pins.cue.two }⟩
      svc := { s.svc with
        keyA := { s.svc.keyA with sample := some s.pins.keyA }
        keyB := { s.svc.keyB with sample := some s.pins.keyB } } }
  else s

/-- The samples of the lines sampled every 10 ms. -/
def sampleSlow (s : State) : State :=
  if s.phase = 0 then
    { s with
      ovrSample := some s.pins.ovr
      svc := { s.svc with
        entrances := Vector.ofFn (fun e : EntranceId =>
          { look s.svc.entrances e with sample := some (look s.pins.sensors e) }) } }
  else s

/-! ## The millisecond -/

/-- The millisecond of the 10 ms sampling period moves on. -/
def nextPhase (s : State) : State := { s with phase := (s.phase + 1) % 10 }

/-- What is left to do inside the part before its time goes on: a firing in progress, reports in
transit (log 6, log 32). -/
def finishWork (s : State) : State := (resumeFiring .two (resumeFiring .one s)).settled

/-- Everything that comes due in a millisecond, in the model's order (log 3): the timers, the lines,
and last the receiver's time, so that the frames FRAME_TIMEOUT may find, a new polarity among them
(R148), meet no line's event of this millisecond still waiting. -/
def dueNow (s : State) : List Instr :=
  timersDue s ++ fastLinesDue s ++ slowLinesDue s ++ frameDue s.svc.link

/-- One millisecond: what is left to do is done, the clocks count, the lines are sampled, and what
has come due joins the queue. The part's time stands while a reset holds (log 23). -/
def tick (s : State) : State :=
  if s.control.holding then s
  else
    let s1 := (finishWork s).count
    let s2 := nextPhase (sampleSlow (sampleFast s1))
    { s2 with pending := s2.pending ++ dueNow s1 }

end Sys2Proof.Machine
end

