-- ==== Sys2Proof/Machine/Dispatch.lean ====
section
/-! DEFINITION. Which meaning each command has. -/

namespace Sys2Proof.Machine

def exec (i : Instr) (s : State) : Host.Outcome State Fault Refusal :=
  match i with
  | .powerOn => Sys2Proof.Machine.execPowerOn s
  | .supplyDip => Sys2Proof.Machine.execSupplyDip s
  | .resetLine => Sys2Proof.Machine.execResetLine s
  | .resetEnd mode1 mode0 => Sys2Proof.Machine.execResetEnd mode1 mode0 s
  | .startLoadDone => Sys2Proof.Machine.execStartLoadDone s
  | .linkByteReceived byte framingError => Sys2Proof.Machine.execLinkByteReceived byte framingError s
  | .frameTimeout => Sys2Proof.Machine.execFrameTimeout s
  | .frameSent => Sys2Proof.Machine.execFrameSent s
  | .silenceTimerExpiry => Sys2Proof.Machine.execSilenceTimerExpiry s
  | .ident tag => Sys2Proof.Machine.execIdent tag s
  | .reset tag => Sys2Proof.Machine.execReset tag s
  | .noticeEnable tag kinds => Sys2Proof.Machine.execNoticeEnable tag kinds s
  | .noticeResume tag => Sys2Proof.Machine.execNoticeResume tag s
  | .noticeClear tag kinds => Sys2Proof.Machine.execNoticeClear tag kinds s
  | .silenceSet tag seconds => Sys2Proof.Machine.execSilenceSet tag seconds s
  | .modeRun tag => Sys2Proof.Machine.execModeRun tag s
  | .modeConfig tag => Sys2Proof.Machine.execModeConfig tag s
  | .configWrite tag index record => Sys2Proof.Machine.execConfigWrite tag index record s
  | .configRead tag index => Sys2Proof.Machine.execConfigRead tag index s
  | .settingsSave tag => Sys2Proof.Machine.execSettingsSave tag s
  | .settingsSaveDone readBack => Sys2Proof.Machine.execSettingsSaveDone readBack s
  | .settingsLoad tag => Sys2Proof.Machine.execSettingsLoad tag s
  | .settingsLoadDone => Sys2Proof.Machine.execSettingsLoadDone s
  | .settingsPageWriteTimeout => Sys2Proof.Machine.execSettingsPageWriteTimeout s
  | .zoneSet tag zone level mute => Sys2Proof.Machine.execZoneSet tag zone level mute s
  | .zoneStatus tag zone => Sys2Proof.Machine.execZoneStatus tag zone s
  | .testToneStart tag zone => Sys2Proof.Machine.execTestToneStart tag zone s
  | .testToneStop tag zone => Sys2Proof.Machine.execTestToneStop tag zone s
  | .testLimitExpiry zone source => Sys2Proof.Machine.execTestLimitExpiry zone source s
  | .overrideAsserted => Sys2Proof.Machine.execOverrideAsserted s
  | .overrideReleased => Sys2Proof.Machine.execOverrideReleased s
  | .pollSet tag modules gap => Sys2Proof.Machine.execPollSet tag modules gap s
  | .moduleStatus tag mod => Sys2Proof.Machine.execModuleStatus tag mod s
  | .moduleClear tag mod => Sys2Proof.Machine.execModuleClear tag mod s
  | .moduleRestore tag mod => Sys2Proof.Machine.execModuleRestore tag mod s
  | .ampRead tag mod word => Sys2Proof.Machine.execAmpRead tag mod word s
  | .ampWrite tag mod word value => Sys2Proof.Machine.execAmpWrite tag mod word value s
  | .busTransactionEnd value => Sys2Proof.Machine.execBusTransactionEnd value s
  | .busAnswerTimeout => Sys2Proof.Machine.execBusAnswerTimeout s
  | .pollGapExpiry => Sys2Proof.Machine.execPollGapExpiry s
  | .cuePress a => Sys2Proof.Machine.execCuePress a s
  | .cueLineRelease a => Sys2Proof.Machine.execCueLineRelease a s
  | .lockoutExpiry a => Sys2Proof.Machine.execLockoutExpiry a s
  | .cueGo tag auditorium => Sys2Proof.Machine.execCueGo tag auditorium s
  | .cueSet tag auditorium position => Sys2Proof.Machine.execCueSet tag auditorium position s
  | .cueWrite tag auditorium number actions => Sys2Proof.Machine.execCueWrite tag auditorium number actions s
  | .cueErase tag auditorium number => Sys2Proof.Machine.execCueErase tag auditorium number s
  | .cueRead tag auditorium number => Sys2Proof.Machine.execCueRead tag auditorium number s
  | .cueStatus tag auditorium => Sys2Proof.Machine.execCueStatus tag auditorium s
  | .captureRead tag auditorium => Sys2Proof.Machine.execCaptureRead tag auditorium s
  | .levelUpdate a samples => Sys2Proof.Machine.execLevelUpdate a samples s
  | .openTimerExpiry a => Sys2Proof.Machine.execOpenTimerExpiry a s
  | .gapStatus tag auditorium => Sys2Proof.Machine.execGapStatus tag auditorium s
  | .feed tag slot owner fill block => Sys2Proof.Machine.execFeed tag slot owner fill block s
  | .streamStatus tag => Sys2Proof.Machine.execStreamStatus tag s
  | .blockPlayed slot => Sys2Proof.Machine.execBlockPlayed slot s
  | .starveTimerExpiry slot => Sys2Proof.Machine.execStarveTimerExpiry slot s
  | .liveKeyPress key => Sys2Proof.Machine.execLiveKeyPress key s
  | .liveKeyRelease key => Sys2Proof.Machine.execLiveKeyRelease key s
  | .clipArm tag channel clipId length condition latestStart => Sys2Proof.Machine.execClipArm tag channel clipId length condition latestStart s
  | .clipDisarm tag channel clipId => Sys2Proof.Machine.execClipDisarm tag channel clipId s
  | .clipStart tag channel => Sys2Proof.Machine.execClipStart tag channel s
  | .clipStop tag channel => Sys2Proof.Machine.execClipStop tag channel s
  | .channelModeScripted tag channel => Sys2Proof.Machine.execChannelModeScripted tag channel s
  | .channelModeStanding tag channel clipId length => Sys2Proof.Machine.execChannelModeStanding tag channel clipId length s
  | .channelStatus tag channel => Sys2Proof.Machine.execChannelStatus tag channel s
  | .latestStartPassed channel => Sys2Proof.Machine.execLatestStartPassed channel s
  | .resumeLimitExpiry channel => Sys2Proof.Machine.execResumeLimitExpiry channel s
  | .callPost tag call => Sys2Proof.Machine.execCallPost tag call s
  | .callRelease tag callId => Sys2Proof.Machine.execCallRelease tag callId s
  | .callEnd tag callId => Sys2Proof.Machine.execCallEnd tag callId s
  | .callCancel tag callId => Sys2Proof.Machine.execCallCancel tag callId s
  | .callStatus tag callId => Sys2Proof.Machine.execCallStatus tag callId s
  | .callFinished tag => Sys2Proof.Machine.execCallFinished tag s
  | .callExpiry callId => Sys2Proof.Machine.execCallExpiry callId s
  | .spacingExpiry callId => Sys2Proof.Machine.execSpacingExpiry callId s
  | .breakExpiry callId => Sys2Proof.Machine.execBreakExpiry callId s
  | .micTimerExpiry callId => Sys2Proof.Machine.execMicTimerExpiry callId s
  | .chimeEnd owner => Sys2Proof.Machine.execChimeEnd owner s
  | .entranceSensorEvent entrance isOpen => Sys2Proof.Machine.execEntranceSensorEvent entrance isOpen s
  | .houseClose tag auditorium resetFlag => Sys2Proof.Machine.execHouseClose tag auditorium resetFlag s
  | .houseOpen tag auditorium => Sys2Proof.Machine.execHouseOpen tag auditorium s
  | .admitOpen tag auditorium seconds closeOnMusic => Sys2Proof.Machine.execAdmitOpen tag auditorium seconds closeOnMusic s
  | .admitClose tag auditorium => Sys2Proof.Machine.execAdmitClose tag auditorium s
  | .windowExpiry a => Sys2Proof.Machine.execWindowExpiry a s
  | .graceExpiry a => Sys2Proof.Machine.execGraceExpiry a s
  | .entranceStatus tag auditorium => Sys2Proof.Machine.execEntranceStatus tag auditorium s
  | .entranceClear tag entrance => Sys2Proof.Machine.execEntranceClear tag entrance s
  | .consoleIdleExpiry => Sys2Proof.Machine.execConsoleIdleExpiry s
  | .consoleCharacter char framingError => Sys2Proof.Machine.execConsoleCharacter char framingError s
  | .consoleStatus => Sys2Proof.Machine.execConsoleStatus s
  | .consoleZoneStatus zone => Sys2Proof.Machine.execConsoleZoneStatus zone s
  | .consoleModuleStatus mod => Sys2Proof.Machine.execConsoleModuleStatus mod s
  | .consoleTestStart zone => Sys2Proof.Machine.execConsoleTestStart zone s
  | .consoleTestStop zone => Sys2Proof.Machine.execConsoleTestStop zone s
  | .softCue auditorium => Sys2Proof.Machine.execSoftCue auditorium s
  | .consoleAmpRead mod word => Sys2Proof.Machine.execConsoleAmpRead mod word s
  | .cueLineSettled a active => Sys2Proof.Machine.execCueLineSettled a active s
  | .liveKeySettled key => Sys2Proof.Machine.execLiveKeySettled key s

end Sys2Proof.Machine
end

