-- ==== Sys2Proof/Safety.lean ====
section
/-! DEFINITION. What the statements about the part name: that a step goes on, when a request or an
event is taken at once, what acceptance and an answer change, and the invariants. -/

namespace Sys2Proof.Machine

/-- A step goes on. -/
def goesOn (o : Host.Outcome State Fault Refusal) : Prop := ∃ t, o = .next t

/-- No reset holds and nothing is in transit inside the part: an event acts at once. -/
structure Still (s : State) : Prop where
  up : s.control.holding = false
  reports : s.svc.reports = []
  walk : s.svc.walkDue = false

/-- A request is accepted at once (R168, R169, R179). -/
structure Ready (s : State) : Prop extends Still s where
  accepting : s.svc.link.accepting = true
  room : s.svc.link.outstanding.length < 4

/-- The silence timer after a valid frame (R175). -/
def silenceAfterFrame (s : State) : Option Nat :=
  if s.control.running then
    (if s.control.cfg.link.silence = 0 then none else some (s.control.cfg.link.silence * 1000))
  else s.svc.link.silenceLeft

/-- The state in which an accepted request reaches its owner: the request is on the outstanding list
(R169), STANDALONE has ended (R177) and the silence timer has restarted (R175). -/
def taken (tag : Byte) (kind : RequestKind) (s : State) : State :=
  { s with
    svc := { s.svc with
      link := { s.svc.link with
        outstanding := s.svc.link.outstanding ++ [{ tag := tag, kind := kind }]
        standalone := false, silenceLeft := silenceAfterFrame s } } }

/-- A reply of one frame enters the transmit queue (R170, R171): its status and the bytes after it. -/
def answered (tag : Byte) (kind : RequestKind) (st : Status) (bytes : List Byte) (s : State) : State :=
  { s with
    svc := { s.svc with
      link := { s.svc.link with tx := s.svc.link.tx ++ [.reply tag kind [st.code :: bytes]] } } }

/-- The request a command carries: its TAG and its KIND. -/
def requestOf : Instr → Option (Byte × RequestKind)
  | .ident t => some (t, .ident)
  | .reset t => some (t, .reset)
  | .noticeEnable t _ => some (t, .noticeEnable)
  | .noticeResume t => some (t, .noticeResume)
  | .noticeClear t _ => some (t, .noticeClear)
  | .silenceSet t _ => some (t, .silenceSet)
  | .modeRun t => some (t, .mode)
  | .modeConfig t => some (t, .mode)
  | .configWrite t _ _ => some (t, .configWrite)
  | .configRead t _ => some (t, .configRead)
  | .settingsSave t => some (t, .settingsSave)
  | .settingsLoad t => some (t, .settingsLoad)
  | .zoneSet t _ _ _ => some (t, .zoneSet)
  | .zoneStatus t _ => some (t, .zoneStatus)
  | .testToneStart t _ => some (t, .testTone)
  | .testToneStop t _ => some (t, .testTone)
  | .pollSet t _ _ => some (t, .pollSet)
  | .moduleStatus t _ => some (t, .moduleStatus)
  | .moduleClear t _ => some (t, .moduleClear)
  | .moduleRestore t _ => some (t, .moduleRestore)
  | .ampRead t _ _ => some (t, .ampRead)
  | .ampWrite t _ _ _ => some (t, .ampWrite)
  | .cueGo t _ => some (t, .cueGo)
  | .cueSet t _ _ => some (t, .cueSet)
  | .cueWrite t _ _ _ => some (t, .cueWrite)
  | .cueErase t _ _ => some (t, .cueErase)
  | .cueRead t _ _ => some (t, .cueRead)
  | .cueStatus t _ => some (t, .cueStatus)
  | .captureRead t _ => some (t, .captureRead)
  | .gapStatus t _ => some (t, .gapStatus)
  | .feed t _ _ _ _ => some (t, .feed)
  | .streamStatus t => some (t, .streamStatus)
  | .clipArm t _ _ _ _ _ => some (t, .clipArm)
  | .clipDisarm t _ _ => some (t, .clipDisarm)
  | .clipStart t _ => some (t, .clipStart)
  | .clipStop t _ => some (t, .clipStop)
  | .channelModeScripted t _ => some (t, .channelMode)
  | .channelModeStanding t _ _ _ => some (t, .channelMode)
  | .channelStatus t _ => some (t, .channelStatus)
  | .callPost t _ => some (t, .callPost)
  | .callRelease t _ => some (t, .callRelease)
  | .callEnd t _ => some (t, .callEnd)
  | .callCancel t _ => some (t, .callCancel)
  | .callStatus t _ => some (t, .callStatus)
  | .callFinished t => some (t, .callFinished)
  | .houseClose t _ _ => some (t, .houseClose)
  | .houseOpen t _ => some (t, .houseOpen)
  | .admitOpen t _ _ _ => some (t, .admitOpen)
  | .admitClose t _ => some (t, .admitClose)
  | .entranceStatus t _ => some (t, .entranceStatus)
  | .entranceClear t _ => some (t, .entranceClear)
  | _ => none

/-- The reset values of the blocks (R22, R47, R69, R80, R100, R124, R147, R165, R180, R181, R190,
R194). -/
structure BlocksAtReset (t : State) : Prop where
  running : t.control.running = false
  cfg : t.control.cfg = Configuration.default
  settings : t.control.settings = none
  result : t.control.result = { kind := none, result := none, inProgress := false }
  zones : ∀ z, look t.svc.zones z = { drive := .good, backoff := false, holds := 0, active := none
                                      stack := [], testLink := none, testConsole := none }
  override : t.svc.override = false
  modules : ∀ m, (look t.sup.modules m).state = .unknown ∧ (look t.sup.modules m).identity = none
    ∧ (look t.sup.modules m).caps = none ∧ (look t.sup.modules m).outputEnabled = none
    ∧ (look t.sup.modules m).resistance = none ∧ (look t.sup.modules m).temperature = none
    ∧ (look t.sup.modules m).latch = ⟨false, false, false, false, false⟩
    ∧ (look t.sup.modules m).loopShort = false ∧ (look t.sup.modules m).loopOpen = false
    ∧ (look t.sup.modules m).carried = ⟨false, false, false, false, false⟩
    ∧ (look t.sup.modules m).run = 0 ∧ (look t.sup.modules m).tripped = false
  supervisor : t.sup.protective = [] ∧ t.sup.pass = none ∧ t.sup.bus = none
  cues : ∀ a, (t.cue.get a).clock = 0 ∧ (t.cue.get a).running = false
    ∧ (t.cue.get a).filter = .unsettled ∧ (t.cue.get a).lockout = none ∧ (t.cue.get a).position = 0
    ∧ (t.cue.get a).list = [] ∧ (t.cue.get a).log = [] ∧ (t.cue.get a).fire = none
    ∧ (t.cue.get a).firing = none ∧ (t.cue.get a).waiting = []
  quiet : ∀ a, (t.quiet.get a).history = List.replicate 10 0 ∧ (t.quiet.get a).level = -90
    ∧ (t.quiet.get a).state = .sound ∧ (t.quiet.get a).openLeft = none
    ∧ (t.quiet.get a).current = none ∧ (t.quiet.get a).lastGap = none
    ∧ (t.quiet.get a).longestGap = none
  pool : t.svc.free = 4096 ∧ ∀ i, (look t.svc.slots i).state = .idle
    ∧ (look t.svc.slots i).owner = none ∧ (look t.svc.slots i).held = []
  channels : ∀ d, (look t.svc.channels d).mode = .scripted ∧ (look t.svc.channels d).active = none
    ∧ (look t.svc.channels d).queue = [] ∧ (look t.svc.channels d).lastOutcome = none
    ∧ (look t.svc.channels d).liveFlag = false ∧ (look t.svc.channels d).liveClaim = .none
  keys : t.svc.keyA.filter = .unsettled ∧ t.svc.keyB.filter = .unsettled
  calls : t.svc.calls = [] ∧ t.svc.finished = [] ∧ t.svc.callClock = 0 ∧ t.svc.chimes = []
  houses : ∀ a, (t.svc.houses.get a).state = .opened ∧ (t.svc.houses.get a).windowLeft = none
    ∧ (t.svc.houses.get a).graceLeft = none ∧ (t.svc.houses.get a).windows = 0
    ∧ (t.svc.houses.get a).record = none
  entrances : ∀ e, (look t.svc.entrances e).sensed = .unknown
    ∧ (look t.svc.entrances e).openedWhileSealed = false ∧ (look t.svc.entrances e).leftOpen = false
    ∧ (look t.svc.entrances e).lamp = .off ∧ (look t.svc.entrances e).holding = false
  link : t.svc.link.receiver = .hunt ∧ t.svc.link.outstanding = [] ∧ t.svc.link.tx = []
    ∧ t.svc.link.pendingKinds = 0 ∧ t.svc.link.gateOpen = false ∧ t.svc.link.silenceLeft = none
    ∧ t.svc.link.standalone = false
  console : t.console.state = .silent ∧ t.console.line = []

/-! ## The frames that carry requests (spec/09 sections 9.1, 9.4) -/

/-- The BODY length of the request kinds that allow only one. -/
def onlyLength : RequestKind → Option Nat
  | .ident | .reset | .noticeResume | .settingsSave | .settingsLoad | .streamStatus
  | .callFinished => some 0
  | .silenceSet | .mode | .configRead | .zoneStatus | .moduleStatus | .moduleClear | .moduleRestore
  | .cueGo | .cueStatus | .captureRead | .gapStatus | .clipStart | .clipStop | .channelStatus
  | .callRelease | .callEnd | .callCancel | .callStatus | .houseOpen | .admitClose | .entranceStatus
  | .entranceClear => some 1
  | .noticeEnable | .noticeClear | .testTone | .ampRead | .clipDisarm | .houseClose => some 2
  | .zoneSet | .pollSet | .cueErase | .cueRead | .cueSet => some 3
  | .ampWrite | .admitOpen => some 4
  | .clipArm => some 9
  | .feed => some 131
  | .configWrite | .cueWrite | .channelMode | .callPost => none

/-- A number in one byte; none when it does not fit. -/
def inByte (n : Nat) : Option (List Byte) := if n < 256 then some [BitVec.ofNat 8 n] else none

/-- A number in two bytes, the low one first; none when it does not fit. -/
def inWord (n : Nat) : Option (List Byte) :=
  if n < 65536 then some [BitVec.ofNat 8 n, BitVec.ofNat 8 (n / 256)] else none

/-- A number in four bytes, the low one first; none when it does not fit. -/
def inFour (n : Nat) : Option (List Byte) :=
  if n < 4294967296 then
    some [BitVec.ofNat 8 n, BitVec.ofNat 8 (n / 256), BitVec.ofNat 8 (n / 65536),
      BitVec.ofNat 8 (n / 16777216)]
  else none

/-- A flag as the model reads it: 0 yes, 1 no (log 11, log 49). -/
def inFlag : Option Bool → Option (List Byte)
  | some true => some [0x00]
  | some false => some [0x01]
  | none => none

/-- Fields one after the other; none when one of them does not fit. -/
def inOrder : List (Option (List Byte)) → Option (List Byte)
  | [] => some []
  | none :: _ => none
  | some b :: rest => (inOrder rest).map (b ++ ·)

/-- The BODY that spells a request of a kind of fixed layout: its fields in the order of its rule. The
records of CONFIG-WRITE, the action lists of CUE-WRITE and the descriptors of CALL-POST are left out,
and fields that no byte form holds. -/
def bodyOf : Instr → Option (List Byte)
  | .ident _ | .reset _ | .noticeResume _ | .settingsSave _ | .settingsLoad _ | .streamStatus _
  | .callFinished _ => some []
  | .noticeEnable _ w | .noticeClear _ w => inWord w.toNat
  | .silenceSet _ n | .configRead _ n | .zoneStatus _ n | .moduleStatus _ n | .moduleClear _ n
  | .moduleRestore _ n | .cueGo _ n | .cueStatus _ n | .captureRead _ n | .gapStatus _ n
  | .clipStart _ n | .clipStop _ n | .channelStatus _ n | .callRelease _ n | .callEnd _ n
  | .callCancel _ n | .callStatus _ n | .houseOpen _ n | .admitClose _ n | .entranceStatus _ n
  | .entranceClear _ n => inByte n
  | .modeConfig _ => some [0x00]
  | .modeRun _ => some [0x01]
  | .zoneSet _ z l m => inOrder [inByte z, inByte l, inFlag m]
  | .testToneStart _ z => inOrder [inByte z, some [0x01]]
  | .testToneStop _ z => inOrder [inByte z, some [0x00]]
  | .pollSet _ w g => inOrder [inWord w.toNat, inByte g]
  | .ampRead _ m w => inOrder [inByte m, inByte w]
  | .ampWrite _ m w v => inOrder [inByte m, inByte w, inWord v.toNat]
  | .cueSet _ a n | .cueErase _ a n | .cueRead _ a n => inOrder [inByte a, inWord n]
  | .feed _ i o f b => inOrder [inByte i, inByte o, inByte f, some b.toList]
  | .clipArm _ d i n (some c) t =>
    inOrder [inByte d, inByte i, inWord n, some [match c with | .atCue => 0x00 | .gap => 0x01], inFour t]
  | .clipDisarm _ d i => inOrder [inByte d, inByte i]
  | .channelModeScripted _ d => inOrder [inByte d, some [0x00]]
  | .channelModeStanding _ d i n => inOrder [inByte d, some [0x01], inByte i, inWord n]
  | .houseClose _ a f => inOrder [inByte a, inFlag f]
  | .admitOpen _ a n m => inOrder [inByte a, inWord n, inFlag m]
  | _ => none

/-- R166: kept bytes that begin a frame not complete yet and still in time, or none. -/
def UnderWay : List KeptByte → Prop
  | [] => True
  | [k] => k.byte = 0xE7 ∧ k.age < 20
  | k :: l :: rest =>
    k.byte = 0xE7 ∧ k.age < 20 ∧ 2 ≤ l.byte.toNat ∧ l.byte.toNat ≤ 251
      ∧ rest.length + 2 < l.byte.toNat + 4

/-- The state with other bytes kept by the receiver. -/
def keeping (kept : List KeptByte) (s : State) : State :=
  { s with svc := { s.svc with link := { s.svc.link with buffer := kept } } }

/-- R168: a frame that is refused by an immediate reply (dropped when four wait): it counts as a valid
frame (R175, R177) and nothing else changes. -/
def refusedFrame (tag kind : Byte) (body : List Byte) (s : State) : State :=
  { s with svc := { s.svc with link := { s.svc.link with
    buffer := [], standalone := false, silenceLeft := silenceAfterFrame s
    tx := s.svc.link.tx ++
      (if 4 ≤ (s.svc.link.tx.filter TxItem.isImmediate).length then []
       else [.immediate tag kind body]) } } }

/-! ## The fields of the answers (spec/09 section 9.1) -/

/-- The byte forms that the layouts are made of: numbers low byte first, signed ones in two's
complement (log 13), yes and no (log 11), a field that may be none, a list, a mask. -/
structure ByteForms : Prop where
  numbers : ∀ n : Nat, u8 n = [BitVec.ofNat 8 n] ∧ u16 n = [BitVec.ofNat 8 n, BitVec.ofNat 8 (n / 256)]
    ∧ leBytes 3 n = [BitVec.ofNat 8 n, BitVec.ofNat 8 (n / 256), BitVec.ofNat 8 (n / 65536)]
    ∧ u32 n = [BitVec.ofNat 8 n, BitVec.ofNat 8 (n / 256), BitVec.ofNat 8 (n / 65536),
        BitVec.ofNat 8 (n / 16777216)]
  words : ∀ w : Word16, w16 w = u16 w.toNat
  signed : ∀ n : Int, s8 n = [BitVec.ofInt 8 n] ∧ s16 n = w16 (BitVec.ofInt 16 n)
  flags : yesNo true = [0x00] ∧ yesNo false = [0x01]
  absent : ∀ k : Nat, mayBe k none = List.replicate (k + 1) 0x00
  present : ∀ (k : Nat) (b : List Byte), mayBe k (some b) = 0x01 :: b
  lists : ∀ items : List (List Byte), counted items = BitVec.ofNat 8 items.length :: items.flatten
  zones : ∀ zs : List ZoneId, ∃ m, zoneMask zs = u32 m
    ∧ ∀ z : ZoneId, m.testBit z.val = true ↔ z ∈ zs
  modules : ∀ ms : List ModuleId, ∃ m, moduleMask ms = u16 m
    ∧ ∀ k : ModuleId, m.testBit (k.val + 1) = true ↔ k ∈ ms
  entrances : ∀ es : List EntranceId, ∃ m, entranceMask es = u16 m
    ∧ ∀ e : EntranceId, m.testBit e.val = true ↔ e ∈ es

/-- A named value in one byte: its place among the names. -/
def place {α : Type} [DecidableEq α] (names : List α) (v : α) : List Byte :=
  [BitVec.ofNat 8 (names.idxOf v)]

/-- Auditorium 1 or 2, or none. -/
def audFields (a : Option Aud) : List Byte := mayBe 1 (a.map (fun x => u8 (audNumber x)))

/-- The fields of a configuration record (R186; the chapters' record tables). -/
def recordFields : ConfigRecord → List Byte
  | .zone c =>
    place [.unused, .hallLoop, .foyerLoop, .foyerSpeaker, .lobby, .description] c.kind
      ++ audFields c.auditorium ++ moduleMask c.modules ++ u16 c.windowLow ++ u16 c.windowHigh
      ++ place [.aux, .silence] c.foyerHome ++ yesNo c.flagged ++ u8 c.level ++ yesNo c.mute
  | .entrance c =>
    audFields c.auditorium ++ yesNo c.admission ++ zoneMask c.adjacent
      ++ place [.openHigh, .openLow] c.polarity
  | .channel c =>
    audFields c.auditorium ++ mayBe 1 (c.zone.map (fun z => u8 z.val))
      ++ mayBe 1 (c.liveInput.map (place [.liveA, .liveB])) ++ u8 c.duck ++ u8 c.resumeLimit
  | .auditorium c =>
    place [.activeLow, .activeHigh] c.cuePolarity ++ u16 c.lockout ++ s8 c.quietThreshold
      ++ s8 c.soundThreshold ++ u16 c.openTime ++ u16 c.windowDefault ++ u8 c.grace ++ u8 c.relayDuck
  | .supervision c =>
    w16 c.enables ++ u16 c.gap ++ u8 c.tripLimit ++ u8 c.warnTemp ++ u8 c.tripTemp
  | .link c => u8 c.silence ++ w16 c.enables

/-- R190: the settings result record; results have the places of log 11. -/
def resultFields (r : ResultRecord) : List Byte :=
  mayBe 1 (r.kind.map (place [.startLoad, .load, .save]))
    ++ mayBe 1 (r.result.map (fun x => u8 (match x with
        | .memory => 0 | .marker => 1 | .length => 2 | .crc => 3 | .range _ => 4 | .loaded => 5
        | .invalid _ => 6 | .saved => 7)))
    ++ mayBe 1 (match r.result with
        | some (.range i) | some (.invalid i) => some (u8 i)
        | _ => none)
    ++ yesNo r.inProgress

/-- A claim: rank, claimant kind, claimant id (spec/01 section 1.2; log 11). -/
def claimBytes (c : Claim) : List Byte :=
  u8 c.rank ++ (match c.who with
    | .override => u8 0 ++ mayBe 1 none
    | .call n => u8 1 ++ mayBe 1 (some (u8 n))
    | .live d => u8 2 ++ mayBe 1 (some (u8 d.val))
    | .clip d => u8 3 ++ mayBe 1 (some (u8 d.val))
    | .window a => u8 4 ++ mayBe 1 (some (u8 (audNumber a)))
    | .test src => u8 5 ++ mayBe 1 (some (place [.link, .console] src)))

/-- R23: one zone of ZONE-STATUS; the test times as in log 41. -/
def zoneFields (s : State) (z : ZoneId) : List Byte :=
  let c := look s.control.cfg.zones z
  let r := look s.svc.zones z
  let backoff := if r.backoff then 6 else 0
  let seconds (t : Nat) := u16 ((t + 999) / 1000)
  recordFields (.zone c) ++ place [.unknown, .good, .degraded, .failed] r.drive ++ u8 backoff
    ++ u8 (c.level + backoff - (if r.drive = .degraded then 3 else 0)) ++ u8 r.holds
    ++ mayBe 4 (r.active.map claimBytes) ++ counted (r.stack.reverse.map claimBytes)
    ++ mayBe 2 (r.testLink.map seconds) ++ mayBe 2 (r.testConsole.map seconds)

/-- The five conditions of word 3, the low bits of the fault latch. -/
def faultBits (f : WordFaults) : Nat :=
  f.overcurrent.toNat + 2 * f.openLoop.toNat + 4 * f.overtemp.toNat + 8 * f.supply.toNat
    + 16 * f.internal.toNat

/-- R46: one module of MODULE-STATUS; the queue entry as in log 49. -/
def moduleFields (s : State) (m : ModuleId) : List Byte :=
  let r := look s.sup.modules m
  let entry := (s.sup.protective.find? (fun p => p.1 == m)).map (·.2)
  let loop := allZones.find? (fun z =>
    let c := look s.control.cfg.zones z
    (c.kind == .hallLoop || c.kind == .foyerLoop) && c.modules.contains m)
  place [.unknown, .absent, .notReady, .good, .warn, .fault] r.state ++ mayBe 2 (r.identity.map w16)
    ++ mayBe 2 (r.caps.map (fun c => yesNo c.thermal ++ yesNo c.supply))
    ++ place [none, some true, some false] r.outputEnabled ++ mayBe 2 (r.resistance.map u16)
    ++ mayBe 2 (r.temperature.map s16)
    ++ u8 (faultBits r.latch + 32 * r.loopShort.toNat + 64 * r.loopOpen.toNat)
    ++ u8 (faultBits r.carried) ++ u8 r.run ++ yesNo r.tripped
    ++ yesNo (s.control.cfg.supervision.enables.getLsbD (m.val + 1))
    ++ mayBe 2 (entry.map (fun v => u16 v.toNat)) ++ mayBe 1 (loop.map (fun z => u8 z.val))

/-- R46: what MODULE-STATUS gives once; before the first round the machine shows IDLE (log 26). -/
def pollFields (s : State) : List Byte :=
  let k := s.control.cfg.supervision
  (match s.sup.poll with
    | .visit v => u8 1 ++ mayBe 2 (some (u8 (v.module_.val + 1) ++ u8 v.step))
    | .gap _ => u8 2 ++ mayBe 2 none
    | _ => u8 0 ++ mayBe 2 none)
    ++ u16 k.gap ++ u8 k.tripLimit ++ u8 k.warnTemp ++ u8 k.tripTemp ++ yesNo s.sup.pass.isSome

/-- The origin of an advance or jump (R58). -/
def originFields (o : CueOrigin) : List Byte := place [.line, .link, .console, .jump] o

/-- An action: its kind and parameters (spec/03 section 3.5). -/
def actionFields : CueAction → List Byte
  | .startClip d => u8 0 ++ u8 d
  | .stopClip d => u8 1 ++ u8 d
  | .openAdmit n m => u8 2 ++ u16 n ++ yesNo m
  | .closeAdmit => u8 3
  | .releaseCall i => u8 4 ++ u8 i
  | .mark => u8 5

/-- R66: a fire record; outcomes as in log 49. -/
def fireFields (f : FireRecord) : List Byte :=
  u16 f.number ++ u32 f.clock ++ originFields f.origin
    ++ counted (f.outcomes.map (fun o =>
        actionFields o.1 ++ [if o.2 = .ok then 0x00 else 0x01, o.2.code]))

/-- R67: CUE-STATUS; an empty fire record as in log 49. -/
def cueFields (s : State) (a : Aud) : List Byte :=
  let c := s.cue.get a
  let next := c.list.find? (fun e => decide (c.position < e.number))
  u32 c.clock ++ place [true, false] c.running ++ u16 c.position
    ++ mayBe 2 (next.map (fun e => u16 e.number)) ++ u8 c.list.length
    ++ place [.unsettled, .released, .pressed] c.filter ++ u16 (s.control.cfg.auditoria.get a).lockout
    ++ u16 (c.lockout.getD 0) ++ yesNo c.firing.isSome ++ u8 c.waiting.length
    ++ mayBe 8 (c.fire.map fireFields)

/-- R59: CAPTURE-READ, the oldest record first. -/
def captureFields (s : State) (a : Aud) : List Byte :=
  counted ((s.cue.get a).log.map (fun r => u16 r.position ++ u32 r.clock ++ originFields r.origin))

/-- R63: CUE-READ. -/
def entryFields (e : CueEntry) (entries : Nat) : List Byte :=
  u16 e.number ++ counted (e.actions.map actionFields) ++ u8 entries

/-- R79: GAP-STATUS. -/
def gapFields (s : State) (a : Aud) : List Byte :=
  let q := s.quiet.get a
  let k := s.control.cfg.auditoria.get a
  let gap (g : GapRecord) := u32 g.start ++ u32 g.length
  s8 q.level ++ place [.sound, .settling, .quiet] q.state ++ mayBe 8 (q.current.map gap)
    ++ u16 (q.openLeft.getD 0) ++ s8 k.quietThreshold ++ s8 k.soundThreshold ++ u16 k.openTime
    ++ mayBe 8 (q.lastGap.map gap) ++ mayBe 8 (q.longestGap.map gap)

/-- R90: one slot of STREAM-STATUS. -/
def slotFields (s : State) (i : SlotId) : List Byte :=
  let sl := look s.svc.slots i
  let idle := decide (sl.state = .idle)
  let unfilled := if idle then 0 else min 32 sl.length - sl.held.length
  let want := if idle then 0 else min (1024 - sl.held.length) sl.toReceive
  let wanting := [SlotState.loading, .playing, .starved].contains sl.state
    && decide (0 < sl.toReceive) && decide (sl.held.length < 64)
  place [.idle, .loading, .playing, .starved, .paused] sl.state ++ mayBe 1 (sl.owner.map u8)
    ++ u16 sl.length ++ yesNo sl.retain ++ yesNo sl.loop ++ u16 sl.held.length ++ u16 sl.toReceive
    ++ u8 (min 32 sl.length) ++ u8 unfilled ++ u8 (min 8 sl.length) ++ u16 sl.position
    ++ u16 sl.passes ++ u16 (sl.starve.getD 0) ++ yesNo wanting ++ u16 want
    ++ u16 (min (unfilled + (s.svc.free - reserve s.svc.slots)) want)

/-- A clip descriptor. -/
def clipFields (d : ClipDesc) : List Byte :=
  u8 d.clipId ++ u16 d.length ++ place [.atCue, .gap] d.condition ++ u32 d.latestStart

/-- R123: one channel of CHANNEL-STATUS. -/
def channelFields (s : State) (d : ChannelId) : List Byte :=
  let k := look s.control.cfg.channels d
  let c := look s.svc.channels d
  let head := mayBe 1 (c.headSlot.map (fun i => u8 i.val)) ++ yesNo c.headFilled
  recordFields (.channel k) ++ yesNo (k.auditorium.isSome && k.zone.isSome)
    ++ place [.scripted, .standing] c.mode ++ yesNo ((c.active.map (·.finishing)).getD false)
    ++ mayBe 12 (c.active.map (fun a => clipFields a.desc ++ u8 a.slot.val
        ++ place [.waitingFill, .waitingGap, .waitingZone, .speaking, .suspended] a.state
        ++ u16 (a.resumeLeft.getD 0)))
    ++ counted (match c.queue with
        | [] => []
        | q :: rest => (clipFields q ++ head) :: rest.map clipFields)
    ++ mayBe 7 (c.lastOutcome.map (fun o => u8 o.clipId
        ++ place [.done, .cut, .stopped, .late, .starved, .resumeLimit, .hostLost, .config] o.outcome
        ++ u32 o.clock ++ yesNo o.standing))
    ++ place [false, true] c.liveFlag
    ++ mayBe 1 (match c.liveClaim with
        | .none => none | .onZone => some (u8 0) | .waiting => some (u8 1))

/-- R146: what CALL-STATUS gives once. -/
def tableFields (s : State) : List Byte :=
  u32 s.svc.callClock ++ u8 s.svc.calls.length ++ u8 s.svc.finished.length

/-- R146: one call of CALL-STATUS. -/
def callFields (s : State) (k : Call) : List Byte :=
  let d := k.desc
  let active := d.targets.filter (fun z => (look s.svc.zones z).carries (.call d.callId))
  let stacked := d.targets.filter (fun z => (look s.svc.zones z).stacks (.call d.callId))
  u8 d.callId ++ u8 d.priority ++ zoneMask d.targets
    ++ place [.noChime, .single, .double, .rising3] d.chime
    ++ (match d.message with
        | .noMessage => u8 0 | .stream n => u8 1 ++ u16 n | .liveMic n => u8 2 ++ u8 n)
    ++ u8 d.repetitions ++ u16 d.spacing ++ yesNo d.whole ++ place [false, true] d.parked
    ++ u16 d.expiry ++ place [.parked, .waiting, .playing, .spacing] k.state
    ++ mayBe 1 (k.phase.map (place [.chime, .pause, .message])) ++ zoneMask active
    ++ zoneMask k.unbroken ++ zoneMask k.heard ++ zoneMask stacked ++ u8 k.done ++ u8 d.repetitions
    ++ mayBe 1 (k.slot.map (fun i => u8 i.val)) ++ yesNo k.filled ++ u32 k.posted
    ++ mayBe 4 (k.firstStart.map u32) ++ leBytes 3 (k.expiryLeft.getD 0)
    ++ leBytes 3 (k.spacingLeft.getD 0) ++ leBytes 3 (k.micLeft.getD 0)

/-- R128, R129: a finished record, the answer of CALL-FINISHED. -/
def finishedFields (r : FinishedRecord) : List Byte :=
  u8 r.callId ++ zoneMask r.targets ++ zoneMask r.heard ++ u8 r.done ++ mayBe 4 (r.firstStart.map u32)
    ++ u32 r.endTime
    ++ place [.done, .expired, .cancelled, .streamFailed, .hostLost, .config] r.outcome

/-- R160: a window record. -/
def windowFields (w : WindowRecord) : List Byte :=
  u16 w.number ++ u32 w.opened ++ place [.cue, .request] w.openedBy ++ u16 w.windowTime
    ++ yesNo w.closeOnMusic ++ mayBe 4 (w.closed.map u32)
    ++ mayBe 1 (w.closeReason.map (place [.expired, .cue, .request, .music, .houseOpen]))
    ++ mayBe 1 (if w.grace = .pending then none
        else some (place [.notNeeded, .allClosed, .expired, .houseOpen] w.grace))
    ++ entranceMask w.leftOpen
    ++ mayBe 1 (w.chimes.map (fun l =>
        counted (l.map (fun r => u8 r.1.val ++ place [.whole, .part, .skipped] r.2))))

/-- R162: one auditorium of ENTRANCE-STATUS. -/
def houseFields (s : State) (a : Aud) : List Byte :=
  let h := s.svc.houses.get a
  let k := s.control.cfg.auditoria.get a
  place [.opened, .sealed, .admitting, .closing] h.state
    ++ leBytes 3 (if h.state = .admitting then h.windowLeft.getD 0 else 0)
    ++ u16 (if h.state = .closing then h.graceLeft.getD 0 else 0)
    ++ yesNo (s.svc.chimes.any (fun c => c.owner == .window a))
    ++ mayBe 23 (h.record.map windowFields) ++ u16 k.windowDefault ++ u8 k.grace ++ u8 k.relayDuck

/-- R162: one entrance of ENTRANCE-STATUS. -/
def entranceFields (s : State) (e : EntranceId) : List Byte :=
  let x := look s.svc.entrances e
  recordFields (.entrance (look s.control.cfg.entrances e))
    ++ place [.unknown, .closed, .opened] x.sensed ++ place [.off, .red, .green] x.lamp
    ++ u8 (x.openedWhileSealed.toNat + 2 * x.leftOpen.toNat) ++ yesNo x.holding

/-- R170: an accepted request is answered by a divided reply with these items: frames that each begin
with OK and the number of frames to follow, divided at the start of an item (log 17). -/
def AnsweredInParts (tag : Byte) (kind : RequestKind) (items : List (List Byte)) (s : State)
    (o : Host.Outcome State Fault Refusal) : Prop :=
  ∃ groups : List (List (List Byte)), groups ≠ [] ∧ groups.flatten = items
    ∧ ((∀ x ∈ items, x.length ≤ 247) → ∀ g ∈ groups, g.flatten.length ≤ 247)
    ∧ o = .next { taken tag kind s with svc := { (taken tag kind s).svc with
        link := { (taken tag kind s).svc.link with
          tx := s.svc.link.tx ++ [.reply tag kind (groups.mapIdx (fun i g =>
            0x00 :: BitVec.ofNat 8 (groups.length - 1 - i) :: g.flatten))] } } }

/-! ## The poll machine (R27, R40) -/

/-- R27: what follows a visit of `m`: the next higher enabled module's visit, the gap, or IDLE. -/
def afterVisit (s : State) (m : ModuleId) : PollState :=
  let enabled (k : ModuleId) : Bool := s.control.cfg.supervision.enables.getLsbD (k.val + 1)
  match allModules.find? (fun k => decide (m < k) && enabled k) with
  | some k => .visit { module_ := k, step := 1, faulty := false, warm := false, dropped := false }
  | none => if allModules.any enabled then .gap 0 else .idle

/-- R28: the first transaction of a visit that begins, a read of word 0; none in GAP and IDLE. -/
def firstRead : PollState → Option Transaction
  | .visit v => some { user := .poll, module_ := v.module_, word := 0, value := none }
  | _ => none

/-- R27: the visit of `m` has ended; a protective write that waits comes before the next read. -/
structure VisitOver (m : ModuleId) (s u : State) : Prop where
  poll : u.sup.poll = afterVisit s m
  bus : u.sup.bus.map (·.user) ≠ some .protective → u.sup.bus = firstRead (afterVisit s m)

/-- R36: the bus after a transaction with no pass-through pending: the protective write that waits
longest, else the next read of the visit. -/
def nextOnBus (sup : Supervisor) : Supervisor :=
  match sup.protective, sup.poll with
  | (m, b) :: rest, _ =>
    { sup with
      protective := rest
      bus := some { user := .protective, module_ := m, word := 8, value := some (if b then 1 else 0) } }
  | [], .visit x =>
    let word := match x.step with | 1 => 0 | 2 => 2 | 3 => 1 | 4 => 3 | 5 => 4 | _ => 5
    { sup with bus := some { user := .poll, module_ := x.module_, word := word, value := none } }
  | [], _ => { sup with bus := none }

/-- spec/02 section 2.7: a module that drives its loop. -/
def Healthy (r : ModuleRecord) : Prop := r.tripped = false ∧ (r.state = .good ∨ r.state = .warn)

/-- spec/02 section 2.7: a module known not to drive its loop. -/
def Bad (r : ModuleRecord) : Prop :=
  r.tripped = true ∨ r.state = .absent ∨ r.state = .notReady ∨ r.state = .fault

/-- R40, R41: the drive fields of zone `z` are those that the records of its modules give. -/
structure DriveResolved (z : ZoneId) (s u : State) : Prop where
  good : (look u.svc.zones z).drive = .good ↔
    (look s.control.cfg.zones z).modules ≠ []
      ∧ ∀ m ∈ (look s.control.cfg.zones z).modules, Healthy (look s.sup.modules m)
  failed : (look u.svc.zones z).drive = .failed ↔
    (look s.control.cfg.zones z).modules ≠ []
      ∧ ∀ m ∈ (look s.control.cfg.zones z).modules, Bad (look s.sup.modules m)
  degraded : (look u.svc.zones z).drive = .degraded ↔
    (∃ m ∈ (look s.control.cfg.zones z).modules, Bad (look s.sup.modules m))
      ∧ ∃ m ∈ (look s.control.cfg.zones z).modules, ¬ Bad (look s.sup.modules m)
  backoff : (look u.svc.zones z).backoff = true ↔
    ∃ m ∈ (look s.control.cfg.zones z).modules, (look s.sup.modules m).state = .warn

/-- R32: step 7 has resolved the visit of module `m`, found faulty or warm or neither: the state, the
fault run and the trip, the zones that list the module, and what the poll machine does next. -/
structure VisitResolved (m : ModuleId) (faulty warm : Bool) (s u : State) : Prop where
  state : (look u.sup.modules m).state = if faulty then .fault else if warm then .warn else .good
  run : (look u.sup.modules m).run = if faulty then
    min s.control.cfg.supervision.tripLimit ((look s.sup.modules m).run + 1) else 0
  tripped : (look u.sup.modules m).tripped = ((look s.sup.modules m).tripped
    || (faulty && decide (s.control.cfg.supervision.tripLimit ≤ (look s.sup.modules m).run + 1)))
  takeDown : (look s.sup.modules m).tripped = false → (look u.sup.modules m).tripped = true →
    u.sup.bus = some { user := .protective, module_ := m, word := 8, value := some 0 }
      ∧ u.svc.link.pendingKinds &&& 0x0002 = 0x0002
  drive : ∀ z, (look s.control.cfg.zones z).kind = .hallLoop
    ∨ (look s.control.cfg.zones z).kind = .foyerLoop → m ∈ (look s.control.cfg.zones z).modules →
    DriveResolved z u u
  next : VisitOver m s u
  others : ∀ k, k ≠ m → look u.sup.modules k = look s.sup.modules k
  rest : u.svc.slots = s.svc.slots ∧ u.control = s.control ∧ u.cue = s.cue

/-! ## The router (R5-R14) -/

/-- R5: whether a claimant may claim a zone of this record. -/
def mayClaim (c : ZoneConfig) : Claimant → Bool
  | .override => c.flagged && decide (c.kind ≠ .unused)
  | .call _ => [ZoneKind.foyerLoop, .foyerSpeaker, .lobby].contains c.kind
  | .live _ | .clip _ => decide (c.kind = .description)
  | .window _ => decide (c.kind = .lobby)
  | .test _ => decide (c.kind ≠ .unused)

/-- R6, R10, R13: a claim that a hold keeps off its zone: a call's of priority 0, 1 or 2. -/
def heldOff (holds : Nat) (c : Claim) : Bool :=
  decide (0 < holds) && (match c.who with | .call _ => c.rank != 6 | _ => false)

/-- R7: the reports to the claimants of removed claims; a test just ends, and the override is never
removed so. -/
def toldLost (z : ZoneId) (lost : List Claim) : List Report :=
  lost.filterMap (fun c => match c.who with
    | .override | .test _ => none
    | _ => some (.zoneLost c z))

/-- R11: a zone-release report of zone `z`, after the reports `more`, leaves the router, and a walk is
owed for the zone; in CONFIG there is none. -/
structure Released (env : Env) (z : ZoneId) (more : List Report) (sv u : Services) : Prop where
  reports : u.reports = sv.reports ++ more ++ (if env.run then
    [.zoneReleased z (look u.zones z).rank (look u.zones z).holds] else [])
  walk : u.walkDue = (env.run || sv.walkDue)
  zones : env.run = true → z ∈ u.walkZones

/-- R4: nothing but the claims and the hold count of zone `z` has changed in its record, and no other
zone; the test timers of a removed test stop. -/
structure OnlyClaims (z : ZoneId) (sv u : Services) : Prop where
  drive : (look u.zones z).drive = (look sv.zones z).drive
    ∧ (look u.zones z).backoff = (look sv.zones z).backoff
  others : ∀ y, y ≠ z → look u.zones y = look sv.zones y
  rest : u.slots = sv.slots ∧ u.channels = sv.channels ∧ u.calls = sv.calls ∧ u.houses = sv.houses
    ∧ u.free = sv.free ∧ u.link = sv.link ∧ u.chimes = sv.chimes ∧ u.override = sv.override

/-- R10: zone `z` has been popped to what stands in a stack: the claims that a hold keeps off are
passed over and told, the first other is active and told, and the zone-release report follows. -/
structure Popped (env : Env) (z : ZoneId) (stack : List Claim) (told : List Report) (sv u : Services) :
    Prop where
  active : (look u.zones z).active = (stack.dropWhile (heldOff (look u.zones z).holds)).head?
  left : (look u.zones z).stack = (stack.dropWhile (heldOff (look u.zones z).holds)).tail
  released : Released env z
    (told ++ toldLost z (stack.takeWhile (heldOff (look u.zones z).holds))
      ++ (stack.dropWhile (heldOff (look u.zones z).holds)).head?.toList.map (.claimRestored · z)) sv u
  only : OnlyClaims z sv u

/-! ## What an output carries (spec/01 section 1.1, section 1.5) -/

/-- R137: the frequency that a chime sounds with `left` ms of it to come. -/
def pitch (left : Nat) : Chime → Option Nat
  | .noChime => none
  | .single => if 0 < left then some 880 else none
  | .double => if 1000 < left then some 880 else if 0 < left then some 660 else none
  | .rising3 =>
    if 1800 < left then some 523 else if 1000 < left then some 659 else if 0 < left then some 784 else none

/-- R2, R4, R15: what the output of zone `z` carries, each source with its attenuation in dB; silence is
the empty list. -/
structure Composed (z : ZoneId) (c : ZoneConfig) (r : ZoneRecord) (att : Nat) (s : State) : Prop where
  attenuation : effectiveAttenuation c r = att
  silent : c.kind = .unused ∨ c.mute = true → zoneOutput s.env s.svc z = []
  config : c.kind ≠ .unused → c.mute = false → s.control.running = false →
    (∀ k, r.active = some k → (∃ src, k.who = .test src) → zoneOutput s.env s.svc z = [(.tone (-20), att)])
    ∧ ((∀ k, r.active = some k → ∀ src, k.who ≠ .test src) → zoneOutput s.env s.svc z = [])
  home : c.mute = false → s.control.running = true → r.active = none →
    let out := zoneOutput s.env s.svc z
    (c.kind = .foyerLoop ∨ c.kind = .foyerSpeaker →
      out = if c.foyerHome = .aux then [(.aux, att)] else [])
    ∧ ∀ a, c.auditorium = some a →
      (c.kind = .hallLoop ∨ c.kind = .description → out = [(.programme a, att)])
      ∧ (c.kind = .lobby → out = match (s.svc.houses.get a).state with
          | .opened => [(.aux, att)]
          | .sealed | .closing => [(.programme a, att)]
          | .admitting => [(.programme a, att + (s.control.cfg.auditoria.get a).relayDuck)])
  claimed : c.kind ≠ .unused → c.mute = false → s.control.running = true → ∀ k, r.active = some k →
    let out := zoneOutput s.env s.svc z
    let slotHeard (i : SlotId) : List Carried :=
      if (look s.svc.slots i).state = .playing then [(.slot i, att)] else []
    let bed (d : ChannelId) : List Carried :=
      match c.kind, c.auditorium with
      | .description, some a => [(.programme a, att + (look s.control.cfg.channels d).duck)]
      | _, _ => []
    let chimeHeard (o : ChimeOwner) : List Carried :=
      match (s.svc.chimes.find? (fun x => x.owner == o)).bind (fun x => pitch x.left x.chime) with
      | some hz => [(.chime hz (-10), att)]
      | none => []
    (k.who = .override → out = [])
    ∧ (∀ src, k.who = .test src → out = [(.tone (-20), att)])
    ∧ (∀ a, k.who = .window a → out = chimeHeard (.window a))
    ∧ (∀ d, k.who = .live d → ∀ i, (look s.control.cfg.channels d).liveInput = some i →
        out = (.liveIn i, att) :: bed d)
    ∧ (∀ d, k.who = .clip d → ∀ x, (look s.svc.channels d).active = some x →
        out = slotHeard x.slot ++ bed d)
    ∧ (∀ id, k.who = .call id → ∀ x, findCall id s.svc = some x →
        (x.phase = some .chime → out = chimeHeard (.call id))
        ∧ (x.phase = some .pause → out = [])
        ∧ (x.phase = some .message →
            (∀ n, x.desc.message = .liveMic n → out = [(.callMic, att)])
            ∧ ∀ n i, x.desc.message = .stream n → x.slot = some i → out = slotHeard i))

/-! ## Configurations that may run (R187) -/

/-- R187: the ZONE record of `z` does not fail. -/
def ZoneValid (cfg : Configuration) (z : ZoneId) : Prop :=
  let c := look cfg.zones z
  (isLoopKind c.kind = true → c.modules ≠ [])
    ∧ (isLoopKind c.kind = false → c.modules = [])
    ∧ (∀ m ∈ c.modules, ∀ y : ZoneId, y < z → m ∉ (look cfg.zones y).modules)
    ∧ (c.kind = .hallLoop ∨ c.kind = .lobby ∨ c.kind = .description → c.auditorium ≠ none)
    ∧ (c.kind = .foyerLoop ∨ c.kind = .foyerSpeaker → c.auditorium = none)

/-- R187: the ENTRANCE record of `e` does not fail. -/
def EntranceValid (cfg : Configuration) (e : EntranceId) : Prop :=
  ∀ z ∈ (look cfg.entrances e).adjacent,
    (look cfg.zones z).kind = .foyerLoop ∨ (look cfg.zones z).kind = .foyerSpeaker

/-- R187: the CHANNEL record of `d` does not fail. -/
def ChannelValid (cfg : Configuration) (d : ChannelId) : Prop :=
  ∀ a z, (look cfg.channels d).auditorium = some a → (look cfg.channels d).zone = some z →
    (look cfg.zones z).kind = .description ∧ (look cfg.zones z).auditorium = some a
      ∧ ∀ y : ChannelId, y < d →
        ¬ ((look cfg.channels y).auditorium ≠ none ∧ (look cfg.channels y).zone = some z)

/-- R187: the record at an index does not fail. -/
def RecordValid (cfg : Configuration) (i : Nat) : Prop :=
  (∀ z : ZoneId, i = z.val → ZoneValid cfg z)
    ∧ (∀ e : EntranceId, i = 20 + e.val → EntranceValid cfg e)
    ∧ (∀ d : ChannelId, i = 32 + d.val → ChannelValid cfg d)

/-! ## What a piece of work does, said once for the commands that do it -/

/-- The services but for the link port are the same. -/
structure SameServices (x y : Services) : Prop where
  zones : x.zones = y.zones
  override : x.override = y.override
  free : x.free = y.free
  slots : x.slots = y.slots
  channels : x.channels = y.channels
  calls : x.calls = y.calls
  finished : x.finished = y.finished
  chimes : x.chimes = y.chimes
  houses : x.houses = y.houses
  entrances : x.entrances = y.entrances

/-- R65: the request an action does the work of, its status, and the services after it and the reports
it caused; START-CLIP and STOP-CLIP of a channel of another auditorium are not handed on. -/
def asked (a : Aud) (act : CueAction) (s : State) : Status × State :=
  let named (d : Nat) : Bool := match channelOf d with
    | some c => decide ((look s.control.cfg.channels c).auditorium = some a)
    | none => false
  let after (sv : Services) : State := { s with svc := sv }.settled
  match act with
  | .startClip d =>
    if named d then ((clipStart s.env d s.svc).1.status, after (clipStart s.env d s.svc).2)
    else (.range, s)
  | .stopClip d =>
    if named d then ((clipStop s.env d s.svc).1.status, after (clipStop s.env d s.svc).2)
    else (.range, s)
  | .openAdmit n m => ((admitOpen s.env a n m .cue s.svc).1, after (admitOpen s.env a n m .cue s.svc).2)
  | .closeAdmit => ((admitClose s.env a .cue s.svc).1, after (admitClose s.env a .cue s.svc).2)
  | .releaseCall i => ((callRelease i s.svc).1.status, after (callRelease i s.svc).2)
  | .mark => (.ok, s)

/-- R64: the actions of an entry one after the other, with their outcomes. -/
def askedAll (a : Aud) : List CueAction → State → List ActionOutcome × State
  | [], s => ([], s)
  | act :: rest, s =>
    let first := asked a act s
    let others := askedAll a rest first.2
    ((act, first.1) :: others.1, others.2)

/-- Nothing but auditorium `a`'s cue follower differs. -/
structure OnlyCue (a : Aud) (s t : State) : Prop where
  other : ∀ b, b ≠ a → t.cue.get b = s.cue.get b
  svc : t.svc = s.svc
  sup : t.sup = s.sup
  quiet : t.quiet = s.quiet
  console : t.console = s.console
  control : t.control = s.control
  pending : t.pending = s.pending

/-- R53: the position after an advance. -/
def advanceTo (p : Nat) : Nat := if p < 65535 then p + 1 else p

/-- R58: the capture log with one more record; the oldest of 16 is lost. -/
def captured (r : Capture) (l : List Capture) : List Capture :=
  (if 16 ≤ l.length then l.drop (l.length - 15) else l) ++ [r]

/-- R53: the entry an advance fires: the entry of the new position, if the position has moved. -/
def firedBy (c : CueFollower) : Option CueEntry :=
  if c.position < 65535 then c.list.find? (fun e => e.number == c.position + 1) else none

/-- R53, R64, R65, R66: an advance of auditorium `a` has been taken from `s`: `u` is the state then,
all actions of the entry it fired, if any, having been handed on; each has done the work of its
request (`acted`; the link port, which no action reads, may have taken the advance's own request). -/
structure Advanced (a : Aud) (origin : CueOrigin) (s u : State) : Prop where
  position : (u.cue.get a).position = advanceTo (s.cue.get a).position
  log : (u.cue.get a).log = captured
    { position := advanceTo (s.cue.get a).position, clock := (s.cue.get a).clock, origin := origin }
    (s.cue.get a).log
  kept : (u.cue.get a).clock = (s.cue.get a).clock ∧ (u.cue.get a).running = (s.cue.get a).running
    ∧ (u.cue.get a).list = (s.cue.get a).list ∧ (u.cue.get a).firing = none
  other : ∀ b, b ≠ a → u.cue.get b = s.cue.get b
  silent : firedBy (s.cue.get a) = none → (u.cue.get a).fire = (s.cue.get a).fire
    ∧ u.svc.zones = s.svc.zones ∧ u.svc.slots = s.svc.slots ∧ u.svc.channels = s.svc.channels
    ∧ u.svc.calls = s.svc.calls ∧ u.svc.houses = s.svc.houses
    ∧ u.svc.link.pendingKinds = s.svc.link.pendingKinds
  fired : ∀ e, firedBy (s.cue.get a) = some e → ∃ f : FireRecord, (u.cue.get a).fire = some f
    ∧ f.number = advanceTo (s.cue.get a).position ∧ f.clock = (s.cue.get a).clock ∧ f.origin = origin
    ∧ f.outcomes.map (fun o => o.1) = e.actions
    ∧ u.svc.link.pendingKinds &&& 0x0004 = 0x0004
    ∧ (e.actions = [.mark] → f.outcomes = [(.mark, .ok)] ∧ u.svc.zones = s.svc.zones
      ∧ u.svc.slots = s.svc.slots ∧ u.svc.channels = s.svc.channels ∧ u.svc.calls = s.svc.calls
      ∧ u.svc.houses = s.svc.houses)
  acted : ∀ e, firedBy (s.cue.get a) = some e → ∃ (link : LinkPort) (f : FireRecord),
    (u.cue.get a).fire = some f
      ∧ f.outcomes = (askedAll a e.actions { s with svc := { s.svc with link := link } }).1
      ∧ SameServices u.svc (askedAll a e.actions { s with svc := { s.svc with link := link } }).2.svc
  rest : u.sup = s.sup ∧ u.quiet = s.quiet ∧ u.control = s.control ∧ u.pending = s.pending

/-- R54, R55: the cue number fired and the outcomes that the answer to an advance carries. -/
def firedBytes (s u : State) (a : Aud) : List Byte :=
  match firedBy (s.cue.get a), (u.cue.get a).fire with
  | some _, some f => u16 f.number ++ counted (f.outcomes.map (fun o => encodeOutcome o.2))
  | _, _ => [0, 0]

/-- R54, R55: the cue number fired and the outcomes that the console shows of an advance. -/
def firedFields (s u : State) (a : Aud) : List TextField :=
  match firedBy (s.cue.get a), (u.cue.get a).fire with
  | some _, some f => .number f.number :: f.outcomes.map (fun o => outcomeText o.2)
  | _, _ => [.number 0]

/-- R182, R183: the line has ended and its command executes. -/
def lineTaken (s : State) : State :=
  { s with
    console := { s.console with
      state := .executing, line := [], sent := s.console.sent ++ [.lineEnd] } }

/-- R184, R185: the line has ended, and its result and a prompt have been shown. -/
def shown (lines : List (List TextField)) (s : State) : State :=
  { s with
    console := { s.console with
      state := .editing, line := []
      sent := s.console.sent ++ [.lineEnd] ++ (lines.map ConsoleText.line ++ [.prompt]) } }

/-- R184, R185: a result that came while the console was EXECUTING, and a prompt, have been shown. -/
def resultShown (fields : List TextField) (s : State) : State :=
  { s with
    console := { s.console with
      state := .editing, line := [], sent := s.console.sent ++ [.line fields, .prompt] } }

/-! ## The lines of the console (R183, R184) -/

/-- A named value as the console shows it. -/
def named {α : Type} [DecidableEq α] (names : List (α × String)) (v : α) : TextField :=
  .text ((names.lookup v).getD "")

/-- A field that is none, or a number. -/
def numberOrNone (n : Option Int) : TextField := (n.map TextField.number).getD (.text "none")

/-- Yes or no. -/
def yesOrNo (b : Bool) : TextField := .text (if b then "yes" else "no")

/-- R184: the `s` line of an auditorium, its time in seconds rounded up (log 41). -/
def statusShown (s : State) (a : Aud) : List TextField :=
  let c := s.cue.get a
  let h := s.svc.houses.get a
  let seconds : Nat := match h.state with
    | .admitting => (h.windowLeft.getD 0 + 999) / 1000
    | .closing => (h.graceLeft.getD 0 + 999) / 1000
    | _ => 0
  [.number (audNumber a), .text (if s.control.running then "RUN" else "CONFIG"),
   named [(.opened, "OPEN"), (.sealed, "SEALED"), (.admitting, "ADMITTING"), (.closing, "CLOSING")] h.state,
   .number c.position, .number c.clock, .text (if c.running then "RUNNING" else "HELD"),
   .number ((c.fire.map (·.number)).getD 0 : Nat), .number seconds]

/-- R184: the first line of `z n`. -/
def zoneShown (s : State) (z : ZoneId) : List TextField :=
  let c := look s.control.cfg.zones z
  let r := look s.svc.zones z
  let backoff : Nat := if r.backoff then 6 else 0
  [.number z.val,
   named [(.unused, "UNUSED"), (.hallLoop, "HALL-LOOP"), (.foyerLoop, "FOYER-LOOP"),
     (.foyerSpeaker, "FOYER-SPEAKER"), (.lobby, "LOBBY"), (.description, "DESCRIPTION")] c.kind,
   numberOrNone (c.auditorium.map (fun a => (audNumber a : Int))), .number c.level,
   .text (if c.mute then "on" else "off"),
   named [(.unknown, "UNKNOWN"), (.good, "GOOD"), (.degraded, "DEGRADED"), (.failed, "FAILED")] r.drive,
   .number backoff,
   .number (c.level + backoff - (if r.drive = .degraded then 3 else 0) : Nat), .number r.holds]

/-- R184: a claim as rank, claimant kind and id. -/
def claimShown (c : Claim) : List TextField :=
  .number c.rank :: (match c.who with
    | .override => [.text "OVERRIDE", .text "none"]
    | .call n => [.text "CALL", .number n]
    | .live d => [.text "LIVE", .number d.val]
    | .clip d => [.text "CLIP", .number d.val]
    | .window a => [.text "ADMIT", .number (audNumber a)]
    | .test .link => [.text "TEST", .text "LINK"]
    | .test .console => [.text "TEST", .text "CONSOLE"])

/-- R184: the second line of `z n`: the active claim or HOME, the stack from bottom to top, the time
left of each test, LINK's first, in seconds rounded up (log 41). -/
def claimsShown (s : State) (z : ZoneId) : List TextField :=
  let r := look s.svc.zones z
  let seconds (t : Option Nat) : List TextField :=
    (t.map (fun n => TextField.number ((n + 999) / 1000 : Nat))).toList
  (r.active.map claimShown).getD [.text "HOME"] ++ (r.stack.reverse.map claimShown).flatten
    ++ seconds r.testLink ++ seconds r.testConsole

/-- R23: the third line of `z n` (log 45): the modules by number or none, the resistance window, the
foyer home and the override flag. -/
def zoneRestShown (s : State) (z : ZoneId) : List TextField :=
  let c := look s.control.cfg.zones z
  (if c.modules.isEmpty then [.text "none"] else c.modules.map (fun m => .number (m.val + 1 : Nat)))
    ++ [.number c.windowLow, .number c.windowHigh,
      named [(.aux, "AUX"), (.silence, "SILENCE")] c.foyerHome, yesOrNo c.flagged]

/-- R184: the two lines of `m n`; R46's other fields are left out (log 45), the bits of the fault latch
are those of log 57. -/
def moduleShown (s : State) (m : ModuleId) : List (List TextField) :=
  let r := look s.sup.modules m
  let bits (n : Nat) : TextField := .hex (BitVec.ofNat 16 n)
  let loop := allZones.find? (fun z =>
    let c := look s.control.cfg.zones z
    (c.kind == .hallLoop || c.kind == .foyerLoop) && c.modules.contains m)
  [[.number (m.val + 1 : Nat),
    named [(.unknown, "UNKNOWN"), (.absent, "ABSENT"), (.notReady, "NOT-READY"), (.good, "GOOD"),
      (.warn, "WARN"), (.fault, "FAULT")] r.state,
    (r.identity.map TextField.hex).getD (.text "none"),
    named [(none, "unknown"), (some true, "yes"), (some false, "no")] r.outputEnabled,
    yesOrNo r.tripped, .number r.run,
    yesOrNo (s.control.cfg.supervision.enables.getLsbD (m.val + 1))],
   [numberOrNone (r.resistance.map Int.ofNat), numberOrNone r.temperature,
    bits (faultBits r.latch + 32 * r.loopShort.toNat + 64 * r.loopOpen.toNat),
    bits (faultBits r.carried), numberOrNone (loop.map (fun z => (z.val : Int)))]]

/-- R183: an argument as written: 1 to 5 decimal digits, of a value up to 65,535. -/
structure Written (word : List Byte) (n : Nat) : Prop where
  digits : ∀ c ∈ word, 0x30 ≤ c.toNat ∧ c.toNat ≤ 0x39
  count : 1 ≤ word.length ∧ word.length ≤ 5
  value : n = Nat.ofDigits 10 (word.reverse.map (fun c => c.toNat - 0x30))
  limit : n ≤ 65535

/-- R183: a command's letter and arguments. -/
def spelling : ConsoleCommand → Byte × List Nat
  | .status => (0x73, [])
  | .zone n => (0x7A, [n])
  | .module_ n => (0x6D, [n])
  | .test n true => (0x74, [n, 1])
  | .test n false => (0x74, [n, 0])
  | .go n => (0x67, [n])
  | .read m w => (0x72, [m, w])

/-- R183: a line spells a command: its words, apart by spaces, are the letter and the arguments. -/
def Spells (line : List Byte) (cmd : ConsoleCommand) : Prop :=
  ∃ args : List (List Byte),
    (line.splitOn 0x20).filter (fun w => !w.isEmpty) = [(spelling cmd).1] :: args
      ∧ List.Forall₂ Written args (spelling cmd).2

/-- The row of the table that a console command is. -/
def rowOf : ConsoleCommand → Instr
  | .status => .consoleStatus
  | .zone n => .consoleZoneStatus n
  | .module_ n => .consoleModuleStatus n
  | .test n true => .consoleTestStart n
  | .test n false => .consoleTestStop n
  | .go n => .softCue n
  | .read m w => .consoleAmpRead m w

/-- The lists of a record are in ascending order, as a mask gives them. -/
def ascending : ConfigRecord → Prop
  | .zone c => c.modules.Pairwise (· < ·)
  | .entrance c => c.adjacent.Pairwise (· < ·)
  | _ => True

/-- R106, R107: the unloaded head of channel `d` can be armed into slot `i`. -/
structure CanLoad (d : ChannelId) (head : ClipDesc) (i : SlotId) (s : State) : Prop where
  running : s.control.running = true
  queued : (look s.svc.channels d).queue.head? = some head
  unloaded : (look s.svc.channels d).headSlot = none
  slot : idleSlot s.svc d = some i
  legal : between 1 255 head.clipId = true ∧ between 1 3750 head.length = true
  room : reserve s.svc.slots + min 32 head.length ≤ s.svc.free

/-- R85, R106: the head of channel `d` has been armed into slot `i`, which begins to want feed (R89). -/
structure HeadLoaded (d : ChannelId) (head : ClipDesc) (i : SlotId) (s u : State) : Prop where
  channels : u.svc.channels = put s.svc.channels d
    { look s.svc.channels d with headSlot := some i, headFilled := false }
  slots : u.svc.slots = put s.svc.slots i
    { Slot.idle with
      state := .loading, owner := some head.clipId, length := head.length, toReceive := head.length }
  notice : u.svc.link.pendingKinds &&& 0x0020 = 0x0020
  rest : u.svc.free = s.svc.free ∧ u.svc.zones = s.svc.zones ∧ u.svc.calls = s.svc.calls
    ∧ u.svc.houses = s.svc.houses ∧ u.control = s.control ∧ u.cue = s.cue ∧ u.sup = s.sup

/-- R109, R120: the active clip `k` of channel `d` has ended with an outcome; its slot has been
abandoned, and is IDLE or already LOADING a queued head. -/
structure ClipEnded (d : ChannelId) (k : ActiveClip) (outcome : ClipOutcome) (s u : State) : Prop where
  gone : (look u.svc.channels d).active = none
  last : (look u.svc.channels d).lastOutcome = some
    { clipId := k.desc.clipId, outcome := outcome, clock := channelClock s.env d, standing := k.standing }
  mode : (look u.svc.channels d).mode = if k.standing then .scripted else (look s.svc.channels d).mode
  queue : (look u.svc.channels d).queue = (look s.svc.channels d).queue
  zones : ∀ z, (look u.svc.zones z).carries (.clip d) = false
    ∧ (look u.svc.zones z).stacks (.clip d) = false
  notice : u.svc.link.pendingKinds &&& 0x0008 = 0x0008
  slot : (look s.svc.slots k.slot).state ≠ .idle →
    (look s.svc.slots k.slot).owner = some k.desc.clipId →
    (look u.svc.slots k.slot).held = []
      ∧ ((look u.svc.slots k.slot).state = .idle ∨ (look u.svc.slots k.slot).state = .loading)
      ∧ u.svc.free = s.svc.free + (look s.svc.slots k.slot).held.length
  others : ∀ e, e ≠ d → (look u.svc.channels e).active = (look s.svc.channels e).active
    ∧ (look u.svc.channels e).queue = (look s.svc.channels e).queue
  rest : u.svc.calls = s.svc.calls ∧ u.svc.houses = s.svc.houses ∧ u.sup = s.sup ∧ u.cue = s.cue
    ∧ u.quiet = s.quiet ∧ u.control = s.control

/-- R128, R129: the live call `k` has ended with an outcome; the slot it had has been abandoned and a
walk is owed. -/
structure CallEnded (k : Call) (outcome : CallOutcome) (s u : State) : Prop where
  gone : findCall k.desc.callId u.svc = none
  others : ∀ c ∈ s.svc.calls, c.desc.callId ≠ k.desc.callId → c ∈ u.svc.calls
  finished : u.svc.finished =
    (if 8 ≤ s.svc.finished.length then s.svc.finished.drop (s.svc.finished.length - 7)
      else s.svc.finished)
      ++ [{ callId := k.desc.callId, targets := k.desc.targets, heard := k.heard, done := k.done
            firstStart := k.firstStart, endTime := s.svc.callClock, outcome := outcome }]
  zones : ∀ z, (look u.svc.zones z).carries (.call k.desc.callId) = false
    ∧ (look u.svc.zones z).stacks (.call k.desc.callId) = false
  notice : u.svc.link.pendingKinds &&& 0x0040 = 0x0040
  slot : ∀ i, k.slot = some i → u.svc.walkDue = true
    ∧ ((look s.svc.slots i).state ≠ .idle → (look s.svc.slots i).owner = some k.desc.callId →
        u.svc.slots = put s.svc.slots i Slot.idle
          ∧ u.svc.free = s.svc.free + (look s.svc.slots i).held.length)
  noSlot : k.slot = none → u.svc.slots = s.svc.slots ∧ u.svc.free = s.svc.free
  rest : u.svc.channels = s.svc.channels ∧ u.svc.houses = s.svc.houses ∧ u.sup = s.sup
    ∧ u.cue = s.cue ∧ u.quiet = s.quiet ∧ u.control = s.control

/-- R143: the zones heard after a repetition that has ended. -/
def heardAfter (k : Call) : List ZoneId :=
  k.desc.targets.filter (fun z => k.heard.contains z || k.unbroken.contains z)

/-- R143: a repetition of call `k` has ended: the last one ends the call DONE; after another the call
is in SPACING, or in WAITING when its spacing is 0. -/
structure RepetitionEnded (k : Call) (s u : State) : Prop where
  last : k.desc.repetitions ≤ k.done + 1 →
    CallEnded { k with done := k.done + 1, heard := heardAfter k } .done s u
  more : k.done + 1 < k.desc.repetitions →
    ∃ c : Call, findCall k.desc.callId u.svc = some c ∧ c.desc = k.desc ∧ c.done = k.done + 1
      ∧ c.heard = heardAfter k ∧ c.unbroken = [] ∧ c.phase = none ∧ c.slot = k.slot
      ∧ c.state = (if k.desc.spacing = 0 then .waiting else .spacing)
      ∧ c.spacingLeft = (if k.desc.spacing = 0 then none else some (k.desc.spacing * 1000))
      ∧ c.expiryLeft = k.expiryLeft ∧ u.svc.finished = s.svc.finished
  zones : ∀ z, (look u.svc.zones z).carries (.call k.desc.callId) = false
    ∧ (look u.svc.zones z).stacks (.call k.desc.callId) = false
  rest : u.svc.channels = s.svc.channels ∧ u.svc.houses = s.svc.houses ∧ u.sup = s.sup
    ∧ u.cue = s.cue ∧ u.quiet = s.quiet ∧ u.control = s.control

/-- R156: the admission window of auditorium `a` has closed with a reason. -/
structure WindowClosed (a : Aud) (reason : CloseReason) (s u : State) : Prop where
  house : (u.svc.houses.get a).state = if notClosed s.env a s.svc = [] then .sealed else .closing
  timers : (u.svc.houses.get a).windowLeft = none
    ∧ (u.svc.houses.get a).graceLeft = (if notClosed s.env a s.svc = [] then none
        else some ((s.control.cfg.auditoria.get a).grace * 1000))
  record : ∀ w, (s.svc.houses.get a).record = some w → (u.svc.houses.get a).record = some
    { w with
      closed := some (s.cue.get a).clock, closeReason := some reason
      grace := if notClosed s.env a s.svc = [] then .notNeeded else w.grace }
  lamps : ∀ e, (look s.control.cfg.entrances e).auditorium = some a →
    (look u.svc.entrances e).lamp = .red
  holds : ∀ e, (look s.control.cfg.entrances e).auditorium = some a →
    (look u.svc.entrances e).holding = holdsNow s.env e u.svc
  notice : u.svc.link.pendingKinds &&& 0x0080 = 0x0080
  other : ∀ b, b ≠ a → u.svc.houses.get b = s.svc.houses.get b
  rest : u.svc.slots = s.svc.slots ∧ u.svc.channels = s.svc.channels ∧ u.svc.chimes = s.svc.chimes
    ∧ u.sup = s.sup ∧ u.cue = s.cue ∧ u.control = s.control

/-- R155, R160: a new admission window of auditorium `a` has opened. -/
structure WindowOpened (a : Aud) (seconds : Nat) (onMusic : Bool) (s u : State) : Prop where
  house : (u.svc.houses.get a).state = .admitting
    ∧ (u.svc.houses.get a).windowLeft = some (windowTime s.env a seconds * 1000)
    ∧ (u.svc.houses.get a).graceLeft = none ∧ (u.svc.houses.get a).closeOnMusic = onMusic
    ∧ (u.svc.houses.get a).windows = advanceTo (s.svc.houses.get a).windows
  record : ∃ w : WindowRecord, (u.svc.houses.get a).record = some w
    ∧ w.number = advanceTo (s.svc.houses.get a).windows ∧ w.opened = (s.cue.get a).clock
    ∧ w.windowTime = windowTime s.env a seconds ∧ w.closeOnMusic = onMusic
    ∧ w.openedBy = .request ∧ w.closed = none ∧ w.closeReason = none ∧ w.grace = .pending
    ∧ w.leftOpen = []
  lamps : ∀ e, (look s.control.cfg.entrances e).auditorium = some a →
    (look u.svc.entrances e).lamp
      = if (look s.control.cfg.entrances e).admission then .green else .red
  holds : ∀ e, (look s.control.cfg.entrances e).auditorium = some a →
    (look u.svc.entrances e).holding = holdsNow s.env e u.svc
  chime : lobbyZones s.env a ≠ [] → chimeSounds (.window a) u.svc = true
  notice : u.svc.link.pendingKinds &&& 0x0080 = 0x0080
  other : ∀ b, b ≠ a → u.svc.houses.get b = s.svc.houses.get b
  rest : u.svc.slots = s.svc.slots ∧ u.svc.channels = s.svc.channels ∧ u.sup = s.sup
    ∧ u.cue = s.cue ∧ u.quiet = s.quiet ∧ u.control = s.control

/-! ## Invariants -/

/-- R81, R84: every block is on the free list or held by a slot, an IDLE slot holds none, and the
free list covers the reserve. -/
structure PoolRight (sv : Services) : Prop where
  idle : ∀ i, (look sv.slots i).state = .idle → (look sv.slots i).held = []
  total : sv.free + heldTotal sv.slots = 4096
  covered : reserve sv.slots ≤ sv.free

/-- No list has grown past its bound: stacks (R7), clip queues (R105), the call table (R126), the
finished list (R129), the outstanding list (R169), the immediate replies (R168, one being sent counted
among them, log 55), the blocks of a slot (R82). -/
structure Bounded (sv : Services) : Prop where
  stack : ∀ z, (look sv.zones z).stack.length ≤ 4
  queues : ∀ d, (look sv.channels d).queue.length ≤ 4
  calls : sv.calls.length ≤ 16
  finished : sv.finished.length ≤ 8
  outstanding : sv.link.outstanding.length ≤ 4
  immediate : (sv.link.tx.filter TxItem.isImmediate).length ≤ 4
  held : ∀ i, (look sv.slots i).held.length ≤ slotLimit

/-- No list of a cue follower and no console line has grown past its bound: the cue list (R60), which
is in ascending order of cue number (R61), the capture log (R58), the advances and jumps that wait
(R57), the line (R182). -/
structure Lengths (cue : Two CueFollower) (console : Console) : Prop where
  ascending : ∀ a, (cue.get a).list.Pairwise (fun x y => x.number < y.number)
  entries : ∀ a, (cue.get a).list.length ≤ 64
  captures : ∀ a, (cue.get a).log.length ≤ 16
  waiting : ∀ a, (cue.get a).waiting.length ≤ 8
  line : console.line.length ≤ 40

/-- R151: the lamp an entrance shows, from its auditorium's house state. -/
def lampOf (s : State) (e : EntranceId) : Lamp :=
  match (look s.control.cfg.entrances e).auditorium with
  | some a => lampFor (s.svc.houses.get a).state (look s.control.cfg.entrances e).admission
  | none => .off

/-- R151, R164, R193: the lamps follow the house states; in CONFIG, and so while a load is in progress
or a reset holds, both houses are OPEN. -/
structure LampsRight (s : State) : Prop where
  lamps : ∀ e, (look s.svc.entrances e).lamp = lampOf s e
  config : s.control.running = false → ∀ a, (s.svc.houses.get a).state = .opened
  load : loading s.control = true → s.control.running = false
  held : s.control.holding = true → s.control.running = false

end Sys2Proof.Machine
end

