-- ==== Sys2Proof/Certificates/Slice0/Obligations.lean ====
section
/-! DEFINITION. The statements about the part. -/

open Sys2Proof Sys2Proof.Machine

/-! ## Steps, acceptance, resets -/

/-- A step of `s` with `c` at the front of its queue is `exec c` on `s` with the queue's rest. -/
def Obligations.StepRunsFrontCommand : Prop :=
  ∀ (c : Instr) (s : State), step { s with pending := c :: s.pending } = exec c s

/-- On an empty queue a step is a millisecond (the model's choice, log 3): the call clock and the
show clocks that run count one and hold at their limit. A timer that runs out in it, a block or a
chime that has been played, a latest start that the show clock has passed, and a line of which two
equal samples confirm a change put their commands into the queue, and nothing else does: the lines of
RUN are sampled every millisecond, OVR and the sensors every tenth. -/
def Obligations.EmptyQueueCountsTime : Prop :=
  (∀ s : State, s.pending = [] → Still s →
    (∀ a, (s.cue.get a).firing = none ∧ (s.cue.get a).waiting = []) →
    ∃ t : State, step s = .next t
      ∧ t.svc.callClock = (if s.svc.callClock < 4294967295 then s.svc.callClock + 1 else s.svc.callClock)
      ∧ (∀ a, (t.cue.get a).clock =
          if (s.cue.get a).running ∧ (s.cue.get a).clock < 4294967295 then (s.cue.get a).clock + 1
          else (s.cue.get a).clock)
      ∧ t.control = s.control ∧ t.svc.free = s.svc.free ∧ t.pins = s.pins
      ∧ t.svc.link.outstanding = s.svc.link.outstanding ∧ t.svc.link.tx = s.svc.link.tx
      ∧ t.svc.finished = s.svc.finished)
  ∧ (∀ s : State, s.pending = [] → Still s →
    (∀ a, (s.cue.get a).firing = none ∧ (s.cue.get a).waiting = []) →
    let out (left : Option Nat) := ∃ n, left = some n ∧ n ≤ 1
    ∃ t : State, step s = .next t
      ∧ (.silenceTimerExpiry ∈ t.pending ↔ out s.svc.link.silenceLeft)
      ∧ (.frameTimeout ∈ t.pending ↔ ∃ k rest, s.svc.link.buffer = k :: rest ∧ 19 ≤ k.age)
      ∧ (.consoleIdleExpiry ∈ t.pending ↔
          s.console.state = .silent ∧ s.pins.consoleStop = true ∧ 9 ≤ s.console.idle)
      ∧ (.pollGapExpiry ∈ t.pending ↔
          ∃ e, s.sup.poll = .gap e ∧ s.control.cfg.supervision.gap ≤ e + 1)
      ∧ (∀ z src, .testLimitExpiry z src ∈ t.pending ↔ out ((look s.svc.zones z).testLeft src))
      ∧ (∀ a, (.lockoutExpiry a ∈ t.pending ↔ out (s.cue.get a).lockout)
          ∧ (.openTimerExpiry a ∈ t.pending ↔ out (s.quiet.get a).openLeft)
          ∧ (.windowExpiry a ∈ t.pending ↔ out (s.svc.houses.get a).windowLeft)
          ∧ (.graceExpiry a ∈ t.pending ↔ out (s.svc.houses.get a).graceLeft))
      ∧ (∀ i, (.blockPlayed i ∈ t.pending ↔ (look s.svc.slots i).state = .playing
            ∧ (look s.svc.slots i).fillNow ≤ (look s.svc.slots i).offset + 16)
          ∧ (.starveTimerExpiry i ∈ t.pending ↔ out (look s.svc.slots i).starve))
      ∧ (∀ d, (.resumeLimitExpiry d ∈ t.pending ↔
            ∃ k, (look s.svc.channels d).active = some k ∧ out k.resumeLeft)
          ∧ (.latestStartPassed d ∈ t.pending ↔ ∃ a k,
            (look s.control.cfg.channels d).auditorium = some a
            ∧ (look s.svc.channels d).active = some k ∧ k.state.waits = true
            ∧ k.desc.latestStart ≠ 0 ∧ k.desc.latestStart < (t.cue.get a).clock))
      ∧ (∀ id, (.callExpiry id ∈ t.pending ↔
            ∃ k ∈ s.svc.calls, k.desc.callId = id ∧ out k.expiryLeft)
          ∧ (.spacingExpiry id ∈ t.pending ↔
            ∃ k ∈ s.svc.calls, k.desc.callId = id ∧ out k.spacingLeft)
          ∧ (.breakExpiry id ∈ t.pending ↔
            ∃ k ∈ s.svc.calls, k.desc.callId = id ∧ out k.breakLeft)
          ∧ (.micTimerExpiry id ∈ t.pending ↔
            ∃ k ∈ s.svc.calls, k.desc.callId = id ∧ out k.micLeft))
      ∧ (∀ o, .chimeEnd o ∈ t.pending ↔ ∃ c ∈ s.svc.chimes, c.owner = o ∧ c.left ≤ 1)
      ∧ (∀ a, let c := s.cue.get a
          let level := s.pins.cue.get a
          let active := level = ((s.control.cfg.auditoria.get a).cuePolarity == .activeHigh)
          let settled := s.control.running = true ∧ c.sample = some level
          (.cuePress a ∈ t.pending ↔ settled ∧ c.filter = .released ∧ active)
          ∧ (.cueLineRelease a ∈ t.pending ↔ settled ∧ c.filter = .pressed ∧ ¬ active)
          ∧ (∀ b, .cueLineSettled a b ∈ t.pending ↔
              settled ∧ c.filter = .unsettled ∧ (b = true ↔ active))
          ∧ (t.cue.get a).sample = if s.control.running then some level else c.sample)
      ∧ (∀ key, let k := liveKeyOf s.svc key
          let high := match key with | .liveA => s.pins.keyA | .liveB => s.pins.keyB
          let settled := s.control.running = true ∧ k.sample = some high
          (.liveKeyPress key ∈ t.pending ↔ settled ∧ k.filter ≠ .pressed ∧ high = false)
          ∧ (.liveKeyRelease key ∈ t.pending ↔ settled ∧ k.filter = .pressed ∧ high = true)
          ∧ (.liveKeySettled key ∈ t.pending ↔ settled ∧ k.filter = .unsettled ∧ high = true))
      ∧ (.overrideAsserted ∈ t.pending ↔ s.phase = 0 ∧ s.ovrSample = some true
          ∧ s.pins.ovr = true ∧ s.svc.override = false)
      ∧ (.overrideReleased ∈ t.pending ↔ s.phase = 0 ∧ s.ovrSample = some false
          ∧ s.pins.ovr = false ∧ s.svc.override = true)
      ∧ (∀ e o, .entranceSensorEvent e o ∈ t.pending ↔ s.phase = 0
          ∧ (look s.svc.entrances e).sample = some (look s.pins.sensors e)
          ∧ (look s.svc.entrances e).sensed ≠ (if o then .opened else .closed)
          ∧ look s.pins.sensors e = (if (look s.control.cfg.entrances e).polarity = .openHigh then o
              else !o))
      ∧ t.ovrSample = (if s.phase = 0 then some s.pins.ovr else s.ovrSample)
      ∧ t.phase = (s.phase + 1) % 10)

/-- No state stops the part (the model's choice, log 24).
No command touches the queue of the commands that wait. -/
def Obligations.StepsGoOnAndLeaveTheQueue : Prop :=
  (∀ s : State, goesOn (step s))
  ∧ (∀ (c : Instr) (s t : State), exec c s = .next t → t.pending = s.pending)

/-- A request that is not accepted: with four outstanding it is refused BUSY by an immediate reply
(dropped when four immediate replies wait, the one being sent among them: log 55); after an accepted
RESET it is discarded; while a reset holds it is lost (log 23). In the first two cases it counts as
a valid frame, and nothing else changes. -/
def Obligations.RequestsNotAccepted : Prop :=
  ∀ (c : Instr) (tag : Byte) (kind : RequestKind) (s : State), requestOf c = some (tag, kind) →
    (s.control.holding = true → exec c s = .next s)
    ∧ (s.control.holding = false → s.svc.link.accepting = false →
        exec c s = .next { s with svc := { s.svc with link := { s.svc.link with
          standalone := false, silenceLeft := silenceAfterFrame s } } })
    ∧ (s.control.holding = false → s.svc.link.accepting = true →
        4 ≤ s.svc.link.outstanding.length →
        exec c s = .next { s with svc := { s.svc with link := { s.svc.link with
          standalone := false, silenceLeft := silenceAfterFrame s
          tx := s.svc.link.tx ++
            (if 4 ≤ (s.svc.link.tx.filter TxItem.isImmediate).length then []
             else [.immediate tag (kind.code + 0x80) [0x01]]) } } })

/-- A reset puts every block at its reset values and holds; the settings memory and the straps as
last read stay, and so do the pins, but that RST reads low at RESET_LINE (log 27). The record takes
the kind of the reset that began, or POWER-ON when power is applied.
The end of a reset: the straps are read; WAIT stays in CONFIG, SELF begins a start-up load, shown
in the result record, with no result while it runs (log 25). Nothing when no reset holds (log 2). -/
def Obligations.ResetsBeginAndEnd : Prop :=
  (∀ s : State,
      (∃ t : State, exec .powerOn s = .next t ∧ BlocksAtReset t ∧ t.control.cause = .powerOn
        ∧ t.control.holding = true ∧ t.control.memory = s.control.memory
        ∧ t.control.strap = s.control.strap ∧ t.control.fastLink = s.control.fastLink ∧ t.pins = s.pins)
      ∧ (∃ t : State, exec .supplyDip s = .next t ∧ BlocksAtReset t
        ∧ t.control.cause = (if s.control.holding then s.control.cause else .supplyDip)
        ∧ t.control.holding = true ∧ t.control.memory = s.control.memory
        ∧ t.control.strap = s.control.strap ∧ t.control.fastLink = s.control.fastLink ∧ t.pins = s.pins)
      ∧ (∃ t : State, exec .resetLine s = .next t ∧ BlocksAtReset t
        ∧ t.control.cause = (if s.control.holding then s.control.cause else .resetLine)
        ∧ t.control.holding = true ∧ t.control.memory = s.control.memory
        ∧ t.control.strap = s.control.strap ∧ t.control.fastLink = s.control.fastLink
        ∧ t.pins = { s.pins with rst := false }))
  ∧ (∀ (m1 m0 : Bool) (s : State),
      (s.control.holding = false → exec (.resetEnd m1 m0) s = .next s)
      ∧ (s.control.holding = true → s.svc.reports = [] → s.svc.walkDue = false →
        ∃ t : State, exec (.resetEnd m1 m0) s = .next t
          ∧ t.svc = s.svc ∧ t.cue = s.cue ∧ t.quiet = s.quiet ∧ t.console = s.console
          ∧ t.control.holding = false ∧ t.control.strap = (if m1 then .self else .wait)
          ∧ t.control.fastLink = m0 ∧ t.control.running = s.control.running
          ∧ t.control.cfg = s.control.cfg ∧ t.control.memory = s.control.memory
          ∧ t.control.cause = s.control.cause
          ∧ t.control.settings = (if m1 then some .startLoad else s.control.settings)
          ∧ t.control.result = (if m1 then { kind := some .startLoad, result := none, inProgress := true }
              else s.control.result)
          ∧ t.sup.modules = s.sup.modules ∧ t.sup.bus = s.sup.bus))

/-- State.reset is the part after a power-on reset that has ended in WAIT mode (the straps and the
memory are the model's choice, log 4 and 8), with the block reset values of the spec; the invariants
that steps keep hold in it. -/
def Obligations.ResetStateHasResetValues : Prop :=
  BlocksAtReset State.reset ∧ State.reset.control.holding = false
    ∧ State.reset.control.cause = .powerOn ∧ State.reset.control.memory = []
    ∧ State.reset.sup.poll = .idle ∧ State.reset.pending = []
    ∧ PoolRight State.reset.svc ∧ Bounded State.reset.svc ∧ LampsRight State.reset
    ∧ Lengths State.reset.cue State.reset.console
    ∧ Memory.wf State.reset.control.memory = true

/-! ## The link port -/

/-- The receiver (R166, R167). HUNT: a byte that is not the start byte, or has a framing error, is
dropped; the start byte is kept. LENGTH: a LEN of 2-251 is kept, any other discards the frame.
COLLECT: bytes are kept until the frame is whole. A framing error, a frame not complete 20 ms after
its start byte and a whole frame whose CRC is wrong discard the start byte, and the kept bytes
after it are examined again: those that begin no frame go, a frame under way in them goes on, a
whole one is taken. Nothing to time out in HUNT (log 2).
A whole frame (R168): one whose KIND is no request code, or whose BODY length is not the kind's, is
refused by an immediate reply (which of them count among the four: log 55); one that spells a
request does what that request does, and the receiver is back in HUNT (stated for the kinds of one
layout; flags as in log 11 and 49).
The frames sent (R167, R170, R174) have the start byte, LEN, TAG, KIND, BODY and a right CRC. -/
def Obligations.ReceiverTakesBytes : Prop :=
  (∀ (b : Byte) (s : State), Still s →
      (s.svc.link.buffer = [] → b ≠ 0xE7 → exec (.linkByteReceived b false) s = .next s)
      ∧ (s.svc.link.buffer = [] → exec (.linkByteReceived b true) s = .next s)
      ∧ (s.svc.link.buffer = [] →
          exec (.linkByteReceived 0xE7 false) s = .next (keeping [{ byte := 0xE7, age := 0 }] s))
      ∧ (∀ k, s.svc.link.buffer = [k] → k.byte = 0xE7 → k.age < 20 →
          exec (.linkByteReceived b false) s = .next
            (keeping (if 2 ≤ b.toNat ∧ b.toNat ≤ 251 then [k, { byte := b, age := 0 }] else []) s))
      ∧ (∀ k len more, s.svc.link.buffer = k :: len :: more → k.byte = 0xE7 → k.age < 20 →
          2 ≤ len.byte.toNat → len.byte.toNat ≤ 251 → more.length + 3 < len.byte.toNat + 4 →
          exec (.linkByteReceived b false) s
            = .next (keeping (s.svc.link.buffer ++ [{ byte := b, age := 0 }]) s)))
  ∧ (∀ (k : KeptByte) (gone left : List KeptByte) (s : State), Still s →
      (∀ x ∈ gone, x.byte ≠ 0xE7) → UnderWay left →
      (s.svc.link.buffer = k :: (gone ++ left) →
        (∀ b, exec (.linkByteReceived b true) s = .next (keeping left s))
        ∧ exec .frameTimeout s = .next (keeping left s))
      ∧ (∀ b len more, s.svc.link.buffer ++ [{ byte := b, age := 0 }] = k :: (gone ++ left) →
          gone ++ left = len :: more → k.byte = 0xE7 → 2 ≤ len.byte.toNat → len.byte.toNat ≤ 251 →
          more.length + 2 = len.byte.toNat + 4 →
          crcRight ((k :: (gone ++ left)).map (·.byte)) = false →
          exec (.linkByteReceived b false) s = .next (keeping left s)))
  ∧ (∀ s : State, s.control.holding = false → Still s → s.svc.link.buffer = [] →
      exec .frameTimeout s = .next s)
  ∧ (∀ (tag : Byte) (s : State), Still s →
      let last (kind : Byte) (body : List Byte) (b : Byte) :=
        s.svc.link.buffer.map (·.byte) ++ [b] = frameBytes tag kind body
      (∀ kind body b, body.length ≤ 249 → last kind body b → kindOf kind = none →
          s.svc.link.accepting = true →
          exec (.linkByteReceived b false) s = .next (refusedFrame tag 0xFF [0x02, kind] s))
      ∧ (∀ (kind : RequestKind) body b n, body.length ≤ 249 → last kind.code body b →
          onlyLength kind = some n → body.length ≠ n → s.svc.link.accepting = true →
          exec (.linkByteReceived b false) s
            = .next (refusedFrame tag (kind.code + 0x80) [0x03] s))
      ∧ (∀ (i : Instr) (kind : RequestKind) body b, requestOf i = some (tag, kind) →
          bodyOf i = some body → last kind.code body b →
          ∃ u : State, exec i s = .next u
            ∧ exec (.linkByteReceived b false) s = .next (keeping [] u).settled)
      ∧ (∀ (i : Instr) (kind : RequestKind) body k gone found, requestOf i = some (tag, kind) →
          bodyOf i = some body → (∀ x ∈ gone, x.byte ≠ 0xE7) →
          s.svc.link.buffer = k :: (gone ++ found) →
          found.map (·.byte) = frameBytes tag kind.code body →
          ∃ u : State, exec i s = .next u ∧ exec .frameTimeout s = .next (keeping [] u).settled))
  ∧ (∀ (tag kind : Byte) (body : List Byte), body.length ≤ 249 →
      (∃ high low : Byte, frameBytes tag kind body
          = 0xE7 :: BitVec.ofNat 8 (body.length + 2) :: tag :: kind :: (body ++ [low, high]))
      ∧ crcRight (frameBytes tag kind body) = true)
  ∧ (∀ (tag : Byte) (kind : RequestKind) (b body : List Byte) (more : List (List Byte)) (k : Byte),
      (TxItem.reply tag kind (b :: more)).frame = frameBytes tag (kind.code + 0x80) b
      ∧ (TxItem.immediate tag k body).frame = frameBytes tag k body
      ∧ (TxItem.notice body).frame = frameBytes 0x00 0x7E body)

/-- The end of a frame: the frame at the head of the transmit queue has been sent; with none there it
changes nothing (log 2). A reply with more
frames keeps its entry; the last byte of a reply takes its entry off the outstanding list, and after
the reply of RESET the part is reset; an immediate reply just goes; after a notice the notice
condition is judged again. -/
def Obligations.FrameSentMovesTheQueue : Prop :=
  ∀ s : State, s.control.holding = false →
    (s.svc.link.tx = [] → exec .frameSent s = .next s)
    ∧ (∀ tag kind b1 b2 more rest, s.svc.link.tx = .reply tag kind (b1 :: b2 :: more) :: rest →
        exec .frameSent s = .next { s with svc := { s.svc with link := { s.svc.link with
          tx := .reply tag kind (b2 :: more) :: rest } } })
    ∧ (∀ tag kind b rest, s.svc.link.tx = .reply tag kind [b] :: rest → kind ≠ .reset →
        exec .frameSent s = .next { s with svc := { s.svc with link := { s.svc.link with
          tx := rest, outstanding := s.svc.link.outstanding.erase { tag := tag, kind := kind } } } })
    ∧ (∀ tag b rest, s.svc.link.tx = .reply tag .reset [b] :: rest →
        ∃ t : State, exec .frameSent s = .next t ∧ BlocksAtReset t ∧ t.control.cause = .linkReset
          ∧ t.control.holding = true ∧ t.control.memory = s.control.memory)
    ∧ (∀ tag kind b rest, s.svc.link.tx = .immediate tag kind b :: rest →
        exec .frameSent s = .next { s with svc := { s.svc with link := { s.svc.link with tx := rest } } })
    ∧ (∀ b rest, s.svc.link.tx = .notice b :: rest →
        exec .frameSent s = .next { s with svc := { s.svc with
          link := judgeNotice s.env { s.svc.link with tx := rest } } })

/-- The silence timer (R176) runs out: STANDALONE, SILENCE, and every slot that is not IDLE and
still has blocks to receive is abandoned with HOST-LOST, its blocks free, its owner told (in
ascending order, log 42). Nothing when the timer is stopped or has been restarted (log 2).
The reports that a command's work sends are taken after it, oldest first, and the walk it owes is
made (log 5, log 32). What they do: a clip whose slot is abandoned ends with the reason, a call
too, and its walk is owed (R99, R121, R144); a played stream ends its clip DONE, its call's
repetition, a pass that of a call or of a finishing clip (R116, R120, R138); a prefill fills a
queued head or a call, whose walk is owed, or lets a clip that waits for it go on (R106, R113,
R134); a clip whose claim is pushed is SUSPENDED and its slot paused, and ends RESUME-LIMIT when
the limit is 0, STOPPED when it is finishing; restored, it speaks on; lost, it ends (R116, R117); a
zone pushed or lost leaves the unbroken set of a playing call (R140); a LIVE claim lost is not held
(R103). -/
def Obligations.SilenceTimerSetsStandalone : Prop :=
  (∀ s : State, Still s →
      (s.svc.link.silenceLeft ≠ some 0 → exec .silenceTimerExpiry s = .next s)
      ∧ (s.svc.link.silenceLeft = some 0 →
        let lost := allSlots.filter (fun i =>
          (look s.svc.slots i).state != .idle && decide (0 < (look s.svc.slots i).toReceive))
        ∃ u : State, exec .silenceTimerExpiry s = .next u.settled
          ∧ u.svc.link.standalone = true ∧ u.svc.link.silenceLeft = none
          ∧ u.svc.link.pendingKinds = s.svc.link.pendingKinds ||| 0x0400
          ∧ (∀ i, look u.svc.slots i = if i ∈ lost then Slot.idle else look s.svc.slots i)
          ∧ u.svc.free = s.svc.free + (lost.map (fun i => (look s.svc.slots i).held.length)).sum
          ∧ u.svc.reports = lost.filterMap (fun i =>
              (look s.svc.slots i).owner.map (fun o => .slotAbandoned i .hostLost o))
          ∧ u.svc.zones = s.svc.zones ∧ u.svc.channels = s.svc.channels ∧ u.svc.calls = s.svc.calls
          ∧ u.svc.houses = s.svc.houses ∧ u.control = s.control ∧ u.cue = s.cue ∧ u.sup = s.sup))
  ∧ (∀ s : State, s.settled = { s with svc := settleWith 4096 s.env s.svc })
  ∧ (∀ (n : Nat) (env : Env) (sv : Services),
      (sv.reports = [] → sv.walkDue = false → settleWith n env sv = sv)
      ∧ (sv.reports = [] → sv.walkDue = true →
          settleWith (n + 1) env sv = settleWith n env (walk env sv))
      ∧ (∀ r rest, sv.reports = r :: rest → settleWith (n + 1) env sv
          = settleWith n env (deliver env r { sv with reports := rest })))
  ∧ (∀ s : State,
      let after (r : Report) : State := { s with svc := deliver s.env r s.svc }
      (∀ (i : SlotId) d k reason, slotChannel i = some d → (look s.svc.channels d).active = some k →
          k.slot = i →
          ClipEnded d k (match reason with
            | .starved => .starved | .hostLost => .hostLost | .config => .config) s
            (after (.slotAbandoned i reason k.desc.clipId))
          ∧ ClipEnded d k .done s (after (.streamDone i k.desc.clipId))
          ∧ (k.finishing = true → ∀ n, ClipEnded d k .done s (after (.passDone i n)))
          ∧ (k.finishing = false → ∀ n, after (.passDone i n) = s))
      ∧ (∀ (i : SlotId) k reason, slotChannel i = none → slotCall i s.svc = some k →
          findCall k.desc.callId s.svc = some k → k.slot = some i →
          CallEnded k (match reason with
            | .starved => .streamFailed | .hostLost => .hostLost | .config => .config) s
            (after (.slotAbandoned i reason k.desc.callId))
          ∧ (k.state = .playing → k.phase = some .message →
              RepetitionEnded k s (after (.streamDone i k.desc.callId))
              ∧ ∀ n, RepetitionEnded k s (after (.passDone i n))))
      ∧ (∀ (i : SlotId) d, slotChannel i = some d →
          let ch := look s.svc.channels d
          (ch.headSlot = some i → (∀ k, ch.active = some k → k.slot ≠ i) → after (.prefillReached i)
            = { s with svc := { s.svc with
                channels := put s.svc.channels d { ch with headFilled := true } } })
          ∧ (∀ k, ch.active = some k → k.slot = i → k.state = .waitingFill →
            ∃ st, (look (after (.prefillReached i)).svc.channels d).active
                = some { k with filled := true, state := st }
              ∧ (k.standing = false → k.desc.condition = .gap → channelGap s.env d ≠ .quiet →
                  st = .waitingGap)
              ∧ (k.standing = true ∨ k.desc.condition = .atCue ∨ channelGap s.env d = .quiet →
                  st = .speaking ∨ st = .waitingZone)))
      ∧ (∀ (i : SlotId) k, slotChannel i = none → slotCall i s.svc = some k →
          after (.prefillReached i) = { s with svc := { s.svc with
            walkDue := true
            calls := s.svc.calls.map (fun c =>
              if c.desc.callId = k.desc.callId then { c with filled := true } else c) } })
      ∧ (∀ d k (rank : Nat) (z : ZoneId), (look s.svc.channels d).active = some k →
          let pushed := after (.claimPushed ⟨rank, .clip d⟩ z)
          let restored := after (.claimRestored ⟨rank, .clip d⟩ z)
          let lost := after (.zoneLost ⟨rank, .clip d⟩ z)
          let limit := (look s.control.cfg.channels d).resumeLimit
          let sl := look s.svc.slots k.slot
          (k.state ≠ .speaking → pushed = s)
          ∧ (k.state = .speaking → k.finishing = true → ClipEnded d k .stopped s pushed)
          ∧ (k.state = .speaking → k.finishing = false → k.standing = false → limit = 0 →
              ClipEnded d k .resumeLimit s pushed)
          ∧ (k.state = .speaking → k.finishing = false → k.standing = true ∨ limit ≠ 0 →
              (look pushed.svc.channels d).active = some
                { k with
                  state := .suspended
                  resumeLeft := if k.standing then k.resumeLeft else some (limit * 1000) }
              ∧ (sl.state = .playing →
                  pushed.svc.slots = put s.svc.slots k.slot { sl with state := .paused })
              ∧ (sl.state = .starved → pushed.svc.slots = put s.svc.slots k.slot
                  { sl with state := .paused, starve := none })
              ∧ pushed.svc.zones = s.svc.zones ∧ pushed.svc.calls = s.svc.calls
              ∧ pushed.svc.free = s.svc.free ∧ pushed.svc.link = s.svc.link)
          ∧ (k.state ≠ .suspended → restored = s)
          ∧ (k.state = .suspended →
              (look restored.svc.channels d).active = some { k with state := .speaking, resumeLeft := none }
              ∧ (sl.state = .paused → 0 < sl.ahead →
                  restored.svc.slots = put s.svc.slots k.slot { sl with state := .playing })
              ∧ (sl.state = .paused → sl.ahead = 0 → 0 < sl.toReceive →
                  restored.svc.slots = put s.svc.slots k.slot
                    { sl with state := .starved, starve := some 500 })
              ∧ restored.svc.zones = s.svc.zones ∧ restored.svc.calls = s.svc.calls
              ∧ restored.svc.free = s.svc.free)
          ∧ (k.state = .speaking ∨ k.state = .suspended → ClipEnded d k .resumeLimit s lost)
          ∧ (k.state ≠ .speaking → k.state ≠ .suspended → lost = s))
      ∧ (∀ d (rank : Nat) (z : ZoneId), after (.zoneLost ⟨rank, .live d⟩ z)
          = { s with svc := { s.svc with
              channels := put s.svc.channels d { look s.svc.channels d with liveClaim := .none } } })
      ∧ (∀ id (rank : Nat) (z : ZoneId),
          let without : State := { s with svc := { s.svc with calls := s.svc.calls.map (fun k =>
            if k.desc.callId = id ∧ k.state = .playing then
              { k with unbroken := k.unbroken.filter (fun y => y != z) } else k) } }
          after (.claimPushed ⟨rank, .call id⟩ z) = without
          ∧ after (.zoneLost ⟨rank, .call id⟩ z) = without
          ∧ after (.claimRestored ⟨rank, .call id⟩ z) = s))

/-- IDENT answers with the part code, the revision, the operating state, the strap mode, the link
rate, the last reset cause, STANDALONE no (the frame has ended it) and the silence time.
RESET queues its OK reply and stops accepting; the reset itself comes when the reply is sent. -/
def Obligations.IdentAndResetAnswer : Prop :=
  (∀ (tag : Byte) (s : State), Ready s →
      exec (.ident tag) s = .next (answered tag .ident .ok
        [0x24, 0x48, 1, if s.control.running then 1 else 0,
         match s.control.strap with | .wait => 0 | .self => 1,
         if s.control.fastLink then 2 else 1,
         match s.control.cause with | .powerOn => 0 | .supplyDip => 1 | .resetLine => 2 | .linkReset => 3,
         1, BitVec.ofNat 8 s.control.cfg.link.silence] (taken tag .ident s)))
  ∧ (∀ (tag : Byte) (s : State), Ready s →
      ∃ t : State, exec (.reset tag) s = .next t
        ∧ t = { answered tag .reset .ok [] (taken tag .reset s) with
            svc := { (answered tag .reset .ok [] (taken tag .reset s)).svc with
              link := { (answered tag .reset .ok [] (taken tag .reset s)).svc.link with
                accepting := false } } })

/-- NOTICE-CLEAR clears the flags named and answers with what is left; a set with a bit of 12-15 is
refused with RANGE and clears nothing.
SILENCE-SET writes the silence time into the LINK record and answers OK; in RUN it restarts the
timer, or stops it with 0. Above 60 it is refused with RANGE and changes nothing. -/
def Obligations.NoticeClearAndSilenceSet : Prop :=
  (∀ (tag : Byte) (w : Word16) (s : State), Ready s →
      (w &&& 0xF000 = 0 →
        exec (.noticeClear tag w) s = .next (answered tag .noticeClear .ok
          (w16 (s.svc.link.pendingKinds &&& ~~~w))
          { taken tag .noticeClear s with svc := { (taken tag .noticeClear s).svc with
            link := { (taken tag .noticeClear s).svc.link with
              pendingKinds := s.svc.link.pendingKinds &&& ~~~w } } }))
      ∧ (w &&& 0xF000 ≠ 0 →
        exec (.noticeClear tag w) s = .next (answered tag .noticeClear .range [] (taken tag .noticeClear s))))
  ∧ (∀ (tag : Byte) (n : Nat) (s : State), Ready s →
      (60 < n → exec (.silenceSet tag n) s
          = .next (answered tag .silenceSet .range [] (taken tag .silenceSet s)))
      ∧ (n ≤ 60 → exec (.silenceSet tag n) s = .next (answered tag .silenceSet .ok []
          { taken tag .silenceSet s with
            control := { s.control with cfg := { s.control.cfg with
              link := { s.control.cfg.link with silence := n } } }
            svc := { (taken tag .silenceSet s).svc with link := { (taken tag .silenceSet s).svc.link with
              silenceLeft := if s.control.running then (if n = 0 then none else some (n * 1000))
                else s.svc.link.silenceLeft } } })))

/-- NOTICE-ENABLE replaces the enable set of the LINK record and answers OK, and a notice owed under
an open gate follows the reply; NOTICE-RESUME answers with the pending set, opens the gate and judges
at once. -/
def Obligations.NoticeEnableAndResume : Prop :=
  ∀ (tag : Byte) (w : Word16) (s : State), Ready s →
    (w &&& 0xF000 ≠ 0 →
      exec (.noticeEnable tag w) s
        = .next (answered tag .noticeEnable .range [] (taken tag .noticeEnable s)))
    ∧ (w &&& 0xF000 = 0 → ∃ t : State, exec (.noticeEnable tag w) s = .next t
        ∧ t.control = { s.control with cfg := { s.control.cfg with
            link := { s.control.cfg.link with enables := w } } }
        ∧ (let owed := s.svc.link.gateOpen && (s.svc.link.pendingKinds &&& w != 0)
              && !s.svc.link.tx.any TxItem.isNotice
           t.svc.link.gateOpen = (s.svc.link.gateOpen && !owed)
           ∧ t.svc.link.tx = s.svc.link.tx ++ [.reply tag .noticeEnable [[0x00]]]
              ++ (if owed then [.notice (w16 s.svc.link.pendingKinds
                    ++ [if s.control.running then 1 else 0])] else []))
        ∧ t.svc.link.pendingKinds = s.svc.link.pendingKinds
        ∧ t.svc.zones = s.svc.zones ∧ t.svc.slots = s.svc.slots ∧ t.cue = s.cue ∧ t.sup = s.sup)
    ∧ (∃ t : State, exec (.noticeResume tag) s = .next t
        ∧ (let owed := (s.svc.link.pendingKinds &&& s.control.cfg.link.enables != 0)
              && !s.svc.link.tx.any TxItem.isNotice
           t.svc.link.gateOpen = !owed
           ∧ t.svc.link.tx = s.svc.link.tx
              ++ [.reply tag .noticeResume [0x00 :: w16 s.svc.link.pendingKinds]]
              ++ (if owed then [.notice (w16 s.svc.link.pendingKinds
                    ++ [if s.control.running then 1 else 0])] else []))
        ∧ t.svc.link.pendingKinds = s.svc.link.pendingKinds ∧ t.control = s.control
        ∧ t.svc.zones = s.svc.zones ∧ t.svc.slots = s.svc.slots ∧ t.cue = s.cue ∧ t.sup = s.sup)

/-! ## Part control -/

/-- MODE RUN: in RUN it answers OK and changes nothing; while a load is in progress BUSY; with a
record that fails, RANGE and its index; otherwise the part enters RUN, the silence timer starts and
nothing of the configuration changes. The zones that are no loop kind are GOOD and without backoff
(R1). With OVR confirmed ASSERTED the router claims every flagged zone that is not UNUSED with rank 7,
the former claim goes on the stack, and OVERRIDE is raised (R17). -/
def Obligations.ModeRunEntersRun : Prop :=
  ∀ (tag : Byte) (s : State), Ready s →
    (s.control.running = true → exec (.modeRun tag) s = .next (answered tag .mode .ok [] (taken tag .mode s)))
    ∧ (s.control.running = false → loading s.control = true →
        exec (.modeRun tag) s = .next (answered tag .mode .busy [] (taken tag .mode s)))
    ∧ (s.control.running = false → loading s.control = false →
        ∀ i, firstFailure s.control.cfg = some i →
        exec (.modeRun tag) s = .next (answered tag .mode .range (u8 i) (taken tag .mode s)))
    ∧ (s.control.running = false → loading s.control = false → firstFailure s.control.cfg = none →
        ∃ u : State, exec (.modeRun tag) s = .next u.settled
          ∧ u.control = { s.control with running := true }
          ∧ u.svc.link.silenceLeft = (if s.control.cfg.link.silence = 0 then none
              else some (s.control.cfg.link.silence * 1000))
          ∧ u.svc.slots = s.svc.slots ∧ u.svc.houses = s.svc.houses ∧ u.cue = s.cue ∧ u.quiet = s.quiet
          ∧ u.sup = s.sup
          ∧ (s.svc.override = false → u.svc.link.tx
              = s.svc.link.tx ++ [.reply tag .mode [[0x00]]])
          ∧ (.reply tag .mode [[0x00]]) ∈ u.svc.link.tx
          ∧ u.svc.link.pendingKinds
              = (if s.svc.override then s.svc.link.pendingKinds ||| 0x0200 else s.svc.link.pendingKinds)
          ∧ (∀ z, let r := look s.svc.zones z
              let k := look s.control.cfg.zones z
              let loop := k.kind = .hallLoop ∨ k.kind = .foyerLoop
              let taken := s.svc.override = true ∧ k.kind ≠ .unused ∧ k.flagged = true
              (look u.svc.zones z).drive = (if loop then r.drive else .good)
              ∧ (look u.svc.zones z).backoff = (if loop then r.backoff else false)
              ∧ (look u.svc.zones z).holds = r.holds
              ∧ (¬ taken → (look u.svc.zones z).active = r.active ∧ (look u.svc.zones z).stack = r.stack)
              ∧ (taken → r.carries .override = false → r.rank < 7 →
                  (look u.svc.zones z).active = some ⟨7, .override⟩
                  ∧ (look u.svc.zones z).stack
                      = (match r.active with
                        | none => r.stack
                        | some old => old :: r.stack.take 3))))

/-- MODE CONFIG: in CONFIG it answers OK and changes nothing; in RUN it is refused with STATE unless
both houses are OPEN; otherwise the part enters CONFIG: no claim but a test's is left, every slot is
IDLE and its blocks free, every active clip and live call has ended CONFIG, no live claim is left,
the silence timer is stopped, and the configuration, the modules and the houses stay.
What a configuration and an image are judged by: MODE RUN's validation names the first record that
fails (R187); a load judges memory fault, marker and format, length, CRC and the ranges of the
records, and the first check that fails is its result (R189; codes and widths: log 11, 12, the area
of 420 bytes: log 58). -/
def Obligations.ModeConfigTearsDown : Prop :=
  (∀ (tag : Byte) (s : State), Ready s →
    (s.control.running = false →
      exec (.modeConfig tag) s = .next (answered tag .mode .ok [] (taken tag .mode s)))
    ∧ (s.control.running = true → (∃ a, (s.svc.houses.get a).state ≠ .opened) →
      exec (.modeConfig tag) s = .next (answered tag .mode .state [] (taken tag .mode s)))
    ∧ (s.control.running = true → (∀ a, (s.svc.houses.get a).state = .opened) →
      ∃ u : State, exec (.modeConfig tag) s = .next u.settled
        ∧ u.control = { s.control with running := false }
        ∧ (.reply tag .mode [[0x00]]) ∈ u.svc.link.tx
        ∧ (∀ z, let claims (r : ZoneRecord) := r.active.toList ++ r.stack
            claims (look u.svc.zones z) = (claims (look s.svc.zones z)).filter (fun c => c.who.isTest)
            ∧ look u.svc.zones z = { look s.svc.zones z with
                active := (look u.svc.zones z).active, stack := (look u.svc.zones z).stack })
        ∧ (∀ i, (look u.svc.slots i).state = .idle)
        ∧ (∀ i, (look s.svc.slots i).state ≠ .idle → look u.svc.slots i = Slot.idle)
        ∧ u.svc.free = s.svc.free + ((allSlots.filter (fun i =>
            (look s.svc.slots i).state != .idle)).map (fun i => (look s.svc.slots i).held.length)).sum
        ∧ u.svc.chimes = []
        ∧ (∀ d, (look u.svc.channels d).queue = [] ∧ (look u.svc.channels d).mode = .scripted
            ∧ (look u.svc.channels d).liveFlag = false ∧ (look u.svc.channels d).liveClaim = .none
            ∧ (look u.svc.channels d).active = none ∧ (look u.svc.channels d).headSlot = none
            ∧ (look u.svc.channels d).lastOutcome = (match (look s.svc.channels d).active with
                | some k => some { clipId := k.desc.clipId, outcome := .config
                                   clock := channelClock s.env d, standing := k.standing }
                | none => (look s.svc.channels d).lastOutcome))
        ∧ u.svc.keyA.filter = .unsettled ∧ u.svc.keyB.filter = .unsettled
        ∧ u.svc.calls = []
        ∧ ((s.svc.calls.map (·.desc.callId)).Nodup → s.svc.finished.length ≤ 8 →
            let all := s.svc.finished ++ (queueOrder s.svc.calls).map (fun k =>
              { callId := k.desc.callId, targets := k.desc.targets, heard := k.heard, done := k.done
                firstStart := k.firstStart, endTime := s.svc.callClock, outcome := .config })
            u.svc.finished = all.drop (all.length - 8))
        ∧ u.svc.houses = s.svc.houses ∧ u.svc.entrances = s.svc.entrances
        ∧ u.svc.override = s.svc.override ∧ u.svc.callClock = s.svc.callClock
        ∧ u.svc.link.silenceLeft = none ∧ u.sup = s.sup
        ∧ (∀ a, (u.quiet.get a).state = .sound ∧ (u.quiet.get a).current = none
            ∧ (u.cue.get a).lockout = none ∧ (u.cue.get a).waiting = []
            ∧ (u.cue.get a).position = (s.cue.get a).position
            ∧ (u.cue.get a).list = (s.cue.get a).list ∧ (u.cue.get a).log = (s.cue.get a).log)))
  ∧ (∀ cfg : Configuration,
      (∀ i, firstFailure cfg = some i ↔
        i < 40 ∧ ¬ RecordValid cfg i ∧ ∀ j, j < i → RecordValid cfg j)
      ∧ (firstFailure cfg = none ↔ ∀ i, i < 40 → RecordValid cfg i))
  ∧ (∀ c : PartControl,
      let header := c.memory.readAll 0 11
      let area := c.memory.readAll 16 420
      let fault := c.memoryFault = true ∨ (∀ b ∈ header, b = 0xFF) ∨ (∀ b ∈ area, b = 0xFF)
      let marked := header.take 5 = u32 0xA5243C5A ++ u8 1
      let long := (header.drop 5).take 2 = u16 420
      let checked := header.drop 7 = u32 (crc32 area).toNat
      let passes (p : Nat × Option ConfigRecord) := ∃ r, p.2 = some r ∧ recordLegal r = true
      let records := cutRecords 40 0 area
      (fault → readImage c = (.memory, []))
      ∧ (¬ fault → ¬ marked → readImage c = (.marker, []))
      ∧ (¬ fault → marked → ¬ long → readImage c = (.length, []))
      ∧ (¬ fault → marked → long → ¬ checked → readImage c = (.crc, []))
      ∧ (¬ fault → marked → long → checked →
        (∀ before p after, records = before ++ p :: after → (∀ x ∈ before, passes x) → ¬ passes p →
          readImage c = (.range p.1, []))
        ∧ ((∀ p ∈ records, passes p) →
          ∃ list, readImage c = (.loaded, list) ∧ list.length = 40 ∧ ∀ i r, list[i]? = some r →
            recordLegal r = true ∧ ∃ (start : Nat) (k : Nat),
              recordLength i = some k ∧ start = (((List.range i).map (fun j =>
                (recordLength j).getD 0)).sum)
              ∧ decodeRecord i ((area.drop start).take k) = some r)))

/-- CONFIG-WRITE: in RUN STATE; while a load is in progress BUSY; a record of the wrong type for its
index or outside its ranges RANGE (no record, or one of another type than its index takes: log 1);
each refusal changes nothing. An accepted one replaces the record whole, no other record changes,
and it answers OK. What the owners take: a zone that becomes UNUSED loses its tests, one that is no
loop has drive GOOD, a loop is resolved, and so is every loop that lists a module of the old or new
record (R1, R40); an entrance whose polarity changes is sensed UNKNOWN (R148); new supervision
values lower fault runs to the trip limit, and a module that is no longer polled is as after
POLL-SET (R45); new link enables are judged at the gate at once (R173, R174), and a
notice so owed enters the transmit queue before the OK reply (the model's choice: log 18). A resolved
zone in UNKNOWN with a WARN module has its backoff (the model's choice: log 47). -/
def Obligations.ConfigWriteReplacesTheRecord : Prop :=
  ∀ (tag : Byte) (i : Nat) (r : Option ConfigRecord) (s : State), Ready s →
    (s.control.running = true → exec (.configWrite tag i r) s
        = .next (answered tag .configWrite .state [] (taken tag .configWrite s)))
    ∧ (s.control.running = false → loading s.control = true → exec (.configWrite tag i r) s
        = .next (answered tag .configWrite .busy [] (taken tag .configWrite s)))
    ∧ (s.control.running = false → loading s.control = false →
        (∀ x, r = some x → (indexTakes i x && recordLegal x) = false) →
        exec (.configWrite tag i r) s
          = .next (answered tag .configWrite .range [] (taken tag .configWrite s)))
    ∧ (s.control.running = false → loading s.control = false →
        ∀ x, r = some x → indexTakes i x = true → recordLegal x = true →
        ∃ u : State, exec (.configWrite tag i r) s = .next u.settled
          ∧ recordAt u.control.cfg i = some x
          ∧ (∀ j, j ≠ i → recordAt u.control.cfg j = recordAt s.control.cfg j)
          ∧ u.control.running = false
          ∧ u.svc.slots = s.svc.slots ∧ u.svc.calls.length = s.svc.calls.length
          ∧ u.svc.houses = s.svc.houses ∧ u.cue = s.cue
          ∧ (.reply tag .configWrite [[0x00]]) ∈ u.svc.link.tx
          ∧ (∀ (z : ZoneId) c, i = z.val → x = .zone c →
            let old := look s.control.cfg.zones z
            let r := look s.svc.zones z
            let new := look u.svc.zones z
            let loop (k : ZoneKind) := k = .hallLoop ∨ k = .foyerLoop
            (old.kind ≠ c.kind → c.kind = .unused →
              new.active = r.active.filter (fun k => !k.who.isTest)
              ∧ new.stack = r.stack.filter (fun k => !k.who.isTest)
              ∧ new.testLink = none ∧ new.testConsole = none)
            ∧ (old.kind = c.kind ∨ c.kind ≠ .unused → new.active = r.active ∧ new.stack = r.stack
              ∧ new.testLink = r.testLink ∧ new.testConsole = r.testConsole)
            ∧ (old.kind ≠ c.kind → ¬ loop c.kind → new.drive = .good ∧ new.backoff = false)
            ∧ (old.kind = c.kind → ¬ loop c.kind → new = r)
            ∧ (∀ y, loop (look u.control.cfg.zones y).kind →
              y = z ∨ (∃ m ∈ old.modules ++ c.modules, m ∈ (look u.control.cfg.zones y).modules) →
              DriveResolved y u u)
            ∧ u.svc.entrances = s.svc.entrances ∧ u.sup = s.sup)
          ∧ (∀ (e : EntranceId) c, i = 20 + e.val → x = .entrance c →
            let r := look s.svc.entrances e
            u.svc.entrances = put s.svc.entrances e
              { r with
                sensed := if (look s.control.cfg.entrances e).polarity = c.polarity then r.sensed
                  else .unknown
                sample := if (look s.control.cfg.entrances e).polarity = c.polarity then r.sample
                  else none }
            ∧ u.svc.zones = s.svc.zones ∧ u.sup = s.sup)
          ∧ (∀ c, x = .supervision c →
            (∀ m, look u.sup.modules m =
              if pollEnabled s.control.cfg m ∧ c.enables.getLsbD (m.val + 1) = false then
                { look s.sup.modules m with state := .unknown, caps := none, run := 0 }
              else { look s.sup.modules m with run := min c.tripLimit (look s.sup.modules m).run })
            ∧ u.svc.entrances = s.svc.entrances)
          ∧ (∀ c, x = .link c →
            let owed := s.svc.link.gateOpen && (s.svc.link.pendingKinds &&& c.enables != 0)
              && !s.svc.link.tx.any TxItem.isNotice
            u.svc.link.gateOpen = (s.svc.link.gateOpen && !owed)
            ∧ u.svc.link.tx = s.svc.link.tx
              ++ (if owed then [.notice (w16 s.svc.link.pendingKinds ++ [0])] else [])
              ++ [.reply tag .configWrite [[0x00]]]
            ∧ u.svc.zones = s.svc.zones ∧ u.svc.entrances = s.svc.entrances ∧ u.sup = s.sup))

/-- The reads and status requests answer OK with the record as it stands, field by field in the
order of their rules (byte forms: log 11, 12, 13, 17, 26, 41, 49, 54, 57, 58, 59, 62, 63, 67), and
change nothing else: one item named, or all of them in a divided reply.
What they refuse: CONFIG-READ an index above 40 with RANGE, CUE-READ the number 0 with RANGE and a
number above every entry with ABSENT, CUE-STATUS, CAPTURE-READ and GAP-STATUS an auditorium other
than 1 and 2, ZONE-STATUS and MODULE-STATUS, CHANNEL-STATUS and ENTRANCE-STATUS any number that
names nothing, each with RANGE, CALL-STATUS an id that no live call has with ABSENT. -/
def Obligations.StatusReadsAnswer : Prop :=
  ByteForms
  ∧ (∀ (tag : Byte) (n m : Nat) (s : State), Ready s →
      let ok (kind : RequestKind) (fields : List Byte) : Host.Outcome State Fault Refusal :=
        .next (answered tag kind .ok fields (taken tag kind s))
      (∀ z : ZoneId, n = z.val →
          exec (.configRead tag n) s = ok .configRead (recordFields (.zone (look s.control.cfg.zones z)))
          ∧ exec (.zoneStatus tag n) s = ok .zoneStatus (zoneFields s z))
      ∧ (∀ e : EntranceId, n = 20 + e.val → exec (.configRead tag n) s
          = ok .configRead (recordFields (.entrance (look s.control.cfg.entrances e))))
      ∧ (∀ d : ChannelId, n = 32 + d.val → exec (.configRead tag n) s
          = ok .configRead (recordFields (.channel (look s.control.cfg.channels d))))
      ∧ (∀ a, n = 35 + audNumber a → exec (.configRead tag n) s
          = ok .configRead (recordFields (.auditorium (s.control.cfg.auditoria.get a))))
      ∧ (n = 38 → exec (.configRead tag n) s
          = ok .configRead (recordFields (.supervision s.control.cfg.supervision)))
      ∧ (n = 39 → exec (.configRead tag n) s = ok .configRead (recordFields (.link s.control.cfg.link)))
      ∧ (n = 40 → exec (.configRead tag n) s = ok .configRead (resultFields s.control.result))
      ∧ (∀ k : ModuleId, n = k.val + 1 →
          exec (.moduleStatus tag n) s = ok .moduleStatus (moduleFields s k ++ pollFields s))
      ∧ (∀ a, n = audNumber a →
          exec (.cueStatus tag n) s = ok .cueStatus (cueFields s a)
          ∧ exec (.captureRead tag n) s = ok .captureRead (captureFields s a)
          ∧ exec (.gapStatus tag n) s = ok .gapStatus (gapFields s a)
          ∧ (∀ before e after, m ≠ 0 → (s.cue.get a).list = before ++ e :: after →
              (∀ x ∈ before, x.number < m) → m ≤ e.number →
              exec (.cueRead tag n m) s
                = ok .cueRead (entryFields e (s.cue.get a).list.length))
          ∧ exec (.entranceStatus tag n) s = ok .entranceStatus
              (houseFields s a ++ (allEntrances.map (entranceFields s)).flatten))
      ∧ (∀ d : ChannelId, n = d.val →
          exec (.channelStatus tag n) s = ok .channelStatus (channelFields s d))
      ∧ (∀ k, n ≠ 0 → findCall n s.svc = some k →
          exec (.callStatus tag n) s = ok .callStatus (tableFields s ++ callFields s k))
      ∧ AnsweredInParts tag .zoneStatus (allZones.map (zoneFields s)) s (exec (.zoneStatus tag 255) s)
      ∧ AnsweredInParts tag .moduleStatus (allModules.map (moduleFields s) ++ [pollFields s]) s
          (exec (.moduleStatus tag 255) s)
      ∧ AnsweredInParts tag .streamStatus
          ((u16 s.svc.free ++ u16 (reserve s.svc.slots)) :: allSlots.map (slotFields s)) s
          (exec (.streamStatus tag) s)
      ∧ AnsweredInParts tag .channelStatus (allChannels.map (channelFields s)) s
          (exec (.channelStatus tag 255) s)
      ∧ AnsweredInParts tag .callStatus
          (tableFields s :: (queueOrder s.svc.calls).map (callFields s)) s (exec (.callStatus tag 0) s)
      ∧ AnsweredInParts tag .entranceStatus
          (houseFields s .one :: houseFields s .two :: allEntrances.map (entranceFields s)) s
          (exec (.entranceStatus tag 0) s))
  ∧ (∀ (tag : Byte) (n m : Nat) (s : State), Ready s →
      (40 < n → exec (.configRead tag n) s
        = .next (answered tag .configRead .range [] (taken tag .configRead s)))
      ∧ (19 < n → n ≠ 255 → exec (.zoneStatus tag n) s
        = .next (answered tag .zoneStatus .range [] (taken tag .zoneStatus s)))
      ∧ (n = 0 ∨ 12 < n → n ≠ 255 → exec (.moduleStatus tag n) s
        = .next (answered tag .moduleStatus .range [] (taken tag .moduleStatus s)))
      ∧ (n ≠ 1 → n ≠ 2 →
          exec (.cueRead tag n m) s = .next (answered tag .cueRead .range [] (taken tag .cueRead s))
          ∧ exec (.cueStatus tag n) s = .next (answered tag .cueStatus .range [] (taken tag .cueStatus s))
          ∧ exec (.captureRead tag n) s
              = .next (answered tag .captureRead .range [] (taken tag .captureRead s))
          ∧ exec (.gapStatus tag n) s = .next (answered tag .gapStatus .range [] (taken tag .gapStatus s)))
      ∧ (exec (.cueRead tag n 0) s = .next (answered tag .cueRead .range [] (taken tag .cueRead s)))
      ∧ (∀ a, n = audNumber a → m ≠ 0 → (∀ e ∈ (s.cue.get a).list, e.number < m) →
          exec (.cueRead tag n m) s = .next (answered tag .cueRead .absent [] (taken tag .cueRead s)))
      ∧ (3 < n → n ≠ 255 → exec (.channelStatus tag n) s
        = .next (answered tag .channelStatus .range [] (taken tag .channelStatus s)))
      ∧ (n ≠ 0 → findCall n s.svc = none → exec (.callStatus tag n) s
        = .next (answered tag .callStatus .absent [] (taken tag .callStatus s)))
      ∧ (2 < n → exec (.entranceStatus tag n) s
        = .next (answered tag .entranceStatus .range [] (taken tag .entranceStatus s))))

/-- SETTINGS-SAVE: refused BUSY while a save or load is in progress; accepted, it copies the
configuration in force, invalidates the marker, writes the record area (the model's choice, log 9)
and shows SAVE in progress, with no result while it runs (log 25); a reset before the save's end
leaves an image that a load judges MARKER (R191). A page write not reported done is a memory fault.
The end of the save: SAVED when no fault was met and the header reads back as written, else MEMORY;
the reply carries the result (its codes: log 11), then the result record is written and SETTINGS is
raised; with SAVED the memory holds the image (its record area of 420 bytes: log 12, 58). No save in
progress: nothing (log 2). -/
def Obligations.SettingsSaveWritesTheImage : Prop :=
  ∀ (tag : Byte) (back : List Byte) (s : State),
    (Ready s → s.control.settings.isSome → exec (.settingsSave tag) s
      = .next (answered tag .settingsSave .busy [] (taken tag .settingsSave s)))
    ∧ (Ready s → s.control.settings = none → exec (.settingsSave tag) s
      = .next { taken tag .settingsSave s with control := { s.control with
          settings := some (.save tag s.control.cfg), memoryFault := false
          result := { kind := some .save, result := none, inProgress := true }
          memory := (s.control.memory.writeAll 0 [0, 0, 0, 0]).writeAll areaStart
            (recordArea s.control.cfg) } })
    ∧ (Ready s → s.control.settings = none → Memory.wf s.control.memory = true →
        ∃ t : State, exec (.settingsSave tag) s = .next t
          ∧ ∀ c ∈ [Instr.powerOn, .supplyDip, .resetLine], ∃ u : State, exec c t = .next u
            ∧ (readImage u.control).1 = .marker)
    ∧ (∀ copy, Still s → s.control.settings = some (.save tag copy) →
        exec .settingsPageWriteTimeout s
          = .next { s with control := { s.control with memoryFault := true } }
        ∧ ∃ t : State, exec (.settingsSaveDone back) s = .next t
          ∧ (let saved := !s.control.memoryFault && back == headerOf (recordArea copy)
             t.control.result = { kind := s.control.result.kind, inProgress := false
                                  result := some (if saved then .saved else .memory) }
             ∧ (.reply tag .settingsSave [[0x00, if saved then 7 else 0]]) ∈ t.svc.link.tx
             ∧ (saved = true → Memory.wf s.control.memory = true →
                t.control.memory.readAll 0 11 = headerOf (recordArea copy)
                ∧ t.control.memory.readAll areaStart areaLength = recordArea copy))
          ∧ t.control.settings = none ∧ t.svc.link.pendingKinds = s.svc.link.pendingKinds ||| 0x0800
          ∧ t.control.cfg = s.control.cfg ∧ t.control.running = s.control.running
          ∧ t.svc.slots = s.svc.slots ∧ t.svc.zones = s.svc.zones ∧ t.cue = s.cue ∧ t.sup = s.sup)
    ∧ (Still s → (∀ x c, s.control.settings ≠ some (.save x c)) →
        exec (.settingsSaveDone back) s = .next s ∧ exec .settingsPageWriteTimeout s = .next s)

/-- SETTINGS-LOAD: refused STATE in RUN, BUSY while a save or load is in progress; accepted, LOAD is
in progress, with no result while it runs (log 25). The end of the load: the reply carries the
result (its bytes: log 11, log 12), the result record is written and SETTINGS raised, the memory
stays, and the part stays in its operating state; a result other than LOADED leaves the
configuration in force (an entrance that is unused: log 58). No load in progress: nothing (log 2). -/
def Obligations.SettingsLoadReadsTheImage : Prop :=
  ∀ (tag : Byte) (s : State),
    (Ready s → s.control.running = true → exec (.settingsLoad tag) s
      = .next (answered tag .settingsLoad .state [] (taken tag .settingsLoad s)))
    ∧ (Ready s → s.control.running = false → s.control.settings.isSome → exec (.settingsLoad tag) s
      = .next (answered tag .settingsLoad .busy [] (taken tag .settingsLoad s)))
    ∧ (Ready s → s.control.running = false → s.control.settings = none → exec (.settingsLoad tag) s
      = .next { taken tag .settingsLoad s with control := { s.control with
          settings := some (.load tag), memoryFault := false
          result := { kind := some .load, result := none, inProgress := true } } })
    ∧ (Still s → s.control.settings = some (.load tag) →
        ∃ u : State, exec .settingsLoadDone s = .next u.settled
          ∧ u.control.result = { kind := s.control.result.kind, inProgress := false
                                 result := some (readImage s.control).1 }
          ∧ (.reply tag .settingsLoad [0x00 :: resultBytes (readImage s.control).1]) ∈ u.svc.link.tx
          ∧ u.control.settings = none ∧ u.control.memory = s.control.memory
          ∧ u.control.running = s.control.running
          ∧ u.svc.link.pendingKinds &&& 0x0800 = 0x0800
          ∧ ((readImage s.control).1 ≠ .loaded → u.control.cfg = s.control.cfg)
          ∧ ((readImage s.control).1 = .loaded →
              ∀ i r, (readImage s.control).2[i]? = some r → recordAt u.control.cfg i = some r))
    ∧ (Still s → (∀ x, s.control.settings ≠ some (.load x)) → exec .settingsLoadDone s = .next s)

/-- The end of the start-up load: a LOADED image that passes validation enters RUN; one that fails
stays in CONFIG with INVALID and the index; any other result keeps the configuration. The result
record is written and SETTINGS raised; the memory stays. No start-up load: nothing (log 2). -/
def Obligations.StartLoadEnds : Prop :=
  ∀ s : State, Still s →
    (s.control.settings ≠ some .startLoad → exec .startLoadDone s = .next s)
    ∧ (s.control.settings = some .startLoad →
        ∃ u : State, exec .startLoadDone s = .next u.settled
          ∧ u.control.settings = none ∧ u.control.memory = s.control.memory
          ∧ u.control.result.kind = s.control.result.kind ∧ u.control.result.inProgress = false
          ∧ u.svc.link.pendingKinds &&& 0x0800 = 0x0800
          ∧ ((readImage s.control).1 ≠ .loaded →
              u.control.cfg = s.control.cfg ∧ u.control.running = s.control.running
              ∧ u.control.result.result = some (readImage s.control).1)
          ∧ ((readImage s.control).1 = .loaded →
              (∀ i r, (readImage s.control).2[i]? = some r → recordAt u.control.cfg i = some r)
              ∧ (firstFailure u.control.cfg = none → u.control.running = true
                  ∧ u.control.result.result = some .loaded)
              ∧ (∀ i, firstFailure u.control.cfg = some i → u.control.running = s.control.running
                  ∧ u.control.result.result = some (.invalid i))))

/-! ## Zones -/

/-- ZONE-SET writes the zone's level and mute and answers OK, in RUN and in CONFIG; a mute turned on
takes the zone out of the unbroken set of every playing call; neither claim nor stack changes, no
report is sent. A zone above 19 or a level above 60 is refused with RANGE and changes nothing.
A zone's output (R2, R4, R15): silence when it is muted or UNUSED; in CONFIG the test tone; in RUN the
active claimant's audio, or the home source of its kind, at its level plus its backoff less 3 dB when
DEGRADED; the relay of an ADMITTING house and the bed under speech are ducked further (what an output
is in the model: log 38; the backoff counts in every drive state: log 47). -/
def Obligations.ZoneSetWritesLevelAndMute : Prop :=
  (∀ (z : ZoneId) (s : State),
    let c := look s.control.cfg.zones z
    let r := look s.svc.zones z
    Composed z c r
      (c.level + (if r.backoff then 6 else 0) - (if r.drive = .degraded then 3 else 0)) s)
  ∧ ∀ (tag : Byte) (n level : Nat) (m : Bool) (s : State), Ready s →
    (19 < n ∨ 60 < level → exec (.zoneSet tag n level (some m)) s
      = .next (answered tag .zoneSet .range [] (taken tag .zoneSet s)))
    ∧ (exec (.zoneSet tag n level none) s
      = .next (answered tag .zoneSet .range [] (taken tag .zoneSet s)))
    ∧ (∀ z : ZoneId, n = z.val → level ≤ 60 →
      exec (.zoneSet tag n level (some m)) s = .next (answered tag .zoneSet .ok []
        { taken tag .zoneSet s with
          control := { s.control with cfg := { s.control.cfg with
            zones := put s.control.cfg.zones z
              ({ look s.control.cfg.zones z with level := level, mute := m } : ZoneConfig) } }
          svc := { (taken tag .zoneSet s).svc with
            calls := if m && !(look s.control.cfg.zones z).mute then
                s.svc.calls.map (fun k => if k.state = .playing then
                  { k with unbroken := k.unbroken.filter (fun y => y != z) } else k)
              else s.svc.calls } }))

/-- A test start or stop from the link: a zone above 19 or of kind UNUSED is refused
with RANGE; a stop without a test on the zone with STATE; in RUN a start on a zone that another
claimant holds with STATE, though the same claimant's test be stacked there (log 52), on a free zone
or the same claimant's it is granted and its ten-minute timer starts; in CONFIG it is always granted.
The limit timer of a test runs out: the test ends and its claim is released. Nothing when the
test does not run (log 2). -/
def Obligations.TestsStartAndEnd : Prop :=
  (∀ (tag : Byte) (n : Nat) (s : State), Ready s →
      ((19 < n ∨ ∃ z : ZoneId, n = z.val ∧ (look s.control.cfg.zones z).kind = .unused) →
        exec (.testToneStart tag n) s = .next (answered tag .testTone .range [] (taken tag .testTone s))
        ∧ exec (.testToneStop tag n) s = .next (answered tag .testTone .range [] (taken tag .testTone s)))
      ∧ (∀ z : ZoneId, n = z.val → (look s.control.cfg.zones z).kind ≠ .unused →
        ((look s.svc.zones z).testLink = none → exec (.testToneStop tag n) s
          = .next (answered tag .testTone .state [] (taken tag .testTone s)))
        ∧ ((look s.svc.zones z).testLink.isSome → ∃ u : State, exec (.testToneStop tag n) s = .next u.settled
            ∧ (look u.svc.zones z).testLink = none
            ∧ (look u.svc.zones z).carries (.test .link) = false
            ∧ (.reply tag .testTone [[0x00]]) ∈ u.svc.link.tx ∧ u.svc.slots = s.svc.slots
            ∧ u.control = s.control)
        ∧ (s.control.running = true → (look s.svc.zones z).active ≠ none →
            (look s.svc.zones z).carries (.test .link) = false → exec (.testToneStart tag n) s
          = .next (answered tag .testTone .state [] (taken tag .testTone s)))
        ∧ ((s.control.running = true → (look s.svc.zones z).active = none
              ∨ (look s.svc.zones z).carries (.test .link) = true) →
            ∃ u : State, exec (.testToneStart tag n) s = .next u.settled
            ∧ (look u.svc.zones z).active.map (·.who) = some (.test .link)
            ∧ (look u.svc.zones z).testLink = some 600000
            ∧ (.reply tag .testTone [[0x00]]) ∈ u.svc.link.tx ∧ u.svc.slots = s.svc.slots
            ∧ u.control = s.control)))
  ∧ (∀ (z : ZoneId) (src : TestSource) (s : State), Still s →
      ((look s.svc.zones z).testLeft src = none → exec (.testLimitExpiry z src) s = .next s)
      ∧ (((look s.svc.zones z).testLeft src).isSome →
          ∃ u : State, exec (.testLimitExpiry z src) s = .next u.settled
            ∧ (look u.svc.zones z).testLeft src = none
            ∧ (look u.svc.zones z).carries (.test src) = false
            ∧ (look u.svc.zones z).stacks (.test src) = false
            ∧ (∀ y, y ≠ z → look u.svc.zones y = look s.svc.zones y)
            ∧ u.svc.slots = s.svc.slots ∧ u.svc.channels = s.svc.channels ∧ u.svc.calls = s.svc.calls
            ∧ u.control = s.control ∧ u.cue = s.cue))

/-- OVR confirmed ASSERTED or RELEASED: in CONFIG only the confirmed state changes; in RUN OVERRIDE
is raised, and ASSERTED claims every flagged zone that is not UNUSED with rank 7, while RELEASED
takes the override's claim from every zone. The rows leave the pin and the last sample at the level
confirmed (log 7). Nothing when it is confirmed so already (log 2).
How the router decides (R5-R14). A claim: refused for a zone of a kind its claimant may not use, in
CONFIG, for a call of priority 0 to 2 while the zone is held (HOLD before RANK, under the override
too: log 51), and for a rank not above the active one; answered as held already; else granted: the
former claim goes on the stack, of which the bottom of four is lost and told. A release takes the
claimant's claims; one that was active is popped: the top of the stack becomes active and is told,
calls that a hold keeps off are passed over and told. A hold and an unhold count; the first hold
removes an active call of priority 0 to 2, the last unhold sends a zone-release report. -/
def Obligations.OverrideActs : Prop :=
  (∀ s : State, Still s →
    (s.svc.override = true → exec .overrideAsserted s = .next s)
    ∧ (s.svc.override = false → exec .overrideReleased s = .next s)
    ∧ (s.svc.override = false → s.control.running = false →
        exec .overrideAsserted s = .next { s with
          svc := { s.svc with override := true }, pins := { s.pins with ovr := true }
          ovrSample := some true })
    ∧ (s.svc.override = true → s.control.running = false →
        exec .overrideReleased s = .next { s with
          svc := { s.svc with override := false }, pins := { s.pins with ovr := false }
          ovrSample := some false })
    ∧ (s.svc.override = false → s.control.running = true →
        ∃ u : State, exec .overrideAsserted s = .next u.settled ∧ u.svc.override = true
          ∧ u.svc.link.pendingKinds = s.svc.link.pendingKinds ||| 0x0200
          ∧ (∀ z, (look s.control.cfg.zones z).kind ≠ .unused → (look s.control.cfg.zones z).flagged = true →
              (look s.svc.zones z).rank < 7 → (look s.svc.zones z).carries .override = false →
              (look u.svc.zones z).active = some ⟨7, .override⟩)
          ∧ (∀ z, (look s.control.cfg.zones z).kind = .unused ∨ (look s.control.cfg.zones z).flagged = false →
              look u.svc.zones z = look s.svc.zones z)
          ∧ u.pins = { s.pins with ovr := true } ∧ u.ovrSample = some true
          ∧ u.svc.slots = s.svc.slots ∧ u.control = s.control ∧ u.cue = s.cue)
    ∧ (s.svc.override = true → s.control.running = true →
        ∃ u : State, exec .overrideReleased s = .next u.settled ∧ u.svc.override = false
          ∧ u.svc.link.pendingKinds = s.svc.link.pendingKinds ||| 0x0200
          ∧ (∀ z, (look u.svc.zones z).carries .override = false
              ∧ (look u.svc.zones z).stacks .override = false)
          ∧ (∀ z, (look s.svc.zones z).carries .override = false →
              (look u.svc.zones z).active = (look s.svc.zones z).active)
          ∧ (∀ z, (look s.svc.zones z).carries .override = true → (look s.svc.zones z).holds = 0 →
              (look u.svc.zones z).active
                = ((look s.svc.zones z).stack.filter (fun c => c.who != .override)).head?)
          ∧ u.pins = { s.pins with ovr := false } ∧ u.ovrSample = some false
          ∧ u.svc.slots = s.svc.slots ∧ u.control = s.control ∧ u.cue = s.cue))
  ∧ (∀ (env : Env) (z : ZoneId) (c : Claim) (sv : Services),
      let r := look sv.zones z
      let may := mayClaim (look env.cfg.zones z) c.who = true
      (¬ may → claim env z c sv = (.refuse .kindFault, sv))
      ∧ (may → env.run = false → claim env z c sv = (.refuse .state, sv))
      ∧ (may → env.run = true → r.carries c.who = true → claim env z c sv = (.kept, sv))
      ∧ (may → env.run = true → r.carries c.who = false →
        (heldOff r.holds c = true → claim env z c sv = (.refuse .hold, sv))
        ∧ (heldOff r.holds c = false → c.rank ≤ r.rank → claim env z c sv = (.refuse .rank, sv))
        ∧ (heldOff r.holds c = false → r.rank < c.rank →
          ∃ u : Services, claim env z c sv = (.grant, u)
            ∧ (look u.zones z).active = some c ∧ (look u.zones z).holds = r.holds
            ∧ (r.active = none → (look u.zones z).stack = r.stack ∧ Released env z [] sv u)
            ∧ (∀ old, r.active = some old → (look u.zones z).stack = old :: r.stack.take 3
                ∧ Released env z (toldLost z (r.stack.drop 3) ++ [.claimPushed old z]) sv u)
            ∧ OnlyClaims z sv u)))
  ∧ (∀ (env : Env) (z : ZoneId) (who : Claimant) (sv : Services),
      let r := look sv.zones z
      let u := release env who z sv
      (look u.zones z).holds = r.holds
      ∧ (r.carries who = true → Popped env z (r.stack.filter (fun c => c.who != who)) [] sv u)
      ∧ (r.carries who = false →
        u = { sv with
          zones := put sv.zones z { r with stack := r.stack.filter (fun c => c.who != who) } }))
  ∧ (∀ (env : Env) (z : ZoneId) (sv : Services),
      let r := look sv.zones z
      (∀ c, r.active = some c → r.holds = 0 → heldOff 1 c = true →
        Popped env z r.stack [.zoneLost c z] sv (hold env z sv)
        ∧ (look (hold env z sv).zones z).holds = 1)
      ∧ ((∀ c, r.active = some c → r.holds = 0 → heldOff 1 c = false) →
        hold env z sv = { sv with zones := put sv.zones z { r with holds := r.holds + 1 } })
      ∧ (r.holds = 1 → Released env z [] sv (unhold env z sv) ∧ OnlyClaims z sv (unhold env z sv)
        ∧ look (unhold env z sv).zones z = { r with holds := 0 })
      ∧ (r.holds ≠ 1 →
        unhold env z sv = { sv with zones := put sv.zones z { r with holds := r.holds - 1 } }))

/-! ## Loops -/

/-- MODULE-CLEAR empties the fault latch of the module or modules named and answers OK; the carried
faults, the fault run, tripped and the state stay; it raises no notice and sends nothing on the bus.
Any other number is refused with RANGE. -/
def Obligations.ModuleClearEmptiesTheLatch : Prop :=
  ∀ (tag : Byte) (n : Nat) (s : State), Ready s →
    (n = 0 ∨ 12 < n → n ≠ 255 → exec (.moduleClear tag n) s
      = .next (answered tag .moduleClear .range [] (taken tag .moduleClear s)))
    ∧ (∀ m : ModuleId, n = m.val + 1 → exec (.moduleClear tag n) s
      = .next (answered tag .moduleClear .ok [] { taken tag .moduleClear s with
          sup := { s.sup with
            modules := put s.sup.modules m
              { look s.sup.modules m with
                latch := ⟨false, false, false, false, false⟩, loopShort := false
                loopOpen := false } } }))
    ∧ (n = 255 → exec (.moduleClear tag n) s
      = .next (answered tag .moduleClear .ok [] { taken tag .moduleClear s with
          sup := { s.sup with modules := s.sup.modules.map (fun r =>
            { r with
              latch := ⟨false, false, false, false, false⟩, loopShort := false
              loopOpen := false }) } }))

/-- MODULE-RESTORE: a number outside 1-12 is refused with RANGE, a module that is not tripped with
STATE. A tripped module is no longer tripped, its fault run is 0, its state UNKNOWN, its latch and
capabilities are kept, and its output is to be enabled by a protective write, which begins at once
when the bus is idle and no other entry waits. -/
def Obligations.ModuleRestoreUntrips : Prop :=
  ∀ (tag : Byte) (n : Nat) (s : State), Ready s →
    (n = 0 ∨ 12 < n → exec (.moduleRestore tag n) s
      = .next (answered tag .moduleRestore .range [] (taken tag .moduleRestore s)))
    ∧ (∀ m : ModuleId, n = m.val + 1 → (look s.sup.modules m).tripped = false →
      exec (.moduleRestore tag n) s
        = .next (answered tag .moduleRestore .state [] (taken tag .moduleRestore s)))
    ∧ (∀ m : ModuleId, n = m.val + 1 → (look s.sup.modules m).tripped = true →
      ∃ u : State, exec (.moduleRestore tag n) s = .next u.settled
        ∧ look u.sup.modules m
            = { look s.sup.modules m with tripped := false, run := 0, state := .unknown }
        ∧ (∀ k, k ≠ m → look u.sup.modules k = look s.sup.modules k)
        ∧ (s.sup.bus.isSome → u.sup.protective = queueProtective m true s.sup.protective
            ∧ u.sup.bus = s.sup.bus)
        ∧ (s.sup.bus = none → s.sup.protective = [] → u.sup.protective = []
            ∧ u.sup.bus = some { user := .protective, module_ := m, word := 8, value := some 1 })
        ∧ (.reply tag .moduleRestore [[0x00]]) ∈ u.svc.link.tx
        ∧ u.svc.slots = s.svc.slots ∧ u.control = s.control ∧ u.cue = s.cue)

/-- POLL-SET: a mask with bit 0 or any of bits 13-15 set, or a gap of 0, is refused with RANGE and
changes nothing. An accepted one writes the enables and the gap into the SUPERVISION record; a
module whose enable goes from yes to no takes state UNKNOWN, capabilities not cached and a fault
run of 0, the rest of its record and every other module's is kept (when its visit ends: log 35). -/
def Obligations.PollSetWritesEnables : Prop :=
  ∀ (tag : Byte) (w : Word16) (g : Nat) (s : State), Ready s → g < 256 →
    ((w &&& 0xE001 ≠ 0 ∨ g = 0) → exec (.pollSet tag w g) s
      = .next (answered tag .pollSet .range [] (taken tag .pollSet s)))
    ∧ (w &&& 0xE001 = 0 → g ≠ 0 →
      ∃ u : State, exec (.pollSet tag w g) s = .next u.settled
        ∧ u.control = { s.control with cfg := { s.control.cfg with
            supervision := { s.control.cfg.supervision with enables := w, gap := g * 10 } } }
        ∧ (∀ m, look u.sup.modules m =
            if pollEnabled s.control.cfg m ∧ w.getLsbD (m.val + 1) = false then
              { look s.sup.modules m with state := .unknown, caps := none, run := 0 }
            else look s.sup.modules m)
        ∧ (.reply tag .pollSet [[0x00]]) ∈ u.svc.link.tx ∧ u.svc.slots = s.svc.slots ∧ u.cue = s.cue)

/-- AMP-READ and AMP-WRITE: a module outside 1-12 or a word above 15 is refused with RANGE; a second
pass-through with BUSY; a write of word 8 to a tripped module with STATE. An accepted one is pending,
and takes the bus at once when it is idle and no protective write waits. -/
def Obligations.PassThroughsAreAccepted : Prop :=
  ∀ (tag : Byte) (n w : Nat) (v : Word16) (s : State), Ready s →
    (n = 0 ∨ 12 < n ∨ 15 < w →
      exec (.ampRead tag n w) s = .next (answered tag .ampRead .range [] (taken tag .ampRead s))
      ∧ exec (.ampWrite tag n w v) s = .next (answered tag .ampWrite .range [] (taken tag .ampWrite s)))
    ∧ (∀ m : ModuleId, n = m.val + 1 → w ≤ 15 → s.sup.pass.isSome →
      exec (.ampRead tag n w) s = .next (answered tag .ampRead .busy [] (taken tag .ampRead s))
      ∧ exec (.ampWrite tag n w v) s = .next (answered tag .ampWrite .busy [] (taken tag .ampWrite s)))
    ∧ (∀ m : ModuleId, n = m.val + 1 → s.sup.pass = none → (look s.sup.modules m).tripped = true →
      exec (.ampWrite tag n 8 v) s = .next (answered tag .ampWrite .state [] (taken tag .ampWrite s)))
    ∧ (∀ m : ModuleId, n = m.val + 1 → w ≤ 15 → s.sup.pass = none → s.sup.bus = none →
      s.sup.protective = [] →
      exec (.ampRead tag n w) s = .next { taken tag .ampRead s with sup := { s.sup with
        pass := some { asker := .link tag, module_ := m, word := w, value := none }
        bus := some { user := .passThrough, module_ := m, word := w, value := none } } }
      ∧ (w ≠ 8 ∨ (look s.sup.modules m).tripped = false →
        exec (.ampWrite tag n w v) s = .next { taken tag .ampWrite s with sup := { s.sup with
          pass := some { asker := .link tag, module_ := m, word := w, value := some v }
          bus := some { user := .passThrough, module_ := m, word := w, value := some v } } }))
    ∧ (∀ m : ModuleId, n = m.val + 1 → w ≤ 15 → s.sup.pass = none → s.sup.bus.isSome →
      exec (.ampRead tag n w) s = .next { taken tag .ampRead s with sup := { s.sup with
        pass := some { asker := .link tag, module_ := m, word := w, value := none } } }
      ∧ (w ≠ 8 ∨ (look s.sup.modules m).tripped = false →
        exec (.ampWrite tag n w v) s = .next { taken tag .ampWrite s with sup := { s.sup with
          pass := some { asker := .link tag, module_ := m, word := w, value := some v } } }))

/-- The end of a transaction: none in flight, nothing (log 2). A pass-through of the link's read is
answered with the value, a write with OK, and without an answer both with NO-ANSWER, which changes
no module record; a word 3 so read adds its conditions to the latch and the carried faults (the
console's reads end in ConsoleCommandsAct). A protective write's acknowledgement changes no module
record, and its NO-ANSWER makes the module ABSENT with its capabilities not cached. A poll that is
not answered does the same. After a pass-through or a protective write the bus goes to the
protective write that waits longest, then to the pass-through that waits, else to the next read of
the visit; a write of word 8 to a tripped module is answered STATE when its turn comes (R39). -/
def Obligations.TransactionsEnd : Prop :=
  ∀ (v : Word16) (s : State), Still s →
    (s.sup.bus = none → exec (.busTransactionEnd v) s = .next s ∧ exec .busAnswerTimeout s = .next s)
    ∧ (∀ p tag w val, s.sup.bus = some { user := .passThrough, module_ := p, word := w, value := val } →
        s.sup.pass = some { asker := .link tag, module_ := p, word := w, value := val } →
        let next := nextOnBus { s.sup with bus := none, pass := none }
        exec .busAnswerTimeout s = .next (answered tag (if val.isSome then .ampWrite else .ampRead)
          .noAnswer [] { s with sup := next })
        ∧ (val = none → w ≠ 3 → exec (.busTransactionEnd v) s
          = .next (answered tag .ampRead .ok (w16 v) { s with sup := next }))
        ∧ (val = none → w = 3 → exec (.busTransactionEnd v) s = .next (answered tag .ampRead .ok (w16 v)
            { s with sup := nextOnBus { s.sup with
                bus := none, pass := none
                modules := put s.sup.modules p ({ look s.sup.modules p with
                  latch := (look s.sup.modules p).latch.union (wordFaults v)
                  carried := (look s.sup.modules p).carried.union (wordFaults v) } : ModuleRecord) } }))
        ∧ (val.isSome → exec (.busTransactionEnd v) s
          = .next (answered tag .ampWrite .ok [] { s with sup := next })))
    ∧ (∀ p w val, s.sup.bus = some { user := .protective, module_ := p, word := w, value := val } →
        s.sup.pass = none ∨ s.sup.protective ≠ [] →
        let next := nextOnBus { s.sup with bus := none }
        exec (.busTransactionEnd v) s = .next { s with sup := next }
        ∧ ∃ u : State, exec .busAnswerTimeout s = .next u.settled
          ∧ u.sup.bus = next.bus ∧ u.sup.protective = next.protective ∧ u.sup.poll = s.sup.poll
          ∧ u.sup.pass = s.sup.pass ∧ (look u.sup.modules p).state = .absent ∧ (look u.sup.modules p).caps = none
          ∧ (look u.sup.modules p).tripped = (look s.sup.modules p).tripped
          ∧ (∀ k, k ≠ p → look u.sup.modules k = look s.sup.modules k)
          ∧ u.svc.slots = s.svc.slots ∧ u.control = s.control)
    ∧ (∀ p w val q, s.sup.bus = some { user := .protective, module_ := p, word := w, value := val } →
        s.sup.protective = [] → s.sup.pass = some q →
        (q.value = none ∨ q.word ≠ 8 ∨ (look s.sup.modules q.module_).tripped = false →
          let granted : Transaction :=
            { user := .passThrough, module_ := q.module_, word := q.word, value := q.value }
          exec (.busTransactionEnd v) s = .next { s with sup := { s.sup with bus := some granted } }
          ∧ ∃ u : State, exec .busAnswerTimeout s = .next u.settled
            ∧ u.sup.bus = some granted ∧ u.sup.pass = some q
            ∧ (look u.sup.modules p).state = .absent ∧ (look u.sup.modules p).caps = none)
        ∧ (∀ tag, q.asker = .link tag → q.value.isSome → q.word = 8 →
          (look s.sup.modules q.module_).tripped = true →
          let next := nextOnBus { s.sup with bus := none, pass := none }
          exec (.busTransactionEnd v) s
            = .next (answered tag .ampWrite .state [] { s with sup := next })
          ∧ ∃ u : State, exec .busAnswerTimeout s = .next u.settled
            ∧ u.sup.bus = next.bus ∧ u.sup.pass = none
            ∧ .reply tag .ampWrite [[Status.state.code]] ∈ u.svc.link.tx
            ∧ (look u.sup.modules p).state = .absent ∧ (look u.sup.modules p).caps = none))
    ∧ (∀ x w, s.sup.bus = some { user := .poll, module_ := x.module_, word := w, value := none } →
        s.sup.poll = .visit x → x.dropped = false →
        ∃ u : State, exec .busAnswerTimeout s = .next u.settled
          ∧ (look u.sup.modules x.module_).state = .absent
          ∧ (look u.sup.modules x.module_).caps = none
          ∧ u.svc.slots = s.svc.slots ∧ u.control.cfg = s.control.cfg)

/-- What the steps of a visit make of the words they read. Step 1: 0xFFFF finds the module ABSENT;
any other identity is kept and the visit goes to step 2, and an exchanged module is no longer
tripped. Step 2: the output enabled field follows bit 1, and a tripped module whose output is
enabled is taken down again; without bit 0 the module is NOT-READY and the visit ends, else it goes
on. Step 3: the capabilities are cached; without thermal sense the temperature goes. Step 4: the
faults join the latch, and with the carried faults, which are emptied, mark the visit. Step 5: the
resistance is kept, and outside the window of the lowest loop zone that lists the module the latch
and the visit are marked. Step 6: the temperature is kept, and with step 7 the module is FAULT,
WARN or GOOD: a fault counts in the fault run, up to the trip limit, at which the module trips and
its output is disabled by a protective write; any other result empties the run. A visit that ends
is followed by the next higher enabled module's, the gap, or IDLE; one that POLL-SET has dropped
ends without a result (R44, log 35). The gap runs out: a round begins with the lowest-numbered enabled
module, its word 0 read at once when the bus is free, or the machine enters IDLE. Nothing when it
is not in GAP (log 2). A zone that is resolved has the drive state and the backoff of its modules'
classes and states (R40, R41; UNKNOWN with a WARN module has its backoff, log 47), ZONE is raised
when the drive state changes (R43), and a zone that becomes FAILED leaves the unbroken sets (R142).
-/
def Obligations.PollMachineGoesOn : Prop :=
  (∀ (v : Word16) (x : Visit) (s : State), Still s →
      s.sup.poll = .visit x → x.dropped = false → s.sup.protective = [] → s.sup.pass = none →
      let m := x.module_
      let r := look s.sup.modules m
      let reads (w : Nat) := s.sup.bus = some { user := .poll, module_ := m, word := w, value := none }
      (x.step = 1 → reads 0 → v = 0xFFFF →
        ∃ u : State, exec (.busTransactionEnd v) s = .next u.settled
          ∧ u.sup.modules = put s.sup.modules m { r with state := .absent, caps := none }
          ∧ VisitOver m s u ∧ u.svc.slots = s.svc.slots ∧ u.control = s.control)
      ∧ (x.step = 1 → reads 0 → v ≠ 0xFFFF →
        ∃ u : State, exec (.busTransactionEnd v) s = .next u.settled
          ∧ (look u.sup.modules m).identity = some v ∧ u.sup.poll = .visit { x with step := 2 }
          ∧ u.sup.bus = some { user := .poll, module_ := m, word := 2, value := none }
          ∧ (∀ old, r.identity = some old → old ≠ v →
              (look u.sup.modules m).tripped = false ∧ (look u.sup.modules m).run = 0
              ∧ (look u.sup.modules m).caps = none)
          ∧ (∀ k, k ≠ m → look u.sup.modules k = look s.sup.modules k)
          ∧ u.svc.slots = s.svc.slots ∧ u.control = s.control)
      ∧ (x.step = 2 → reads 2 →
        let shown := v.getLsbD 1
        let takeDown : Transaction := { user := .protective, module_ := m, word := 8, value := some 0 }
        (v.getLsbD 0 = true → exec (.busTransactionEnd v) s = .next { s with sup := { s.sup with
          modules := put s.sup.modules m { r with outputEnabled := some shown }
          poll := .visit { x with step := if r.caps = none then 3 else 4 }
          bus := some (if r.tripped && shown then takeDown
            else { user := .poll, module_ := m, word := if r.caps = none then 1 else 3
                   value := none }) } })
        ∧ (v.getLsbD 0 = false → ∃ u : State, exec (.busTransactionEnd v) s = .next u.settled
          ∧ u.sup.modules
            = put s.sup.modules m { r with outputEnabled := some shown, state := .notReady }
          ∧ (r.tripped = true → shown = true → u.sup.bus = some takeDown)
          ∧ (r.tripped = false ∨ shown = false → u.sup.bus = firstRead (afterVisit s m))
          ∧ VisitOver m s u ∧ u.svc.slots = s.svc.slots ∧ u.control = s.control))
      ∧ (x.step = 3 → reads 1 →
        exec (.busTransactionEnd v) s = .next { s with sup := { s.sup with
          modules := put s.sup.modules m
            { r with
              caps := some { thermal := v.getLsbD 0, supply := v.getLsbD 1 }
              temperature := if v.getLsbD 0 then r.temperature else none }
          poll := .visit { x with step := 4 }
          bus := some { user := .poll, module_ := m, word := 3, value := none } } })
      ∧ (x.step = 4 → reads 3 →
        exec (.busTransactionEnd v) s = .next { s with sup := { s.sup with
          modules := put s.sup.modules m
            { r with latch := r.latch.union (wordFaults v), carried := ⟨false, false, false, false, false⟩ }
          poll := .visit { x with
            step := 5, faulty := x.faulty || ((wordFaults v).union r.carried).some }
          bus := some { user := .poll, module_ := m, word := 4, value := none } } })
      ∧ (x.step = 5 → reads 4 →
        let loop := allZones.find? (fun z =>
          let c := look s.control.cfg.zones z
          (c.kind == .hallLoop || c.kind == .foyerLoop) && c.modules.contains m)
        let short := match loop with
          | some z => decide (v.toNat < (look s.control.cfg.zones z).windowLow) | none => false
        let opened := match loop with
          | some z => decide ((look s.control.cfg.zones z).windowHigh < v.toNat) | none => false
        let read := { r with
          resistance := some v.toNat, loopShort := r.loopShort || short
          loopOpen := r.loopOpen || opened }
        (∀ c, r.caps = some c → c.thermal = true → exec (.busTransactionEnd v) s = .next { s with
          sup := { s.sup with
            modules := put s.sup.modules m read
            poll := .visit { x with step := 6, faulty := x.faulty || short || opened }
            bus := some { user := .poll, module_ := m, word := 5, value := none } } })
        ∧ ((∀ c, r.caps = some c → c.thermal = false) →
          ∃ u : State, exec (.busTransactionEnd v) s = .next u.settled
            ∧ (look u.sup.modules m).resistance = read.resistance
            ∧ (look u.sup.modules m).loopShort = read.loopShort
            ∧ (look u.sup.modules m).loopOpen = read.loopOpen
            ∧ (look u.sup.modules m).latch = r.latch
            ∧ VisitResolved m (x.faulty || short || opened) x.warm s u))
      ∧ (x.step = 6 → reads 5 →
        let hot := x.faulty || decide ((s.control.cfg.supervision.tripTemp : Int) ≤ v.toInt)
        let warm := x.warm || decide ((s.control.cfg.supervision.warnTemp : Int) ≤ v.toInt)
        ∃ u : State, exec (.busTransactionEnd v) s = .next u.settled
          ∧ (look u.sup.modules m).temperature = some v.toInt
          ∧ (look u.sup.modules m).latch.overtemp = (r.latch.overtemp
              || decide ((s.control.cfg.supervision.tripTemp : Int) ≤ v.toInt))
          ∧ VisitResolved m hot warm s u))
  ∧ (∀ (v : Word16) (x : Visit) (w : Nat) (s : State), Still s →
      s.sup.poll = .visit x → x.dropped = true → s.sup.protective = [] → s.sup.pass = none →
      s.sup.bus = some { user := .poll, module_ := x.module_, word := w, value := none } →
      let next := afterVisit s x.module_
      let t : State := { s with sup := { s.sup with poll := next, bus := firstRead next } }
      exec (.busTransactionEnd v) s = .next t ∧ exec .busAnswerTimeout s = .next t)
  ∧ (∀ s : State, Still s →
      let round : PollState :=
        match allModules.find? (fun m => s.control.cfg.supervision.enables.getLsbD (m.val + 1)) with
        | some m => .visit { module_ := m, step := 1, faulty := false, warm := false, dropped := false }
        | none => .idle
      ((∀ e, s.sup.poll ≠ .gap e) → exec .pollGapExpiry s = .next s)
      ∧ (∀ e, s.sup.poll = .gap e → s.sup.bus.isSome →
          exec .pollGapExpiry s = .next { s with sup := { s.sup with poll := round } })
      ∧ (∀ e, s.sup.poll = .gap e → s.sup.bus = none → s.sup.protective = [] → s.sup.pass = none →
          exec .pollGapExpiry s
            = .next { s with sup := { s.sup with poll := round, bus := firstRead round } })
      ∧ (∀ e m b rest, s.sup.poll = .gap e → s.sup.bus = none → s.sup.protective = (m, b) :: rest →
          exec .pollGapExpiry s = .next { s with sup := { s.sup with
            poll := round, protective := rest
            bus := some { user := .protective, module_ := m, word := 8
                          value := some (if b then 1 else 0) } } })
      ∧ (∀ e, s.sup.poll = .gap e → goesOn (exec .pollGapExpiry s)))
  ∧ (∀ (z : ZoneId) (s : State),
      let c := look s.control.cfg.zones z
      let old := look s.svc.zones z
      let u := resolveZone s z
      let new := look u.svc.zones z
      (c.kind ≠ .hallLoop → c.kind ≠ .foyerLoop → u = s)
      ∧ (c.kind = .hallLoop ∨ c.kind = .foyerLoop → DriveResolved z s u
        ∧ new = { old with drive := new.drive, backoff := new.backoff }
        ∧ (new.drive = old.drive → u.svc.link = s.svc.link)
        ∧ (new.drive ≠ old.drive → u.svc.link.pendingKinds = s.svc.link.pendingKinds ||| 0x0001)
        ∧ (new.drive = .failed → old.drive ≠ .failed → u.svc.calls = s.svc.calls.map (fun k =>
            if k.state = .playing then { k with unbroken := k.unbroken.filter (fun y => y != z) }
            else k))
        ∧ (new.drive ≠ .failed ∨ old.drive = .failed → u.svc.calls = s.svc.calls)
        ∧ (∀ y, y ≠ z → look u.svc.zones y = look s.svc.zones y)
        ∧ u.sup = s.sup ∧ u.control = s.control ∧ u.cue = s.cue ∧ u.svc.slots = s.svc.slots))

/-! ## Cues -/

/-- The cue line: a confirmed press from RELEASED in RUN makes the filter PRESSED; while the lockout
runs it is no advance; otherwise the lockout timer starts (a lockout of 0 does not start it) and the
line's advance is taken, kept waiting behind a firing, or dropped when eight wait. A confirmed release
from PRESSED, and the line leaving UNSETTLED, set the filter only. The end of the lockout stops its
timer. Elsewhere the events change nothing (log 2). -/
def Obligations.CueLineActs : Prop :=
  ∀ (a : Aud) (active : Bool) (s : State), Still s →
    (¬ (s.control.running = true ∧ (s.cue.get a).filter = .released) →
      exec (.cuePress a) s = .next s)
    ∧ (¬ (s.control.running = true ∧ (s.cue.get a).filter = .pressed) →
      exec (.cueLineRelease a) s = .next s)
    ∧ (¬ (s.control.running = true ∧ (s.cue.get a).filter = .unsettled) →
      exec (.cueLineSettled a active) s = .next s)
    ∧ (s.control.running = true → (s.cue.get a).filter = .pressed →
      ∃ t : State, exec (.cueLineRelease a) s = .next t ∧ OnlyCue a s t
        ∧ (∃ level, t.cue.get a = { s.cue.get a with filter := .released, sample := some level }))
    ∧ (s.control.running = true → (s.cue.get a).filter = .unsettled →
      ∃ t : State, exec (.cueLineSettled a active) s = .next t ∧ OnlyCue a s t
        ∧ (∃ level, t.cue.get a = { s.cue.get a with
            filter := if active then .pressed else .released, sample := some level }))
    ∧ (s.control.running = true → (s.cue.get a).filter = .released → (s.cue.get a).lockout.isSome →
      ∃ t : State, exec (.cuePress a) s = .next t ∧ OnlyCue a s t
        ∧ (∃ level, t.cue.get a = { s.cue.get a with filter := .pressed, sample := some level }))
    ∧ (s.control.running = true → (s.cue.get a).filter = .released → (s.cue.get a).lockout = none →
      (s.cue.get a).firing = none → (s.cue.get a).waiting = [] →
      ∃ u : State, exec (.cuePress a) s = .next u.settled ∧ Advanced a .line s u
        ∧ (u.cue.get a).filter = .pressed
        ∧ (u.cue.get a).lockout = (if (s.control.cfg.auditoria.get a).lockout = 0 then none
            else some (s.control.cfg.auditoria.get a).lockout))
    ∧ (s.control.running = true → (s.cue.get a).filter = .released → (s.cue.get a).lockout = none →
      ((s.cue.get a).firing.isSome ∨ (s.cue.get a).waiting ≠ []) →
      ∃ t : State, exec (.cuePress a) s = .next t ∧ OnlyCue a s t
        ∧ (∃ level, t.cue.get a = { s.cue.get a with
            filter := .pressed, sample := some level
            lockout := if (s.control.cfg.auditoria.get a).lockout = 0 then none
              else some (s.control.cfg.auditoria.get a).lockout
            waiting := (s.cue.get a).waiting
              ++ (if 8 ≤ (s.cue.get a).waiting.length then [] else [.advance .line]) }))
    ∧ exec (.lockoutExpiry a) s
        = .next { s with cue := s.cue.set a { s.cue.get a with lockout := none } }

/-- CUE-GO: another auditorium than 1 or 2 is refused with RANGE, in CONFIG with STATE. It is taken as
an advance and answered with the position, the cue number fired (0 for none) and the outcomes, each
DONE or REFUSED and a status byte that is 0x00 after DONE (two bytes: the model's choice, log 49);
behind a firing it waits, or is refused FULL when eight wait. -/
def Obligations.CueGoAdvances : Prop :=
  ∀ (tag : Byte) (n : Nat) (s : State), Ready s →
    (n ≠ 1 → n ≠ 2 → exec (.cueGo tag n) s
      = .next (answered tag .cueGo .range [] (taken tag .cueGo s)))
    ∧ (∀ a, n = audNumber a → s.control.running = false → exec (.cueGo tag n) s
      = .next (answered tag .cueGo .state [] (taken tag .cueGo s)))
    ∧ (∀ a, n = audNumber a → s.control.running = true → (s.cue.get a).firing = none →
      (s.cue.get a).waiting = [] →
      ∃ u : State, exec (.cueGo tag n) s = .next u.settled ∧ Advanced a .link s u
        ∧ (.reply tag .cueGo [0x00 :: (u16 (advanceTo (s.cue.get a).position) ++ firedBytes s u a)])
            ∈ u.svc.link.tx)
    ∧ (∀ a, n = audNumber a → s.control.running = true →
      ((s.cue.get a).firing.isSome ∨ (s.cue.get a).waiting ≠ []) →
      (8 ≤ (s.cue.get a).waiting.length → exec (.cueGo tag n) s
        = .next (answered tag .cueGo .full [] (taken tag .cueGo s)))
      ∧ ((s.cue.get a).waiting.length < 8 → exec (.cueGo tag n) s
        = .next { taken tag .cueGo s with
          cue := s.cue.set a
            { s.cue.get a with waiting := (s.cue.get a).waiting ++ [.advance (.link tag)] } }))

/-- CUE-SET: another auditorium than 1 or 2 is refused with RANGE, in CONFIG with STATE. A jump
sets the position and appends a capture record of origin JUMP, fires nothing, and is answered with
the position and the number of entries skipped; behind a firing it waits, or is refused FULL when
eight wait. -/
def Obligations.CueSetJumps : Prop :=
  ∀ (tag : Byte) (n p : Nat) (s : State), Ready s →
    (n ≠ 1 → n ≠ 2 → exec (.cueSet tag n p) s
      = .next (answered tag .cueSet .range [] (taken tag .cueSet s)))
    ∧ (∀ a, n = audNumber a → p ≤ 65535 → s.control.running = false → exec (.cueSet tag n p) s
      = .next (answered tag .cueSet .state [] (taken tag .cueSet s)))
    ∧ (∀ a, n = audNumber a → p ≤ 65535 → s.control.running = true → (s.cue.get a).firing = none →
      (s.cue.get a).waiting = [] → exec (.cueSet tag n p) s
      = .next (answered tag .cueSet .ok
          (u16 p ++ u8 ((s.cue.get a).list.filter (fun e =>
            decide ((s.cue.get a).position < e.number) && decide (e.number < p))).length)
          { taken tag .cueSet s with
          cue := s.cue.set a
            { s.cue.get a with
              position := p
              log := captured { position := p, clock := (s.cue.get a).clock, origin := .jump }
                (s.cue.get a).log } }))
    ∧ (∀ a, n = audNumber a → p ≤ 65535 → s.control.running = true →
      ((s.cue.get a).firing.isSome ∨ (s.cue.get a).waiting ≠ []) →
      (8 ≤ (s.cue.get a).waiting.length → exec (.cueSet tag n p) s
        = .next (answered tag .cueSet .full [] (taken tag .cueSet s)))
      ∧ ((s.cue.get a).waiting.length < 8 → exec (.cueSet tag n p) s
        = .next { taken tag .cueSet s with
          cue := s.cue.set a
            { s.cue.get a with waiting := (s.cue.get a).waiting ++ [.jump tag p] } }))

/-- CUE-WRITE: another auditorium than 1 or 2, a cue number outside 1-65,535, a count of actions
outside 1-4, or an action that is unknown or fails its checks is refused with RANGE; a new number in a
list of 64 with FULL; each changes nothing. An accepted one, in RUN or CONFIG, puts the entry in its
place in the ascending list, in place of one of the same number, changes nothing else, and answers
with the number of entries.
CUE-ERASE removes the entry named, the entries after it keeping their order, or with 0 every
entry, in RUN and in CONFIG, and answers OK with the number left; it changes neither the position, the
capture log nor the fire record. Another auditorium than 1 or 2 is refused with RANGE, a number with
no entry with ABSENT. -/
def Obligations.CueListIsEdited : Prop :=
  (∀ (tag : Byte) (n c : Nat) (acts : List (Option CueAction)) (s : State), Ready s →
      (((n ≠ 1 ∧ n ≠ 2) ∨ c = 0 ∨ 65535 < c ∨ acts = [] ∨ 4 < acts.length ∨ none ∈ acts
          ∨ (∃ a x, n = audNumber a ∧ some x ∈ acts ∧ actionLegal s a x = false)) →
        exec (.cueWrite tag n c acts) s
          = .next (answered tag .cueWrite .range [] (taken tag .cueWrite s)))
      ∧ (∀ a xs, n = audNumber a → acts = xs.map some → 1 ≤ c → c ≤ 65535 → 1 ≤ xs.length →
        xs.length ≤ 4 → (∀ x ∈ xs, actionLegal s a x = true) →
        (64 ≤ (s.cue.get a).list.length → (∀ e ∈ (s.cue.get a).list, e.number ≠ c) →
          exec (.cueWrite tag n c acts) s
            = .next (answered tag .cueWrite .full [] (taken tag .cueWrite s)))
        ∧ ((s.cue.get a).list.length < 64 ∨ (∃ e ∈ (s.cue.get a).list, e.number = c) →
          ∃ list : List CueEntry,
            exec (.cueWrite tag n c acts) s = .next (answered tag .cueWrite .ok (u8 list.length)
              { taken tag .cueWrite s with cue := s.cue.set a { s.cue.get a with list := list } })
            ∧ ((s.cue.get a).list.Pairwise (fun x y => x.number < y.number) →
                list.Pairwise (fun x y => x.number < y.number)
                ∧ ∀ e, e ∈ list ↔ e = { number := c, actions := xs }
                    ∨ (e ∈ (s.cue.get a).list ∧ e.number ≠ c)))))
  ∧ (∀ (tag : Byte) (n c : Nat) (s : State), Ready s →
      (n ≠ 1 → n ≠ 2 → exec (.cueErase tag n c) s
        = .next (answered tag .cueErase .range [] (taken tag .cueErase s)))
      ∧ (∀ a, n = audNumber a → c ≠ 0 → (∀ e ∈ (s.cue.get a).list, e.number ≠ c) →
        exec (.cueErase tag n c) s
          = .next (answered tag .cueErase .absent [] (taken tag .cueErase s)))
      ∧ (∀ a, n = audNumber a → c ≠ 0 → (∃ e ∈ (s.cue.get a).list, e.number = c) →
        exec (.cueErase tag n c) s = .next (answered tag .cueErase .ok
          (u8 ((s.cue.get a).list.filter (fun e => e.number != c)).length)
          { taken tag .cueErase s with
          cue := s.cue.set a
            { s.cue.get a with list := (s.cue.get a).list.filter (fun e => e.number != c) } }))
      ∧ (∀ a, n = audNumber a → c = 0 → exec (.cueErase tag n c) s
        = .next (answered tag .cueErase .ok [0x00]
          { taken tag .cueErase s with cue := s.cue.set a { s.cue.get a with list := [] } })))

/-! ## Gaps -/

/-- A level update: the newest 10 ms of energy join the history of 100 ms and the level follows, in
RUN and in CONFIG. In RUN: SOUND below the quiet threshold passes to SETTLING, its open timer starting
with the open time and its gap with the show clock; SETTLING at or above the sound threshold is SOUND
again; QUIET at or above it ends the gap, which becomes the last gap and the longest if it is longer,
and a window open with close-on-music closes.
The open timer runs out in SETTLING: the gap is open (QUIET), and every clip of the auditorium
that waits for a gap goes on to its zone. Nothing in another gap state (log 2). -/
def Obligations.GapStatesFollowTheLevel : Prop :=
  (∀ (a : Aud) (samples : List (Option Int)) (s : State), Still s →
      let history := (energyOf samples :: (s.quiet.get a).history).take 10
      let level := levelOf history.sum
      let q : QuietDetector := { s.quiet.get a with history := history, level := level }
      let k := s.control.cfg.auditoria.get a
      (s.control.running = false ∨ (q.state = .sound ∧ k.quietThreshold ≤ level)
          ∨ (q.state = .settling ∧ level < k.soundThreshold)
          ∨ (q.state = .quiet ∧ level < k.soundThreshold) →
        exec (.levelUpdate a samples) s = .next { s with quiet := s.quiet.set a q })
      ∧ (s.control.running = true → q.state = .sound → level < k.quietThreshold →
        exec (.levelUpdate a samples) s = .next { s with
        quiet := s.quiet.set a
          { q with
            state := .settling, openLeft := some k.openTime
            current := some { start := (s.cue.get a).clock, length := 0 } } })
      ∧ (s.control.running = true → q.state = .settling → k.soundThreshold ≤ level →
        exec (.levelUpdate a samples) s = .next { s with
        quiet := s.quiet.set a
          { q with state := .sound, openLeft := none, current := none } })
      ∧ (∀ g, s.control.running = true → q.state = .quiet → k.soundThreshold ≤ level →
        q.current = some g →
        ∃ u : State, exec (.levelUpdate a samples) s = .next u.settled
          ∧ u.quiet = s.quiet.set a
            { q with
              state := .sound, current := none, openLeft := none, lastGap := some g
              longestGap := match q.longestGap with
                | none => some g
                | some old => if old.length < g.length then some g else some old }
          ∧ ((s.svc.houses.get a).state = .admitting → (s.svc.houses.get a).closeOnMusic = true →
              WindowClosed a .music s u)
          ∧ ((s.svc.houses.get a).state ≠ .admitting ∨ (s.svc.houses.get a).closeOnMusic = false →
              u.svc = s.svc)
          ∧ u.cue = s.cue ∧ u.control = s.control ∧ u.sup = s.sup))
  ∧ (∀ (a : Aud) (s : State), Still s →
      ((s.quiet.get a).state ≠ .settling → exec (.openTimerExpiry a) s = .next s)
      ∧ ((s.quiet.get a).state = .settling →
        ∃ u : State, exec (.openTimerExpiry a) s = .next u.settled
          ∧ u.quiet = s.quiet.set a { s.quiet.get a with state := .quiet, openLeft := none }
          ∧ (∀ d, (look s.control.cfg.channels d).auditorium ≠ some a →
              look u.svc.channels d = look s.svc.channels d)
          ∧ (∀ d k, (look s.control.cfg.channels d).auditorium = some a →
              (look s.svc.channels d).active = some k →
              (k.state ≠ .waitingGap → look u.svc.channels d = look s.svc.channels d)
              ∧ (k.state = .waitingGap → ∃ st, (st = .speaking ∨ st = .waitingZone)
                  ∧ (look u.svc.channels d).active = some { k with state := st }))
          ∧ u.cue = s.cue ∧ u.control = s.control ∧ u.sup = s.sup ∧ u.svc.houses = s.svc.houses
          ∧ u.svc.calls = s.svc.calls))

/-! ## Streams -/

/-- FEED: the first check that fails decides: a slot above 9 or a fill outside 1-128 RANGE; a slot
IDLE or with nothing to receive STATE; another owner CONFLICT; 1,024 blocks held FULL; a short block
that is not the last LENGTH; no block to spare beyond the guarantees of the others POOL. An accepted
FEED takes a block from the free list to the end of the slot's, starts a STARVED slot again, reports
the prefill when it is reached, and answers with the blocks held and to receive. -/
def Obligations.FeedTakesABlock : Prop :=
  ∀ (tag : Byte) (n o f : Nat) (b : Block) (s : State), Ready s →
    (9 < n ∨ f = 0 ∨ 128 < f → exec (.feed tag n o f b) s
      = .next (answered tag .feed .range [] (taken tag .feed s)))
    ∧ (∀ i : SlotId, n = i.val → 1 ≤ f → f ≤ 128 →
      let sl := look s.svc.slots i
      ((sl.state = .idle ∨ sl.toReceive = 0) → exec (.feed tag n o f b) s
        = .next (answered tag .feed .state [] (taken tag .feed s)))
      ∧ (sl.state ≠ .idle → sl.toReceive ≠ 0 →
        (sl.owner ≠ some o → exec (.feed tag n o f b) s
          = .next (answered tag .feed .conflict [] (taken tag .feed s)))
        ∧ (sl.owner = some o → 1024 ≤ sl.held.length → exec (.feed tag n o f b) s
          = .next (answered tag .feed .full [] (taken tag .feed s)))
        ∧ (sl.owner = some o → sl.held.length < 1024 → f ≠ 128 → sl.toReceive ≠ 1 →
          exec (.feed tag n o f b) s
            = .next (answered tag .feed .length [] (taken tag .feed s)))
        ∧ (sl.owner = some o → sl.held.length < 1024 → (f = 128 ∨ sl.toReceive = 1) →
          min 32 sl.length ≤ sl.held.length → s.svc.free < reserveOfOthers s.svc.slots i + 1 →
          exec (.feed tag n o f b) s
            = .next (answered tag .feed .pool [] (taken tag .feed s)))
        ∧ (sl.owner = some o → sl.held.length < 1024 → (f = 128 ∨ sl.toReceive = 1) →
          (sl.held.length < min 32 sl.length ∨ reserveOfOthers s.svc.slots i < s.svc.free) →
          ∃ u : State, exec (.feed tag n o f b) s = .next u.settled
            ∧ u.svc.slots = put s.svc.slots i
              { sl with
                held := sl.held ++ [b], toReceive := sl.toReceive - 1
                lastFill := if sl.toReceive = 1 then some f else sl.lastFill
                state := if sl.state = .starved then .playing else sl.state
                starve := if sl.state = .starved then none else sl.starve }
            ∧ u.svc.free = s.svc.free - 1
            ∧ u.svc.reports = (if sl.state = .loading ∧ sl.held.length + 1 = min 8 sl.length
                then [.prefillReached i] else [])
            ∧ (.reply tag .feed [0x00 :: (u16 (sl.held.length + 1) ++ u16 (sl.toReceive - 1))])
                ∈ u.svc.link.tx
            ∧ u.svc.zones = s.svc.zones ∧ u.svc.channels = s.svc.channels
            ∧ u.svc.calls = s.svc.calls ∧ u.svc.houses = s.svc.houses ∧ u.control = s.control
            ∧ u.cue = s.cue ∧ u.sup = s.sup)))

/-- The end of a block of a PLAYING slot that keeps nothing: the block goes back to the free list;
with more ahead the slot plays on; with none but more to receive it is STARVED and its starve timer of
500 ms starts; with nothing to receive the stream is done and the slot IDLE. A slot that is not
PLAYING, or has no block ahead, finishes none (log 2).
The sample a slot passes on (R87, R92): a PLAYING slot's next one of the first block ahead, none past
the fill of the last block of a stream; its linear value of 8,031, by sign, segment and step (their
places in the byte: log 21). -/
def Obligations.BlocksPlayOut : Prop :=
  (∀ b : Byte,
    let step := b.toNat % 16
    let segment := b.toNat / 16 % 8
    let magnitude : Int := (2 * step + 33) * 2 ^ segment - 33
    decodeSample b = if 128 ≤ b.toNat then -magnitude else magnitude)
  ∧ (∀ sl : Slot,
    let ahead := if sl.retain then sl.held.drop sl.position else sl.held
    (sl.state ≠ .playing ∨ ahead = [] → slotSample sl = none)
    ∧ (∀ block rest (k : Nat) (h : k < 128), sl.state = .playing → ahead = block :: rest →
        sl.offset = k →
        (sl.toReceive ≠ 0 ∨ rest ≠ [] → slotSample sl = some (decodeSample block[k]))
        ∧ (∀ fill, sl.toReceive = 0 → rest = [] → sl.lastFill = some fill →
            slotSample sl = if k < fill then some (decodeSample block[k]) else none)))
  ∧ ∀ (i : SlotId) (s : State), Still s →
    let sl := look s.svc.slots i
    (sl.state ≠ .playing ∨ sl.ahead = 0 → exec (.blockPlayed i) s = .next s)
    ∧ (∀ first rest, sl.state = .playing → sl.retain = false → sl.held = first :: rest →
      ∃ u : State, exec (.blockPlayed i) s = .next u.settled
        ∧ u.svc.free = s.svc.free + 1
        ∧ (rest ≠ [] → u.svc.slots = put s.svc.slots i
            { sl with held := rest, position := sl.position + 1, offset := 0 })
        ∧ (rest = [] → 0 < sl.toReceive → u.svc.slots = put s.svc.slots i
            { sl with
              held := [], position := sl.position + 1, offset := 0, state := .starved
              starve := some 500 })
        ∧ (rest = [] → sl.toReceive = 0 → u.svc.slots = put s.svc.slots i Slot.idle
            ∧ u.svc.reports = [.streamDone i (sl.owner.getD 0)])
        ∧ u.svc.zones = s.svc.zones ∧ u.svc.channels = s.svc.channels ∧ u.svc.calls = s.svc.calls
        ∧ u.svc.houses = s.svc.houses ∧ u.control = s.control ∧ u.cue = s.cue ∧ u.sup = s.sup)

/-- The end of a block of a PLAYING slot that retains its blocks: no block is freed; with more ahead
the slot plays on; with none but more to receive it is STARVED; otherwise the pass is done: the slot
is back at its first block, one more pass counted (up to 65,535), PLAYING when it loops, else PAUSED.
The starve timer of a STARVED slot runs out: the pool abandons the slot, its blocks are free, and
its owner is told STARVED. Nothing for a slot in another state (log 2). -/
def Obligations.RetainedSlotsPassStarvedSlotsGo : Prop :=
  (∀ (i : SlotId) (s : State), Still s →
      let sl := look s.svc.slots i
      sl.state = .playing → sl.retain = true → sl.position < sl.held.length →
      ∃ u : State, exec (.blockPlayed i) s = .next u.settled
        ∧ u.svc.free = s.svc.free
        ∧ (sl.position + 1 < sl.held.length → u.svc.slots = put s.svc.slots i
            { sl with position := sl.position + 1, offset := 0 })
        ∧ (sl.position + 1 = sl.held.length → 0 < sl.toReceive → u.svc.slots = put s.svc.slots i
            { sl with position := sl.position + 1, offset := 0, state := .starved, starve := some 500 })
        ∧ (sl.position + 1 = sl.held.length → sl.toReceive = 0 → u.svc.slots = put s.svc.slots i
            { sl with
              position := 0, offset := 0, passes := advanceTo sl.passes
              state := if sl.loop then .playing else .paused }
          ∧ u.svc.reports = [.passDone i (advanceTo sl.passes)])
        ∧ u.svc.zones = s.svc.zones ∧ u.svc.channels = s.svc.channels ∧ u.svc.calls = s.svc.calls
        ∧ u.svc.houses = s.svc.houses ∧ u.control = s.control ∧ u.cue = s.cue ∧ u.sup = s.sup)
  ∧ (∀ (i : SlotId) (s : State), Still s →
      let sl := look s.svc.slots i
      (sl.state ≠ .starved → exec (.starveTimerExpiry i) s = .next s)
      ∧ (sl.state = .starved →
        ∃ u : State, exec (.starveTimerExpiry i) s = .next u.settled
          ∧ u.svc.slots = put s.svc.slots i Slot.idle ∧ u.svc.free = s.svc.free + sl.held.length
          ∧ (∀ o, sl.owner = some o → u.svc.reports = [.slotAbandoned i .starved o])
          ∧ u.svc.zones = s.svc.zones ∧ u.svc.channels = s.svc.channels ∧ u.svc.calls = s.svc.calls
          ∧ u.control = s.control ∧ u.cue = s.cue ∧ u.sup = s.sup))

/-! ## Clips -/

/-- The live keys: a confirmed press, in RUN and not from PRESSED, sets the live flag of every bound
channel and claims its zone with rank 5; a confirmed release, from PRESSED in RUN, clears the flag
and takes the live claim from every zone; the key leaving UNSETTLED sets the filter only. The last
sample of the key is the level confirmed (log 7). Elsewhere the events change nothing (log 2). -/
def Obligations.LiveKeysClaim : Prop :=
  ∀ (key : LiveInput) (s : State), Still s →
    (¬ (s.control.running = true ∧ (liveKeyOf s.svc key).filter ≠ .pressed) →
      exec (.liveKeyPress key) s = .next s)
    ∧ (¬ (s.control.running = true ∧ (liveKeyOf s.svc key).filter = .pressed) →
      exec (.liveKeyRelease key) s = .next s)
    ∧ (¬ (s.control.running = true ∧ (liveKeyOf s.svc key).filter = .unsettled) →
      exec (.liveKeySettled key) s = .next s)
    ∧ (s.control.running = true → (liveKeyOf s.svc key).filter = .unsettled →
      ∃ t : State, exec (.liveKeySettled key) s = .next t
        ∧ liveKeyOf t.svc key = { filter := .released, sample := some true }
        ∧ t.svc.zones = s.svc.zones ∧ t.svc.channels = s.svc.channels ∧ t.svc.slots = s.svc.slots
        ∧ t.svc.calls = s.svc.calls ∧ t.control = s.control ∧ t.cue = s.cue ∧ t.sup = s.sup)
    ∧ (s.control.running = true → (liveKeyOf s.svc key).filter ≠ .pressed →
      ∃ u : State, exec (.liveKeyPress key) s = .next u.settled
        ∧ liveKeyOf u.svc key = { filter := .pressed, sample := some false }
        ∧ (∀ d, boundTo s.env key d = false → look u.svc.channels d = look s.svc.channels d)
        ∧ (∀ d, boundTo s.env key d = true → (look u.svc.channels d).liveFlag = true
            ∧ (look u.svc.channels d).liveClaim ≠ .none
            ∧ (look u.svc.channels d).active = (look s.svc.channels d).active
            ∧ (look u.svc.channels d).queue = (look s.svc.channels d).queue)
        ∧ (∀ d z, boundTo s.env key d = true → (look s.control.cfg.channels d).zone = some z →
            (∀ e, e ≠ d → boundTo s.env key e = true → (look s.control.cfg.channels e).zone ≠ some z) →
            (look s.control.cfg.zones z).kind = .description → (look s.svc.zones z).rank < 5 →
            (look s.svc.zones z).carries (.live d) = false →
            (look u.svc.zones z).active = some ⟨5, .live d⟩ ∧ (look u.svc.channels d).liveClaim = .onZone)
        ∧ u.svc.slots = s.svc.slots ∧ u.svc.calls = s.svc.calls ∧ u.control = s.control ∧ u.cue = s.cue
        ∧ u.sup = s.sup)
    ∧ (s.control.running = true → (liveKeyOf s.svc key).filter = .pressed →
      ∃ u : State, exec (.liveKeyRelease key) s = .next u.settled
        ∧ liveKeyOf u.svc key = { filter := .released, sample := some true }
        ∧ (∀ d, boundTo s.env key d = false → look u.svc.channels d = look s.svc.channels d)
        ∧ (∀ d, boundTo s.env key d = true → (look u.svc.channels d).liveFlag = false
            ∧ (look u.svc.channels d).liveClaim = .none
            ∧ ∀ z, (look u.svc.zones z).carries (.live d) = false
              ∧ (look u.svc.zones z).stacks (.live d) = false)
        ∧ u.svc.slots = s.svc.slots ∧ u.svc.calls = s.svc.calls ∧ u.control = s.control ∧ u.cue = s.cue
        ∧ u.sup = s.sup)

/-- CLIP-ARM: a channel above 3, a condition that names none, an id or a length out of range RANGE; in
CONFIG STATE; a channel not in service RANGE; the id queued or active CONFLICT; four queued FULL. An
accepted one joins the end of the queue; a head is loaded at once when a slot of the channel is IDLE
and the pool can cover it; the answer is its place and, for a head, its slot. -/
def Obligations.ClipArmQueues : Prop :=
  ∀ (tag : Byte) (n id len : Nat) (c : StartCondition) (t : Nat) (s : State), Ready s →
    let no (st : Status) := exec (.clipArm tag n id len (some c) t) s
      = .next (answered tag .clipArm st [] (taken tag .clipArm s))
    (3 < n ∨ id = 0 ∨ 255 < id ∨ len = 0 ∨ 3750 < len → no .range)
    ∧ (exec (.clipArm tag n id len none t) s
        = .next (answered tag .clipArm .range [] (taken tag .clipArm s)))
    ∧ (∀ d : ChannelId, n = d.val → 1 ≤ id → id ≤ 255 → 1 ≤ len → len ≤ 3750 →
      let ch := look s.svc.channels d
      let taken' := (∃ q ∈ ch.queue, q.clipId = id) ∨ (∃ k, ch.active = some k ∧ k.desc.clipId = id)
      (s.control.running = false → no .state)
      ∧ (s.control.running = true → inService (look s.control.cfg.channels d) = false → no .range)
      ∧ (s.control.running = true → inService (look s.control.cfg.channels d) = true →
        (taken' → no .conflict)
        ∧ (¬ taken' → 4 ≤ ch.queue.length → no .full)
        ∧ (¬ taken' → ch.queue.length < 4 →
          ∃ u : State, exec (.clipArm tag n id len (some c) t) s = .next u.settled
            ∧ (look u.svc.channels d).queue = ch.queue
                ++ [{ clipId := id, length := len, condition := c, latestStart := t }]
            ∧ (look u.svc.channels d).active = ch.active
            ∧ (∀ e, e ≠ d → look u.svc.channels e = look s.svc.channels e)
            ∧ (∀ i, ch.queue = [] → ch.headSlot = none → idleSlot s.svc d = some i →
                reserve s.svc.slots + min 32 len ≤ s.svc.free →
                (look u.svc.channels d).headSlot = some i
                ∧ u.svc.slots = put s.svc.slots i
                  { Slot.idle with
                    state := .loading, owner := some id, length := len, toReceive := len })
            ∧ (.reply tag .clipArm [0x00 :: (u8 (ch.queue.length + 1)
                ++ slotField (if ch.queue = [] then (look u.svc.channels d).headSlot else none))])
                ∈ u.svc.link.tx
            ∧ u.svc.zones = s.svc.zones ∧ u.svc.calls = s.svc.calls ∧ u.svc.free = s.svc.free
            ∧ u.svc.houses = s.svc.houses ∧ u.control = s.control ∧ u.cue = s.cue ∧ u.sup = s.sup)))

/-- CLIP-DISARM: a channel above 3 RANGE; the active clip's id STATE; an id not queued ABSENT; an
accepted one leaves the queue, the others keeping their order, and is answered with the clips left.
A removed head that was loaded has its slot abandoned, its blocks free (R108). Whatever the answer,
the channel's unloaded head, old or new, is loaded when it can be (R107): after a loaded head is
disarmed the own channel's new head has the room first (the model's choice: log 30).
A slot that begins to want feed raises FEED (R89). -/
def Obligations.ClipDisarmUnqueues : Prop :=
  (∀ (tag : Byte) (n id : Nat) (s : State), Ready s →
    let run := exec (.clipDisarm tag n id) s
    (3 < n → run = .next (answered tag .clipDisarm .range [] (taken tag .clipDisarm s)))
    ∧ (∀ d : ChannelId, n = d.val →
      let ch := look s.svc.channels d
      let left := ch.queue.filter (fun q => q.clipId != id)
      let isActive := ∃ k, ch.active = some k ∧ k.desc.clipId = id
      let refused (st : Status) :=
        ((∀ q i, ¬ CanLoad d q i s) →
          run = .next (answered tag .clipDisarm st [] (taken tag .clipDisarm s)))
        ∧ (∀ q i, CanLoad d q i s → ∃ u : State, run = .next u.settled ∧ HeadLoaded d q i s u
            ∧ (.reply tag .clipDisarm [[st.code]]) ∈ u.svc.link.tx)
      (isActive → refused .state)
      ∧ (¬ isActive → (∀ q ∈ ch.queue, q.clipId ≠ id) → refused .absent)
      ∧ (¬ isActive → (∃ q ∈ ch.queue, q.clipId = id) →
        ∃ u : State, run = .next u.settled
          ∧ (look u.svc.channels d).queue = left
          ∧ (look u.svc.channels d).active = ch.active
          ∧ (∀ e, e ≠ d → (look u.svc.channels e).queue = (look s.svc.channels e).queue
              ∧ (look u.svc.channels e).active = (look s.svc.channels e).active)
          ∧ (.reply tag .clipDisarm [0x00 :: u8 left.length]) ∈ u.svc.link.tx
          ∧ u.svc.zones = s.svc.zones ∧ u.svc.calls = s.svc.calls ∧ u.svc.houses = s.svc.houses
          ∧ u.control = s.control ∧ u.cue = s.cue ∧ u.sup = s.sup
          ∧ ((∀ q, ch.queue.head? = some q → q.clipId ≠ id ∨ ch.headSlot = none) →
            let mid : State := { s with svc := { s.svc with
              channels := put s.svc.channels d { ch with queue := left } } }
            ((∀ q i, ¬ CanLoad d q i mid) →
              u.svc.channels = mid.svc.channels ∧ u.svc.slots = s.svc.slots)
            ∧ (∀ q i, CanLoad d q i mid → HeadLoaded d q i mid u))
          ∧ (∀ q i, ch.queue.head? = some q → q.clipId = id → ch.headSlot = some i →
            (look s.svc.slots i).state ≠ .idle → (look s.svc.slots i).owner = some id →
            let mid : State := { s with svc := { s.svc with
              channels := put s.svc.channels d
                { ch with queue := left, headSlot := none, headFilled := false }
              slots := put s.svc.slots i Slot.idle
              free := s.svc.free + (look s.svc.slots i).held.length } }
            u.svc.free = mid.svc.free ∧ (look u.svc.slots i).held = []
            ∧ ((look u.svc.slots i).state = .idle ∨ (look u.svc.slots i).state = .loading)
            ∧ ((∀ x j, ¬ CanLoad d x j mid) → (look u.svc.channels d).headSlot = none)
            ∧ (∀ x j, CanLoad d x j mid → (look u.svc.channels d).headSlot = some j
              ∧ (look u.svc.channels d).headFilled = false
              ∧ look u.svc.slots j = { Slot.idle with
                  state := .loading, owner := some x.clipId, length := x.length
                  toReceive := x.length }
              ∧ u.svc.link.pendingKinds &&& 0x0020 = 0x0020)))))
  ∧ (∀ (env : Env) (i : SlotId) (new : Slot) (sv : Services),
      let wants (sl : Slot) := (sl.state = .loading ∨ sl.state = .playing ∨ sl.state = .starved)
        ∧ 0 < sl.toReceive ∧ sl.held.length < 64
      let u := putSlot env i new sv
      u.slots = put sv.slots i new
      ∧ (wants new → ¬ wants (look sv.slots i) →
        u.link.pendingKinds = sv.link.pendingKinds ||| 0x0020)
      ∧ (¬ wants new ∨ wants (look sv.slots i) → u = { sv with slots := put sv.slots i new }))

/-- CLIP-START: a channel above 3 RANGE; in CONFIG STATE; not in service RANGE; a standing channel
whose clip does not finish STATE; an empty queue EMPTY and a head that is not loaded and cannot be,
NOT-READY, both raising NOT-READY. Otherwise the active clip is cut and the head becomes the active
clip: ended LATE past its latest start, waiting for its fill, for a gap, or for the zone, or
speaking; NOT-READY is raised when it waits for its fill. -/
def Obligations.ClipStartTakesTheHead : Prop :=
  ∀ (tag : Byte) (n : Nat) (s : State), Ready s →
    let no (st : Status) := exec (.clipStart tag n) s
      = .next (answered tag .clipStart st [] (taken tag .clipStart s))
    (3 < n → no .range)
    ∧ (∀ d : ChannelId, n = d.val →
      let ch := look s.svc.channels d
      (s.control.running = false → no .state)
      ∧ (s.control.running = true → inService (look s.control.cfg.channels d) = false → no .range)
      ∧ (s.control.running = true → inService (look s.control.cfg.channels d) = true →
        let held := ch.mode = .standing ∧ (∀ k, ch.active = some k → k.finishing = false)
        (held → no .state)
        ∧ (¬ held → ch.queue = [] ∨ (ch.headSlot = none ∧ idleSlot s.svc d = none) →
          ∃ u : State, exec (.clipStart tag n) s = .next u.settled
            ∧ (.reply tag .clipStart [[if ch.queue = [] then 0x0B else 0x0C]]) ∈ u.svc.link.tx
            ∧ u.svc.link.pendingKinds = s.svc.link.pendingKinds ||| 0x0010
            ∧ u.svc.channels = s.svc.channels ∧ u.svc.slots = s.svc.slots
            ∧ u.svc.zones = s.svc.zones ∧ u.svc.calls = s.svc.calls ∧ u.control = s.control
            ∧ u.cue = s.cue ∧ u.sup = s.sup)
        ∧ (∀ head rest i, ¬ held → ch.queue = head :: rest → ch.headSlot = some i →
          ∃ u : State, exec (.clipStart tag n) s = .next u.settled
            ∧ (look u.svc.channels d).queue = rest
            ∧ (head.latestStart ≠ 0 ∧ head.latestStart < channelClock s.env d →
                (look u.svc.channels d).active = none
                ∧ (look u.svc.channels d).lastOutcome = some
                  { clipId := head.clipId, outcome := .late, clock := channelClock s.env d
                    standing := false })
            ∧ (¬ (head.latestStart ≠ 0 ∧ head.latestStart < channelClock s.env d) →
                (∃ k, (look u.svc.channels d).active = some k ∧ k.desc = head ∧ k.slot = i
                  ∧ k.filled = ch.headFilled ∧ k.standing = false
                  ∧ (ch.headFilled = false → k.state = .waitingFill
                      ∧ u.svc.link.pendingKinds &&& 0x0010 = 0x0010)
                  ∧ (ch.headFilled = true → head.condition = .gap → channelGap s.env d ≠ .quiet →
                      k.state = .waitingGap)
                  ∧ (ch.headFilled = true → head.condition = .atCue ∨ channelGap s.env d = .quiet →
                      k.state = .speaking ∨ k.state = .waitingZone))
                ∧ (∀ old, ch.active = some old → (look u.svc.channels d).lastOutcome = some
                  { clipId := old.desc.clipId, outcome := .cut, clock := channelClock s.env d
                    standing := old.standing })
                ∧ (ch.active = none → (look u.svc.channels d).lastOutcome = ch.lastOutcome))
            ∧ u.svc.calls = s.svc.calls ∧ u.svc.houses = s.svc.houses ∧ u.control = s.control
            ∧ u.cue = s.cue ∧ u.quiet = s.quiet ∧ u.sup = s.sup)
        ∧ (∀ head rest i, ¬ held → ch.queue = head :: rest → ch.headSlot = none →
          idleSlot s.svc d = some i → between 1 255 head.clipId = true →
          between 1 3750 head.length = true →
          (s.svc.free < reserve s.svc.slots + min 32 head.length →
            ∃ u : State, exec (.clipStart tag n) s = .next u.settled
              ∧ (.reply tag .clipStart [[0x0C]]) ∈ u.svc.link.tx
              ∧ u.svc.channels = s.svc.channels ∧ u.svc.slots = s.svc.slots)
          ∧ (reserve s.svc.slots + min 32 head.length ≤ s.svc.free →
            ¬ (head.latestStart ≠ 0 ∧ head.latestStart < channelClock s.env d) →
            ∃ u : State, exec (.clipStart tag n) s = .next u.settled
              ∧ (look u.svc.channels d).queue = rest
              ∧ ∃ k, (look u.svc.channels d).active = some k ∧ k.desc = head ∧ k.slot = i
                ∧ k.filled = false ∧ k.state = .waitingFill))))

/-- CLIP-STOP: a channel above 3 RANGE; in CONFIG STATE; not in service RANGE; no active clip ABSENT;
otherwise the active clip ends STOPPED and its id is the answer.
The latest start of a waiting clip is passed, its show clock RUNNING or past it: the clip ends
LATE. The resume limit of a suspended clip runs out: it ends RESUME-LIMIT. Elsewhere the events change
nothing (log 2). -/
def Obligations.ClipsEnd : Prop :=
  (∀ (tag : Byte) (n : Nat) (s : State), Ready s →
      let no (st : Status) := exec (.clipStop tag n) s
        = .next (answered tag .clipStop st [] (taken tag .clipStop s))
      (3 < n → no .range)
      ∧ (∀ d : ChannelId, n = d.val →
        (s.control.running = false → no .state)
        ∧ (s.control.running = true → inService (look s.control.cfg.channels d) = false → no .range)
        ∧ (s.control.running = true → inService (look s.control.cfg.channels d) = true →
          ((look s.svc.channels d).active = none → no .absent)
          ∧ (∀ k, (look s.svc.channels d).active = some k →
            ∃ u : State, exec (.clipStop tag n) s = .next u.settled ∧ ClipEnded d k .stopped s u
              ∧ (.reply tag .clipStop [0x00 :: u8 k.desc.clipId]) ∈ u.svc.link.tx))))
  ∧ (∀ (d : ChannelId) (s : State), Still s →
      ((∀ k, (look s.svc.channels d).active = some k → k.state.waits = false ∨ k.desc.latestStart = 0) →
        exec (.latestStartPassed d) s = .next s)
      ∧ (∀ a k, (look s.control.cfg.channels d).auditorium = some a →
        (look s.svc.channels d).active = some k → k.state.waits = true → k.desc.latestStart ≠ 0 →
        ((s.cue.get a).running = false → (s.cue.get a).clock ≤ k.desc.latestStart →
          exec (.latestStartPassed d) s = .next s)
        ∧ ((s.cue.get a).running = true ∨ k.desc.latestStart < (s.cue.get a).clock →
          ∃ u : State, exec (.latestStartPassed d) s = .next u.settled ∧ ClipEnded d k .late s u))
      ∧ ((∀ k, (look s.svc.channels d).active = some k → k.state ≠ .suspended ∨ k.resumeLeft = none) →
        exec (.resumeLimitExpiry d) s = .next s)
      ∧ (∀ k, (look s.svc.channels d).active = some k → k.state = .suspended → k.resumeLeft.isSome →
        ∃ u : State, exec (.resumeLimitExpiry d) s = .next u.settled ∧ ClipEnded d k .resumeLimit s u))

/-- CHANNEL-MODE: SCRIPTED ends the standing clip STOPPED, or changes nothing in SCRIPTED; STANDING,
with the house OPEN, no active clip and the id not queued, arms a retained slot for the clip, which
waits for its fill. The checks: a channel above 3 RANGE, for STANDING an id or length out of range
RANGE; in CONFIG STATE; not in service RANGE; the house not OPEN, the mode STANDING or a clip active
STATE; the id queued CONFLICT; no slot to arm STATE (the model's choice, log 30); no room POOL. -/
def Obligations.ChannelModes : Prop :=
  ∀ (tag : Byte) (n id len : Nat) (s : State), Ready s →
    let off (st : Status) := exec (.channelModeScripted tag n) s
      = .next (answered tag .channelMode st [] (taken tag .channelMode s))
    let on (st : Status) := exec (.channelModeStanding tag n id len) s
      = .next (answered tag .channelMode st [] (taken tag .channelMode s))
    (3 < n → off .range ∧ on .range)
    ∧ (id = 0 ∨ 255 < id ∨ len = 0 ∨ 1024 < len → on .range)
    ∧ (∀ d : ChannelId, n = d.val →
      let ch := look s.svc.channels d
      let cfg := look s.control.cfg.channels d
      (s.control.running = false → off .state ∧ (1 ≤ id → id ≤ 255 → 1 ≤ len → len ≤ 1024 → on .state))
      ∧ (s.control.running = true → inService cfg = false →
          off .range ∧ (1 ≤ id → id ≤ 255 → 1 ≤ len → len ≤ 1024 → on .range))
      ∧ (s.control.running = true → inService cfg = true →
        (ch.mode = .scripted → off .ok)
        ∧ (∀ k, ch.mode = .standing → ch.active = some k → k.standing = true →
          ∃ u : State, exec (.channelModeScripted tag n) s = .next u.settled
            ∧ ClipEnded d k .stopped s u ∧ (.reply tag .channelMode [[0x00]]) ∈ u.svc.link.tx)
        ∧ (∀ a, cfg.auditorium = some a → 1 ≤ id → id ≤ 255 → 1 ≤ len → len ≤ 1024 →
          let free := (s.svc.houses.get a).state = .opened ∧ ch.mode = .scripted ∧ ch.active = none
          (¬ free → on .state)
          ∧ (free → (∃ q ∈ ch.queue, q.clipId = id) → on .conflict)
          ∧ (free → (∀ q ∈ ch.queue, q.clipId ≠ id) → standingSlot s.svc d = none → on .state)
          ∧ (∀ i, free → (∀ q ∈ ch.queue, q.clipId ≠ id) → standingSlot s.svc d = some i →
            (s.svc.free < reserve s.svc.slots + min 32 len → on .pool)
            ∧ (reserve s.svc.slots + min 32 len ≤ s.svc.free →
              ∃ u : State, exec (.channelModeStanding tag n id len) s = .next u.settled
                ∧ u.svc.slots = put s.svc.slots i
                  { Slot.idle with
                    state := .loading, owner := some id, length := len, toReceive := len, retain := true }
                ∧ u.svc.channels = put s.svc.channels d
                  { ch with
                    mode := .standing
                    active := some
                      { desc := { clipId := id, length := len, condition := .atCue, latestStart := 0 }
                        slot := i, state := .waitingFill, filled := false, standing := true
                        finishing := false, resumeLeft := none } }
                ∧ (.reply tag .channelMode [0x00 :: u8 i.val]) ∈ u.svc.link.tx
                ∧ u.svc.zones = s.svc.zones ∧ u.svc.calls = s.svc.calls ∧ u.svc.free = s.svc.free
                ∧ u.control = s.control ∧ u.cue = s.cue ∧ u.sup = s.sup)))))

/-! ## Calls -/

/-- CALL-POST: a descriptor out of range RANGE; in CONFIG STATE; a target of a kind that takes no
calls RANGE; the id live CONFLICT; 16 live calls FULL. An accepted call joins the table, PARKED or
WAITING, posted at the call clock, its expiry timer running unless 0; a walk is owed; the answer is
its state and the live calls. -/
def Obligations.CallPostEntersTheTable : Prop :=
  ∀ (tag : Byte) (f : CallFields) (s : State), Ready s →
    let no (st : Status) := exec (.callPost tag f) s
      = .next (answered tag .callPost st [] (taken tag .callPost s))
    ((f.callId = 0 ∨ 255 < f.callId ∨ 3 < f.priority ∨ f.targets = [] ∨ (∃ z ∈ f.targets, 20 ≤ z)
        ∨ f.chime = none ∨ f.message = none ∨ f.message = some (.stream 0)
        ∨ (∃ n, f.message = some (.stream n) ∧ 1024 < n) ∨ f.message = some (.liveMic 0)
        ∨ (∃ n, f.message = some (.liveMic n) ∧ 120 < n) ∨ f.repetitions = 0 ∨ 8 < f.repetitions
        ∨ 600 < f.spacing ∨ 3600 < f.expiry ∨ f.whole = none ∨ f.parked = none
        ∨ (f.chime = some .noChime ∧ f.message = some .noMessage)) → no .range)
    ∧ (∀ d, callDescOf f = some d →
      (s.control.running = false → no .state)
      ∧ (s.control.running = true →
        ((∃ z ∈ d.targets, takesCalls (look s.control.cfg.zones z).kind = false) → no .range)
        ∧ ((∀ z ∈ d.targets, takesCalls (look s.control.cfg.zones z).kind = true) →
          ((∃ k ∈ s.svc.calls, k.desc.callId = d.callId) → no .conflict)
          ∧ ((∀ k ∈ s.svc.calls, k.desc.callId ≠ d.callId) →
            (16 ≤ s.svc.calls.length → no .full)
            ∧ (s.svc.calls.length < 16 →
              ∃ u : State, exec (.callPost tag f) s = .next u.settled
                ∧ u.svc.calls = s.svc.calls ++
                  [{ desc := d, state := if d.parked then .parked else .waiting, phase := none
                     unbroken := [], heard := [], done := 0, slot := none, filled := false
                     posted := s.svc.callClock, firstStart := none
                     expiryLeft := if d.expiry = 0 then none else some (d.expiry * 1000)
                     spacingLeft := none, micLeft := none, breakLeft := none, dropMessage := false }]
                ∧ u.svc.walkDue = true
                ∧ (.reply tag .callPost [0x00 :: (u8 (if d.parked then 0 else 1)
                    ++ u8 (s.svc.calls.length + 1))]) ∈ u.svc.link.tx
                ∧ u.svc.zones = s.svc.zones ∧ u.svc.slots = s.svc.slots
                ∧ u.svc.channels = s.svc.channels ∧ u.svc.finished = s.svc.finished
                ∧ u.svc.houses = s.svc.houses ∧ u.control = s.control ∧ u.cue = s.cue
                ∧ u.sup = s.sup)))))

/-- CALL-RELEASE, CALL-END and CALL-CANCEL: an id that no live call has is ABSENT. A release of a
PARKED call makes it WAITING and owes a walk, of any other is STATE. An end of a playing live call in
its chime drops the message, in another phase ends the repetition, of any other call is STATE. A
cancel ends the call CANCELLED.
CALL-FINISHED answers OK with the oldest finished record, its fields in the order of R128 and R129
(codes and widths: log 11, 12), and removes it, in RUN and in CONFIG; with no record it answers
EMPTY. -/
def Obligations.CallRequestsAnswer : Prop :=
  (∀ (tag : Byte) (id : Nat) (s : State), Ready s →
      (findCall id s.svc = none →
        exec (.callRelease tag id) s
          = .next (answered tag .callRelease .absent [] (taken tag .callRelease s))
        ∧ exec (.callEnd tag id) s = .next (answered tag .callEnd .absent [] (taken tag .callEnd s))
        ∧ exec (.callCancel tag id) s
          = .next (answered tag .callCancel .absent [] (taken tag .callCancel s)))
      ∧ (∀ k, findCall id s.svc = some k →
        (k.state ≠ .parked → exec (.callRelease tag id) s
          = .next (answered tag .callRelease .state [] (taken tag .callRelease s)))
        ∧ (k.state = .parked → ∃ u : State, exec (.callRelease tag id) s = .next u.settled
            ∧ findCall id u.svc = some { k with state := .waiting } ∧ u.svc.walkDue = true
            ∧ (∀ c ∈ s.svc.calls, c.desc.callId ≠ id → c ∈ u.svc.calls)
            ∧ (.reply tag .callRelease [[0x00]]) ∈ u.svc.link.tx
            ∧ u.svc.zones = s.svc.zones ∧ u.svc.slots = s.svc.slots ∧ u.svc.channels = s.svc.channels
            ∧ u.svc.finished = s.svc.finished ∧ u.control = s.control ∧ u.cue = s.cue ∧ u.sup = s.sup)
        ∧ ((isMic k.desc.message = false ∨ k.state ≠ .playing) → exec (.callEnd tag id) s
          = .next (answered tag .callEnd .state [] (taken tag .callEnd s)))
        ∧ (isMic k.desc.message = true → k.state = .playing → k.phase = some .chime →
          ∃ t : State, exec (.callEnd tag id) s = .next t
            ∧ findCall id t.svc = some { k with dropMessage := true }
            ∧ (.reply tag .callEnd [[0x00]]) ∈ t.svc.link.tx
            ∧ t.svc.zones = s.svc.zones ∧ t.svc.slots = s.svc.slots ∧ t.svc.chimes = s.svc.chimes
            ∧ t.svc.finished = s.svc.finished ∧ t.control = s.control ∧ t.cue = s.cue ∧ t.sup = s.sup)
        ∧ (isMic k.desc.message = true → k.state = .playing → k.phase ≠ some .chime →
          ∃ u : State, exec (.callEnd tag id) s = .next u.settled ∧ RepetitionEnded k s u
            ∧ (.reply tag .callEnd [[0x00]]) ∈ u.svc.link.tx)
        ∧ (∃ u : State, exec (.callCancel tag id) s = .next u.settled ∧ CallEnded k .cancelled s u
            ∧ (.reply tag .callCancel [[0x00]]) ∈ u.svc.link.tx)))
  ∧ (∀ (tag : Byte) (s : State), Ready s →
      (s.svc.finished = [] → exec (.callFinished tag) s
        = .next (answered tag .callFinished .empty [] (taken tag .callFinished s)))
      ∧ (∀ r rest, s.svc.finished = r :: rest → exec (.callFinished tag) s
        = .next (answered tag .callFinished .ok (finishedFields r)
          { taken tag .callFinished s with
            svc := { (taken tag .callFinished s).svc with finished := rest } })))

/-- The timers of a call: its expiry ends it EXPIRED; its spacing makes it WAITING and owes a walk;
the break of 400 ms after the chime begins its message; the microphone timer, run out, ends the
repetition. Without the timer, with time left on the microphone timer, or in another state the
events change nothing (log 2).
An evaluation walk (R133) takes the live calls in queue order: by priority, the highest first, then
by posted time. A turn offers S8, else S9, to a streamed call that has no slot (R134), until an
offer finds none or no room; a ready WAITING call claims its targets, and with a grant PLAYS, heard
on the zones that are neither mute nor FAILED (R135, R142); a playing call retries the zones the
walk is for (R141). -/
def Obligations.CallTimersAct : Prop :=
  (∀ (id : Nat) (s : State), Still s →
    ((∀ k, findCall id s.svc = some k → k.expiryLeft = none) →
      exec (.callExpiry id) s = .next s)
    ∧ (∀ k, findCall id s.svc = some k → k.expiryLeft.isSome →
      ∃ u : State, exec (.callExpiry id) s = .next u.settled ∧ CallEnded k .expired s u)
    ∧ ((∀ k, findCall id s.svc = some k → k.state ≠ .spacing) →
      exec (.spacingExpiry id) s = .next s)
    ∧ (∀ k, findCall id s.svc = some k → k.state = .spacing →
      ∃ u : State, exec (.spacingExpiry id) s = .next u.settled
        ∧ findCall id u.svc = some { k with state := .waiting, spacingLeft := none }
        ∧ u.svc.walkDue = true ∧ u.svc.zones = s.svc.zones ∧ u.svc.slots = s.svc.slots
        ∧ u.svc.finished = s.svc.finished ∧ u.control = s.control ∧ u.cue = s.cue ∧ u.sup = s.sup)
    ∧ ((∀ k, findCall id s.svc = some k → k.state ≠ .playing ∨ k.phase ≠ some .pause) →
      exec (.breakExpiry id) s = .next s)
    ∧ (∀ k, findCall id s.svc = some k → k.state = .playing → k.phase = some .pause →
      ∃ u : State, exec (.breakExpiry id) s = .next u.settled
        ∧ (∃ c, findCall id u.svc = some c ∧ c.desc = k.desc ∧ c.state = .playing
            ∧ c.phase = some .message ∧ c.breakLeft = none ∧ c.done = k.done
            ∧ (∀ n, k.desc.message = .liveMic n → c.micLeft = some (n * 1000)))
        ∧ (∀ n i, k.desc.message = .stream n → k.slot = some i →
            (k.done = 0 → (look s.svc.slots i).state = .loading →
              (look s.svc.slots i).prefill ≤ (look s.svc.slots i).held.length →
              (look u.svc.slots i).state = .playing)
            ∧ (k.done ≠ 0 → (look s.svc.slots i).state = .paused → 0 < (look s.svc.slots i).ahead →
              (look u.svc.slots i).state = .playing))
        ∧ u.svc.zones = s.svc.zones ∧ u.svc.finished = s.svc.finished ∧ u.control = s.control
        ∧ u.cue = s.cue ∧ u.sup = s.sup)
    ∧ ((∀ k, findCall id s.svc = some k → k.state ≠ .playing ∨ k.micLeft ≠ some 0) →
      exec (.micTimerExpiry id) s = .next s)
    ∧ (∀ k, findCall id s.svc = some k → k.state = .playing → k.micLeft = some 0 →
      ∃ u : State, exec (.micTimerExpiry id) s = .next u.settled ∧ RepetitionEnded k s u))
  ∧ (∀ calls : List Call, (queueOrder calls).Perm calls ∧ (queueOrder calls).Pairwise (fun a b =>
      b.desc.priority < a.desc.priority
      ∨ (b.desc.priority = a.desc.priority ∧ a.posted ≤ b.posted)))
  ∧ (∀ (env : Env) (sv : Services), walk env sv
      = ((queueOrder sv.calls).foldl (fun acc k => walkCall env sv.walkZones acc k.desc.callId)
          (true, { sv with walkDue := false, walkZones := [] })).2)
  ∧ (∀ (env : Env) (zs : List ZoneId) (offering : Bool) (k : Call) (sv : Services),
      findCall k.desc.callId sv = some k →
      let turn := walkCall env zs (offering, sv) k.desc.callId
      let own (f : Call → Call) : List Call :=
        sv.calls.map (fun c => if c.desc.callId = k.desc.callId then f c else c)
      let idle (i : SlotId) := (look sv.slots i).state = .idle
      (k.state = .spacing → turn = (offering, sv))
      ∧ (∀ n, k.state = .parked ∨ (k.state = .waiting ∧ k.filled = false) → k.desc.message = .stream n →
        (offering = false ∨ k.slot.isSome → turn = (offering, sv))
        ∧ (offering = true → k.slot = none → ¬ idle 8 → ¬ idle 9 → turn = (false, sv))
        ∧ (∀ i, offering = true → k.slot = none → (idle 8 ∧ i = 8) ∨ (¬ idle 8 ∧ idle 9 ∧ i = 9) →
          env.run = true → between 1 255 k.desc.callId = true → between 1 1024 n = true →
          (sv.free < reserve sv.slots + min 32 n → turn = (false, sv))
          ∧ (reserve sv.slots + min 32 n ≤ sv.free →
            turn.1 = true ∧ turn.2.calls = own (fun c => { c with slot := some i, filled := false })
            ∧ turn.2.slots = put sv.slots i
              { Slot.idle with
                state := .loading, owner := some k.desc.callId, length := n, toReceive := n
                retain := decide (1 < k.desc.repetitions) }
            ∧ turn.2.free = sv.free ∧ turn.2.zones = sv.zones ∧ turn.2.channels = sv.channels)))
      ∧ (k.state = .parked → (∀ n, k.desc.message ≠ .stream n) → turn = (offering, sv))
      ∧ (k.state = .waiting → (∀ n, k.desc.message = .stream n → k.slot.isSome ∧ k.filled = true) →
        turn = (offering, startClaim env k sv))
      ∧ (k.state = .playing → turn = (offering,
        if k.desc.whole then sv else zs.foldl (fun acc z => lateJoin env k z acc) sv)))
  ∧ (∀ (env : Env) (k : Call) (sv : Services), findCall k.desc.callId sv = some k →
      k.desc.targets.Nodup →
      (∀ z ∈ k.desc.targets, mayClaim (look env.cfg.zones z) (.call k.desc.callId) = true) →
      let c := callClaim k.desc
      let u := startClaim env k sv
      let can (z : ZoneId) : Bool := env.run && ((look sv.zones z).carries c.who
        || (!heldOff (look sv.zones z).holds c && decide ((look sv.zones z).rank < c.rank)))
      let granted := if k.desc.whole && !k.desc.targets.all can then [] else k.desc.targets.filter can
      c.who = .call k.desc.callId
      ∧ (k.desc.priority ≤ 3 → [2, 3, 5, 6][k.desc.priority]? = some c.rank)
      ∧ (granted = [] → u = sv)
      ∧ (granted ≠ [] →
        (∃ p, findCall k.desc.callId u = some p ∧ p.desc = k.desc ∧ p.state = .playing
          ∧ p.unbroken = granted.filter (fun z =>
              !(look env.cfg.zones z).mute && (look sv.zones z).drive != .failed)
          ∧ p.heard = k.heard ∧ p.done = k.done ∧ p.slot = k.slot
          ∧ p.firstStart = (if k.firstStart = none then some sv.callClock else k.firstStart)
          ∧ p.expiryLeft = none ∧ p.spacingLeft = none
          ∧ (k.desc.chime ≠ .noChime → p.phase = some .chime ∧ u.slots = sv.slots
              ∧ u.chimes = sv.chimes ++ [{ owner := .call k.desc.callId, chime := k.desc.chime
                                           left := chimeLength k.desc.chime }])
          ∧ (k.desc.chime = .noChime → p.phase = some .message ∧ u.chimes = sv.chimes
              ∧ ∀ n, k.desc.message = .liveMic n → p.micLeft = some (n * 1000)))
        ∧ (∀ z ∈ granted, (look u.zones z).carries c.who = true)
        ∧ (∀ z, z ∉ granted → look u.zones z = look sv.zones z)
        ∧ (∀ x ∈ sv.calls, x.desc.callId ≠ k.desc.callId → x ∈ u.calls)
        ∧ u.channels = sv.channels ∧ u.houses = sv.houses ∧ u.free = sv.free))
  ∧ (∀ (env : Env) (k : Call) (z : ZoneId) (sv : Services),
      let c := callClaim k.desc
      let apart := z ∈ k.desc.targets ∧ (look sv.zones z).carries c.who = false
        ∧ (look sv.zones z).stacks c.who = false
      (¬ apart → lateJoin env k z sv = sv)
      ∧ (apart → lateJoin env k z sv = (claim env z c sv).2 ∧ (lateJoin env k z sv).calls = sv.calls))

/-- The end of a chime: a call's in its chime phase begins the break of 400 ms, or ends the repetition
when there is no message to come; an admit chime's takes its claims from the lobby zones and writes
its results. A chime that does not sound ends nothing (log 2). -/
def Obligations.ChimesEnd : Prop :=
  ∀ (s : State), Still s →
    (∀ o, chimeSounds o s.svc = false → exec (.chimeEnd o) s = .next s)
    ∧ (∀ id k, chimeSounds (.call id) s.svc = true → findCall id s.svc = some k →
      k.state = .playing → k.phase = some .chime →
      (k.desc.message ≠ .noMessage → k.dropMessage = false →
        ∃ u : State, exec (.chimeEnd (.call id)) s = .next u.settled
          ∧ findCall id u.svc = some { k with phase := some .pause, breakLeft := some 400 }
          ∧ chimeSounds (.call id) u.svc = false ∧ u.svc.zones = s.svc.zones
          ∧ u.svc.slots = s.svc.slots ∧ u.svc.finished = s.svc.finished ∧ u.control = s.control
          ∧ u.cue = s.cue ∧ u.sup = s.sup)
      ∧ ((k.desc.message = .noMessage ∨ k.dropMessage = true) →
        ∃ u : State, exec (.chimeEnd (.call id)) s = .next u.settled ∧ RepetitionEnded k s u
          ∧ chimeSounds (.call id) u.svc = false))
    ∧ (∀ a, chimeSounds (.window a) s.svc = true →
      ∃ u : State, exec (.chimeEnd (.window a)) s = .next u.settled
        ∧ chimeSounds (.window a) u.svc = false
        ∧ (∀ z, (look u.svc.zones z).carries (.window a) = false
            ∧ (look u.svc.zones z).stacks (.window a) = false)
        ∧ (∀ w, (s.svc.houses.get a).record = some w → (u.svc.houses.get a).record
            = some { w with chimes := some (s.svc.houses.get a).chimes })
        ∧ (u.svc.houses.get a).state = (s.svc.houses.get a).state
        ∧ u.svc.slots = s.svc.slots ∧ u.svc.channels = s.svc.channels ∧ u.svc.calls = s.svc.calls
        ∧ u.control = s.control ∧ u.cue = s.cue ∧ u.sup = s.sup)

/-! ## Entrances -/

/-- A sensor event that finds the entrance sensed so already changes nothing. Otherwise the sensed
state follows; an entrance in use that opens while its house is SEALED latches OPENED-WHILE-SEALED and
raises ENTRANCE; its holding follows; and the last admission entrance to close in CLOSING seals the
house, the grace ended ALL-CLOSED. -/
def Obligations.SensorEventsAct : Prop :=
  ∀ (e : EntranceId) (o : Bool) (s : State), Still s →
    ((look s.svc.entrances e).sensed = (if o then .opened else .closed) →
      exec (.entranceSensorEvent e o) s = .next s)
    ∧ ((look s.svc.entrances e).sensed ≠ (if o then .opened else .closed) →
      ∃ u : State, exec (.entranceSensorEvent e o) s = .next u.settled
        ∧ (look u.svc.entrances e).sensed = (if o then .opened else .closed)
        ∧ (look u.svc.entrances e).leftOpen = (look s.svc.entrances e).leftOpen
        ∧ (∀ f, f ≠ e → (look u.svc.entrances f).sensed = (look s.svc.entrances f).sensed
            ∧ (look u.svc.entrances f).openedWhileSealed = (look s.svc.entrances f).openedWhileSealed
            ∧ (look u.svc.entrances f).leftOpen = (look s.svc.entrances f).leftOpen)
        ∧ ((look s.control.cfg.entrances e).auditorium = none →
            (look u.svc.entrances e).openedWhileSealed = (look s.svc.entrances e).openedWhileSealed
            ∧ (look u.svc.entrances e).holding = (look s.svc.entrances e).holding
            ∧ u.svc.zones = s.svc.zones ∧ u.svc.houses = s.svc.houses)
        ∧ (∀ a, (look s.control.cfg.entrances e).auditorium = some a →
            (look u.svc.entrances e).openedWhileSealed = ((look s.svc.entrances e).openedWhileSealed
              || (o && (s.svc.houses.get a).state == .sealed))
            ∧ (o = true → (s.svc.houses.get a).state = .sealed →
                u.svc.link.pendingKinds &&& 0x0100 = 0x0100)
            ∧ (look u.svc.entrances e).holding = holdsNow s.env e u.svc
            ∧ ((s.svc.houses.get a).state = .closing → notClosed s.env a u.svc = [] →
                (u.svc.houses.get a).state = .sealed ∧ (u.svc.houses.get a).graceLeft = none
                ∧ ∀ w, (s.svc.houses.get a).record = some w → (u.svc.houses.get a).record
                    = some { w with grace := .allClosed, leftOpen := [] })
            ∧ ((s.svc.houses.get a).state ≠ .closing ∨ notClosed s.env a u.svc ≠ [] →
                u.svc.houses = s.svc.houses))
        ∧ u.svc.slots = s.svc.slots ∧ u.svc.channels = s.svc.channels ∧ u.svc.calls.length
            = s.svc.calls.length
        ∧ u.control = s.control ∧ u.cue = s.cue ∧ u.sup = s.sup)

/-- HOUSE-CLOSE: another auditorium than 1 or 2 RANGE (in CONFIG too: log 66); in CONFIG, or with the
house not OPEN, STATE.
The house is SEALED, its lamps RED, its show clock RUNNING, from 0 with the flag, its longest gap
empty, its holdings judged, and a standing clip finishes its pass, or ends STOPPED when it does not
speak. -/
def Obligations.HouseCloseSeals : Prop :=
  ∀ (tag : Byte) (n : Nat) (flag : Bool) (s : State), Ready s →
    (n ≠ 1 → n ≠ 2 → exec (.houseClose tag n (some flag)) s
      = .next (answered tag .houseClose .range [] (taken tag .houseClose s)))
    ∧ (exec (.houseClose tag n none) s
      = .next (answered tag .houseClose .range [] (taken tag .houseClose s)))
    ∧ (∀ a, n = audNumber a → (s.control.running = false ∨ (s.svc.houses.get a).state ≠ .opened) →
      exec (.houseClose tag n (some flag)) s
        = .next (answered tag .houseClose .state [] (taken tag .houseClose s)))
    ∧ (∀ a, n = audNumber a → s.control.running = true → (s.svc.houses.get a).state = .opened →
      ∃ u : State, exec (.houseClose tag n (some flag)) s = .next u.settled
        ∧ u.svc.houses = s.svc.houses.set a { s.svc.houses.get a with state := .sealed }
        ∧ u.cue = s.cue.set a { s.cue.get a with
            clock := if flag then 0 else (s.cue.get a).clock, running := true }
        ∧ u.quiet = s.quiet.set a { s.quiet.get a with longestGap := none }
        ∧ (∀ e, (look s.control.cfg.entrances e).auditorium = some a →
            (look u.svc.entrances e).lamp = .red
            ∧ (look u.svc.entrances e).holding = holdsNow s.env e u.svc
            ∧ (look u.svc.entrances e).sensed = (look s.svc.entrances e).sensed)
        ∧ (∀ e, (look s.control.cfg.entrances e).auditorium ≠ some a →
            look u.svc.entrances e = look s.svc.entrances e)
        ∧ (∀ d k, (look s.control.cfg.channels d).auditorium = some a →
            (look s.svc.channels d).active = some k → k.standing = true →
            (k.state = .speaking →
              (look u.svc.channels d).active = some { k with finishing := true })
            ∧ (k.state ≠ .speaking → (look u.svc.channels d).active = none
              ∧ (look u.svc.channels d).mode = .scripted
              ∧ ∃ o, (look u.svc.channels d).lastOutcome = some o ∧ o.clipId = k.desc.clipId
                ∧ o.outcome = .stopped))
        ∧ (.reply tag .houseClose [[0x00]]) ∈ u.svc.link.tx
        ∧ u.svc.calls = s.svc.calls ∧ u.control = s.control ∧ u.sup = s.sup)

/-- HOUSE-OPEN: another auditorium than 1 or 2 RANGE (in CONFIG too: log 66); in CONFIG, or with the
house OPEN, STATE. The house is OPEN, its timers stopped, its admit chime silent, its lamps OFF, its
entrances hold nothing, its show clock is HELD; an open window is closed with HOUSE-OPEN and raises
WINDOW, a grace that runs ends HOUSE-OPEN. -/
def Obligations.HouseOpenOpens : Prop :=
  ∀ (tag : Byte) (n : Nat) (s : State), Ready s →
    (n ≠ 1 → n ≠ 2 → exec (.houseOpen tag n) s
      = .next (answered tag .houseOpen .range [] (taken tag .houseOpen s)))
    ∧ (∀ a, n = audNumber a → (s.control.running = false ∨ (s.svc.houses.get a).state = .opened) →
      exec (.houseOpen tag n) s
        = .next (answered tag .houseOpen .state [] (taken tag .houseOpen s)))
    ∧ (∀ a, n = audNumber a → s.control.running = true → (s.svc.houses.get a).state ≠ .opened →
      ∃ u : State, exec (.houseOpen tag n) s = .next u.settled
        ∧ (u.svc.houses.get a).state = .opened ∧ (u.svc.houses.get a).windowLeft = none
        ∧ (u.svc.houses.get a).graceLeft = none
        ∧ (∀ b, b ≠ a → u.svc.houses.get b = s.svc.houses.get b)
        ∧ u.cue = s.cue.set a { s.cue.get a with running := false } ∧ u.quiet = s.quiet
        ∧ (∀ e, (look s.control.cfg.entrances e).auditorium = some a →
            (look u.svc.entrances e).lamp = .off ∧ (look u.svc.entrances e).holding = false
            ∧ (look u.svc.entrances e).sensed = (look s.svc.entrances e).sensed)
        ∧ chimeSounds (.window a) u.svc = false
        ∧ (∀ w, (s.svc.houses.get a).state = .admitting → (s.svc.houses.get a).record = some w →
            u.svc.link.pendingKinds &&& 0x0080 = 0x0080
            ∧ ∃ x, (u.svc.houses.get a).record = some x ∧ x.number = w.number
              ∧ x.closed = some (s.cue.get a).clock ∧ x.closeReason = some .houseOpen)
        ∧ (∀ w, (s.svc.houses.get a).state = .closing → (s.svc.houses.get a).record = some w →
            ∃ x, (u.svc.houses.get a).record = some x ∧ x.number = w.number
              ∧ x.closed = w.closed ∧ x.grace = .houseOpen)
        ∧ (.reply tag .houseOpen [[0x00]]) ∈ u.svc.link.tx
        ∧ u.svc.slots = s.svc.slots ∧ u.svc.channels = s.svc.channels ∧ u.svc.calls = s.svc.calls
        ∧ u.control = s.control ∧ u.sup = s.sup)

/-- ADMIT-OPEN: another auditorium than 1 or 2, or a time that is neither 0 nor 5-300, RANGE; in
CONFIG, or with the house OPEN, STATE. From SEALED and CLOSING a new window opens; in ADMITTING the
timer restarts and the record takes the new time and flag, and nothing else changes. -/
def Obligations.AdmitOpenOpensAWindow : Prop :=
  ∀ (tag : Byte) (n sec : Nat) (m : Bool) (s : State), Ready s →
    let no (st : Status) := exec (.admitOpen tag n sec (some m)) s
      = .next (answered tag .admitOpen st [] (taken tag .admitOpen s))
    (((n ≠ 1 ∧ n ≠ 2) ∨ (sec ≠ 0 ∧ (sec < 5 ∨ 300 < sec))) → no .range)
    ∧ (exec (.admitOpen tag n sec none) s
      = .next (answered tag .admitOpen .range [] (taken tag .admitOpen s)))
    ∧ (∀ a, n = audNumber a → (sec = 0 ∨ (5 ≤ sec ∧ sec ≤ 300)) →
      let h := s.svc.houses.get a
      let time := if sec = 0 then (s.control.cfg.auditoria.get a).windowDefault else sec
      (s.control.running = false ∨ h.state = .opened → no .state)
      ∧ (s.control.running = true → h.state = .sealed ∨ h.state = .closing →
        ∃ u : State, exec (.admitOpen tag n sec (some m)) s = .next u.settled
          ∧ WindowOpened a sec m s u
          ∧ (.reply tag .admitOpen [0x00 :: 0x02 :: u16 time]) ∈ u.svc.link.tx)
      ∧ (s.control.running = true → h.state = .admitting →
        exec (.admitOpen tag n sec (some m)) s = .next (answered tag .admitOpen .ok (0x02 :: u16 time)
          { taken tag .admitOpen s with
            svc := { (taken tag .admitOpen s).svc with
              houses := s.svc.houses.set a
                { h with
                  windowLeft := some (time * 1000), closeOnMusic := m
                  record := h.record.map (fun w =>
                    { w with windowTime := time, closeOnMusic := m }) } } })))

/-- ADMIT-CLOSE: another auditorium than 1 or 2 RANGE (in CONFIG too: log 66); in CONFIG, or not in
ADMITTING, STATE; an open window closes with REQUEST and the new house state is the answer. The
window timer, run out, closes it with EXPIRED; with time left it changes nothing. The grace timer
ends CLOSING in SEALED, the grace ended EXPIRED, and every admission entrance that is not sensed
CLOSED latches LEFT-OPEN and raises ENTRANCE. Elsewhere the timers change nothing (log 2). -/
def Obligations.WindowsClose : Prop :=
  ∀ (tag : Byte) (n : Nat) (s : State),
    (Ready s → n ≠ 1 → n ≠ 2 → exec (.admitClose tag n) s
      = .next (answered tag .admitClose .range [] (taken tag .admitClose s)))
    ∧ (∀ a, Ready s → n = audNumber a →
      (s.control.running = false ∨ (s.svc.houses.get a).state ≠ .admitting →
        exec (.admitClose tag n) s
          = .next (answered tag .admitClose .state [] (taken tag .admitClose s)))
      ∧ (s.control.running = true → (s.svc.houses.get a).state = .admitting →
        ∃ u : State, exec (.admitClose tag n) s = .next u.settled ∧ WindowClosed a .request s u
          ∧ (.reply tag .admitClose [[0x00, if notClosed s.env a s.svc = [] then 1 else 3]])
              ∈ u.svc.link.tx))
    ∧ (∀ a, Still s →
      ((s.svc.houses.get a).state ≠ .admitting ∨ (s.svc.houses.get a).windowLeft ≠ some 0 →
        exec (.windowExpiry a) s = .next s)
      ∧ ((s.svc.houses.get a).state = .admitting → (s.svc.houses.get a).windowLeft = some 0 →
        ∃ u : State, exec (.windowExpiry a) s = .next u.settled ∧ WindowClosed a .expired s u)
      ∧ ((s.svc.houses.get a).state ≠ .closing → exec (.graceExpiry a) s = .next s)
      ∧ ((s.svc.houses.get a).state = .closing →
        let left := notClosed s.env a s.svc
        ∃ u : State, exec (.graceExpiry a) s = .next u.settled
          ∧ (u.svc.houses.get a).state = .sealed ∧ (u.svc.houses.get a).graceLeft = none
          ∧ (∀ w, (s.svc.houses.get a).record = some w →
              (u.svc.houses.get a).record = some { w with grace := .expired, leftOpen := left })
          ∧ (∀ e, (look u.svc.entrances e).leftOpen
              = ((look s.svc.entrances e).leftOpen || left.contains e))
          ∧ (left ≠ [] → u.svc.link.pendingKinds &&& 0x0100 = 0x0100)
          ∧ (∀ e, (look u.svc.entrances e).sensed = (look s.svc.entrances e).sensed
              ∧ (look u.svc.entrances e).openedWhileSealed
                = (look s.svc.entrances e).openedWhileSealed)
          ∧ u.svc.slots = s.svc.slots ∧ u.svc.channels = s.svc.channels ∧ u.control = s.control
          ∧ u.cue = s.cue ∧ u.sup = s.sup))

/-- ENTRANCE-CLEAR empties the fault latch of the entrance or entrances named, in RUN and in CONFIG,
and answers OK; it changes neither sensed state, lamp, holding, house state nor window record, and
raises no notice. Any other value is refused with RANGE. -/
def Obligations.EntranceClearEmptiesTheLatch : Prop :=
  ∀ (tag : Byte) (n : Nat) (s : State), Ready s →
    (11 < n → n ≠ 255 → exec (.entranceClear tag n) s
      = .next (answered tag .entranceClear .range [] (taken tag .entranceClear s)))
    ∧ (∀ e : EntranceId, n = e.val → exec (.entranceClear tag n) s
      = .next (answered tag .entranceClear .ok []
        { taken tag .entranceClear s with
          svc := { (taken tag .entranceClear s).svc with
            entrances := put s.svc.entrances e
              { look s.svc.entrances e with openedWhileSealed := false, leftOpen := false } } }))
    ∧ (n = 255 → exec (.entranceClear tag n) s
      = .next (answered tag .entranceClear .ok []
        { taken tag .entranceClear s with
          svc := { (taken tag .entranceClear s).svc with
            entrances := s.svc.entrances.map (fun x =>
              { x with openedWhileSealed := false, leftOpen := false }) } }))

/-! ## The console -/

/-- A console command, in EDITING, shows its result and a prompt: `s` a line for each auditorium, `z
n` and `m n` their two lines, each with the fields of R184 in its order, and `z n` a third with the
other fields of R23, a refusal its status alone, an argument above 65,535 a `?`. In another console
state the rows change nothing (the model's choice, log 15; the forms shown, log 40; seconds rounded
up, log 41; the third line of `z n`, and in `m n` R184's fields and not R46's others, log 45; the
bits of the fault latch, log 57; `g` with another auditorium in CONFIG, log 65). -/
def Obligations.ConsoleShowsResults : Prop :=
  ∀ (n m : Nat) (s : State), Still s →
    (s.console.state ≠ .editing → ∀ c ∈ [Instr.consoleStatus, .consoleZoneStatus n,
      .consoleModuleStatus n, .consoleTestStart n, .consoleTestStop n, .softCue n,
      .consoleAmpRead n m], exec c s = .next s)
    ∧ (s.console.state = .editing →
      exec .consoleStatus s = .next (shown [statusShown s .one, statusShown s .two] s)
      ∧ (65535 < n → ∀ c ∈ [Instr.consoleZoneStatus n, .consoleModuleStatus n, .consoleTestStart n,
          .consoleTestStop n, .softCue n, .consoleAmpRead n m], exec c s = .next (shown [[.text "?"]] s))
      ∧ (∀ z : ZoneId, n = z.val →
          exec (.consoleZoneStatus n) s = .next (shown [zoneShown s z, claimsShown s z, zoneRestShown s z] s))
      ∧ (19 < n → n ≤ 65535 → ∀ c ∈ [Instr.consoleZoneStatus n, .consoleTestStart n,
          .consoleTestStop n], exec c s = .next (shown [[.text "RANGE"]] s))
      ∧ (∀ k : ModuleId, n = k.val + 1 →
          exec (.consoleModuleStatus n) s = .next (shown (moduleShown s k) s))
      ∧ (n = 0 ∨ 12 < n → n ≤ 65535 → exec (.consoleModuleStatus n) s
          = .next (shown [[.text "RANGE"]] s))
      ∧ (n ≠ 1 → n ≠ 2 → n ≤ 65535 → exec (.softCue n) s = .next (shown [[.text "RANGE"]] s))
      ∧ (n = 0 ∨ 12 < n ∨ 15 < m → n ≤ 65535 → m ≤ 65535 → exec (.consoleAmpRead n m) s
          = .next (shown [[.text "RANGE"]] s)))

/-- What console commands do to the part, in EDITING: a test start or stop as from the link, for the
console's claimant (its own test stacked: log 52); `g a` in RUN an advance of origin CONSOLE, its
result shown, in CONFIG STATE; `r m w` a pass-through of the console, BUSY when one is pending. When
the pass-through ends, OK and the word, or NO-ANSWER, is shown with a prompt, a word 3 so read adds
its conditions to the latch and the carried faults, and the bus goes on (R38, R185).
The characters sent (R181, R182, R184): the banner line, the prompt, an echo, a rub-out, `$`, the
line end; a result line has its fields separated by single spaces, numbers in decimal, words as 0x
and four hexadecimal digits (capitals: log 40). -/
def Obligations.ConsoleCommandsAct : Prop :=
  (∀ (n m : Nat) (s : State), Still s → s.console.state = .editing →
    (∀ z : ZoneId, n = z.val → (look s.control.cfg.zones z).kind ≠ .unused →
      ((look s.svc.zones z).testConsole = none → exec (.consoleTestStop n) s
        = .next (shown [[.text "STATE"]] s))
      ∧ ((look s.svc.zones z).testConsole.isSome →
        ∃ u : State, exec (.consoleTestStop n) s = .next u.settled
          ∧ u.console = (shown [[.text "OK"]] s).console ∧ (look u.svc.zones z).testConsole = none
          ∧ (look u.svc.zones z).carries (.test .console) = false
          ∧ (∀ y, y ≠ z → look u.svc.zones y = look s.svc.zones y) ∧ u.svc.slots = s.svc.slots
          ∧ u.control = s.control ∧ u.cue = s.cue ∧ u.sup = s.sup)
      ∧ (s.control.running = true → (look s.svc.zones z).active ≠ none →
          (look s.svc.zones z).carries (.test .console) = false → exec (.consoleTestStart n) s
        = .next (shown [[.text "STATE"]] s))
      ∧ ((s.control.running = true → (look s.svc.zones z).active = none
            ∨ (look s.svc.zones z).carries (.test .console) = true) →
        ∃ u : State, exec (.consoleTestStart n) s = .next u.settled
          ∧ u.console = (shown [[.text "OK"]] s).console
          ∧ (look u.svc.zones z).active.map (·.who) = some (.test .console)
          ∧ (look u.svc.zones z).testConsole = some 600000
          ∧ (∀ y, y ≠ z → look u.svc.zones y = look s.svc.zones y) ∧ u.svc.slots = s.svc.slots
          ∧ u.control = s.control ∧ u.cue = s.cue ∧ u.sup = s.sup))
    ∧ (∀ z : ZoneId, n = z.val → (look s.control.cfg.zones z).kind = .unused →
      exec (.consoleTestStart n) s = .next (shown [[.text "RANGE"]] s)
      ∧ exec (.consoleTestStop n) s = .next (shown [[.text "RANGE"]] s))
    ∧ (∀ a, n = audNumber a →
      (s.control.running = false → exec (.softCue n) s = .next (shown [[.text "STATE"]] s))
      ∧ (s.control.running = true → (s.cue.get a).firing = none → (s.cue.get a).waiting = [] →
        ∃ u : State, exec (.softCue n) s = .next u.settled ∧ Advanced a .console s u
          ∧ u.console = (shown [[.text "OK", .number (advanceTo (s.cue.get a).position)]
              ++ firedFields s u a] s).console)
      ∧ (s.control.running = true → ((s.cue.get a).firing.isSome ∨ (s.cue.get a).waiting ≠ []) →
        8 ≤ (s.cue.get a).waiting.length → exec (.softCue n) s
          = .next (shown [[.text "FULL"]] s))
      ∧ (s.control.running = true → ((s.cue.get a).firing.isSome ∨ (s.cue.get a).waiting ≠ []) →
        (s.cue.get a).waiting.length < 8 → exec (.softCue n) s = .next { lineTaken s with
          cue := s.cue.set a
            { s.cue.get a with waiting := (s.cue.get a).waiting ++ [.advance .console] } }))
    ∧ (∀ k : ModuleId, n = k.val + 1 → m ≤ 15 →
      (s.sup.pass.isSome → exec (.consoleAmpRead n m) s = .next (shown [[.text "BUSY"]] s))
      ∧ (s.sup.pass = none → s.sup.bus.isSome → exec (.consoleAmpRead n m) s
        = .next { lineTaken s with sup := { s.sup with
          pass := some { asker := .console, module_ := k, word := m, value := none } } })
      ∧ (s.sup.pass = none → s.sup.bus = none → s.sup.protective = [] →
        exec (.consoleAmpRead n m) s = .next { lineTaken s with sup := { s.sup with
          pass := some { asker := .console, module_ := k, word := m, value := none }
          bus := some { user := .passThrough, module_ := k, word := m, value := none } } })))
  ∧ (∀ (v : Word16) (k : ModuleId) (w : Nat) (s : State), Still s →
      s.sup.bus = some { user := .passThrough, module_ := k, word := w, value := none } →
      s.sup.pass = some { asker := .console, module_ := k, word := w, value := none } →
      let r := look s.sup.modules k
      exec .busAnswerTimeout s = .next { resultShown [.text "NO-ANSWER"] s with
        sup := nextOnBus { s.sup with bus := none, pass := none } }
      ∧ (w ≠ 3 → exec (.busTransactionEnd v) s = .next { resultShown [.text "OK", .hex v] s with
          sup := nextOnBus { s.sup with bus := none, pass := none } })
      ∧ (w = 3 → exec (.busTransactionEnd v) s = .next { resultShown [.text "OK", .hex v] s with
          sup := nextOnBus { s.sup with
            bus := none, pass := none
            modules := put s.sup.modules k
              { r with
                latch := r.latch.union (wordFaults v)
                carried := r.carried.union (wordFaults v) } } }))
  ∧ (∀ (c : Byte) (n : Nat) (w : Word16) (f g : TextField) (more : List TextField) (k : Console),
      let digit (x : Nat) : Byte := BitVec.ofNat 8 ("0123456789ABCDEF".toList.getD x '?').toNat
      ConsoleText.banner.chars = [0x48, 0x58, 0x32, 0x34, 0x20, 0x63, 0x6F, 0x6E, 0x73, 0x6F, 0x6C, 0x65,
        0x0D, 0x0A]
      ∧ ConsoleText.prompt.chars = [0x3E, 0x20] ∧ (ConsoleText.echo c).chars = [c]
      ∧ ConsoleText.rubOut.chars = [0x08, 0x20, 0x08] ∧ ConsoleText.dollar.chars = [0x24]
      ∧ ConsoleText.lineEnd.chars = [0x0D, 0x0A]
      ∧ (ConsoleText.line [f]).chars = f.chars ++ [0x0D, 0x0A]
      ∧ (ConsoleText.line (f :: g :: more)).chars = f.chars ++ 0x20 :: (ConsoleText.line (g :: more)).chars
      ∧ (n < 10 → (TextField.number n).chars = [digit n])
      ∧ (10 ≤ n → (TextField.number n).chars = (TextField.number (n / 10 : Nat)).chars ++ [digit (n % 10)])
      ∧ (n ≠ 0 → (TextField.number (-n)).chars = 0x2D :: (TextField.number n).chars)
      ∧ (TextField.hex w).chars = [0x30, 0x78, digit (w.toNat / 4096), digit (w.toNat / 256 % 16),
          digit (w.toNat / 16 % 16), digit (w.toNat % 16)]
      ∧ k.terminal = (k.sent.map ConsoleText.chars).flatten)

/-- A character on the console line: SILENT starts its wait again; WAKING shows the banner and a
prompt and edits; EDITING echoes a printable character into a line of up to 40, `#` in an empty
line begins a comment, backspace rubs out the last, escape and rub-out the line, carriage return
ends the line: the command it spells, `?` when it spells none, a new prompt when it is empty;
COMMENT lasts to a carriage return, escape or rub-out; EXECUTING takes nothing. A framing error
drops the character, in COMMENT too (log 56). The end of the wait wakes a SILENT console and finds its
line at the stop level, and changes nothing in another state (log 2). In every state a break, a
character of zeros with a framing error, leaves the line off the stop level, any other character at
it (log 44). A byte of 0x80-0xFF in EDITING is ignored (log 50).
A line spells a command when its words, apart by spaces, are the command's letter and its arguments,
each of 1 to 5 digits and at most 65,535, the last of `t` 0 or 1 (R183). -/
def Obligations.ConsoleTakesCharacters : Prop :=
  (∀ (c : Byte) (s : State), Still s →
    let k := s.console
    let at_ (stop : Bool) : State := { s with pins := { s.pins with consoleStop := stop } }
    let x := at_ true
    (k.state = .silent → exec .consoleIdleExpiry s
      = .next { x with console := { k with state := .waking, idle := 0 } })
    ∧ (k.state ≠ .silent → exec .consoleIdleExpiry s = .next s
      ∧ exec (.consoleCharacter c true) s = .next (at_ (c != 0x00)))
    ∧ (k.state = .silent → ∀ f, exec (.consoleCharacter c f) s
      = .next { at_ (!(f && c == 0x00)) with console := { k with idle := 0 } })
    ∧ (k.state = .waking → exec (.consoleCharacter c false) s
      = .next { x with console :=
        { k with state := .editing, line := [], sent := k.sent ++ [.banner, .prompt] } })
    ∧ (k.state = .executing → exec (.consoleCharacter c false) s = .next x)
    ∧ (k.state = .comment →
      exec (.consoleCharacter c false) s = .next (if c = 0x0D ∨ c = 0x1B ∨ c = 0x7F then
        { x with console := { k with state := .editing, sent := k.sent ++ [.prompt] } } else x))
    ∧ (k.state = .editing →
      (k.line = [] → exec (.consoleCharacter 0x23 false) s
        = .next { x with console := { k with state := .comment } })
      ∧ (0x20 ≤ c.toNat → c.toNat ≤ 0x7E → ¬ (k.line = [] ∧ c = 0x23) →
        exec (.consoleCharacter c false) s = .next (if k.line.length < 40 then
          { x with console := { k with line := k.line ++ [c], sent := k.sent ++ [.echo c] } } else x))
      ∧ (c.toNat < 0x20 ∨ 0x7F < c.toNat → c ≠ 0x08 → c ≠ 0x0D → c ≠ 0x1B →
        exec (.consoleCharacter c false) s = .next x)
      ∧ (k.line = [] → exec (.consoleCharacter 0x08 false) s = .next x
        ∧ exec (.consoleCharacter 0x1B false) s = .next x
        ∧ exec (.consoleCharacter 0x7F false) s = .next x
        ∧ exec (.consoleCharacter 0x0D false) s
          = .next { x with console := { k with sent := k.sent ++ [.lineEnd, .prompt] } })
      ∧ (k.line ≠ [] → exec (.consoleCharacter 0x08 false) s
          = .next { x with console :=
            { k with line := k.line.dropLast, sent := k.sent ++ [.rubOut] } }
        ∧ (c = 0x1B ∨ c = 0x7F → exec (.consoleCharacter c false) s
          = .next { x with console :=
            { k with line := [], sent := k.sent ++ [.dollar, .lineEnd, .prompt] } })
        ∧ (parseLine k.line = none → exec (.consoleCharacter 0x0D false) s
          = .next (shown [[.text "?"]] x))
        ∧ (∀ cmd, parseLine k.line = some cmd →
          exec (.consoleCharacter 0x0D false) s = exec (rowOf cmd) x))))
  ∧ (∀ (line : List Byte) (cmd : ConsoleCommand), parseLine line = some cmd ↔ Spells line cmd)

/-! ## Invariants -/

/-- Every step keeps the block pool: each of the 4,096 blocks is free or held by one slot, an IDLE
slot holds none, and the free list covers the unfilled guarantees. -/
def Obligations.StepsKeepThePool : Prop :=
  ∀ s t : State, PoolRight s.svc → step s = .next t → PoolRight t.svc

/-- Every step keeps the bounds of the stacks, clip queues, call table, finished list, outstanding
list, immediate replies (log 55) and held lists; and, with the cue lists ascending, those of the cue
lists, the capture logs, the advances and jumps that wait and the console line. The hold counts of
R12 are not among them. -/
def Obligations.StepsKeepTheBounds : Prop :=
  (∀ s t : State, Bounded s.svc → step s = .next t → Bounded t.svc)
  ∧ (∀ s t : State, Lengths s.cue s.console → step s = .next t → Lengths t.cue t.console)

/-- Every step keeps the lamps with the house states, both houses OPEN in CONFIG, and the part in
CONFIG while a load is in progress or a reset holds. -/
def Obligations.StepsKeepTheLamps : Prop :=
  ∀ s t : State, LampsRight s → step s = .next t → LampsRight t

/-- Every step keeps the canonical form of the settings memory. -/
def Obligations.StepsKeepTheMemory : Prop :=
  ∀ s t : State, Memory.wf s.control.memory = true → step s = .next t →
    Memory.wf t.control.memory = true

/-- The record at an index, within its ranges and with its lists in ascending order, is read back from
its byte form as it was (the layout is the model's where the spec leaves it open, log 11, 12, 13, 58). -/
def Obligations.RecordsReadBack : Prop :=
  ∀ (i : Nat) (r : ConfigRecord), indexTakes i r = true → recordLegal r = true → ascending r →
    decodeRecord i (encodeRecord r) = some r
end

