-- ==== Sys2Proof/Laws/State.lean ====
section
/-! SUPPORT. One lemma per field per update of the state, true by rfl, so that no proof unfolds a
record update. -/

namespace Sys2Proof.Laws

open Sys2Proof.Machine

@[simp] theorem updLink_svc (s : State) (f : LinkPort → LinkPort) :
    (s.updLink f).svc = { s.svc with link := f s.svc.link } := rfl
@[simp] theorem updLink_sup (s : State) (f : LinkPort → LinkPort) : (s.updLink f).sup = s.sup := rfl
@[simp] theorem updLink_cue (s : State) (f : LinkPort → LinkPort) : (s.updLink f).cue = s.cue := rfl
@[simp] theorem updLink_quiet (s : State) (f : LinkPort → LinkPort) :
    (s.updLink f).quiet = s.quiet := rfl
@[simp] theorem updLink_console (s : State) (f : LinkPort → LinkPort) :
    (s.updLink f).console = s.console := rfl
@[simp] theorem updLink_control (s : State) (f : LinkPort → LinkPort) :
    (s.updLink f).control = s.control := rfl
@[simp] theorem updLink_pins (s : State) (f : LinkPort → LinkPort) :
    (s.updLink f).pins = s.pins := rfl
@[simp] theorem updLink_ovrSample (s : State) (f : LinkPort → LinkPort) :
    (s.updLink f).ovrSample = s.ovrSample := rfl
@[simp] theorem updLink_phase (s : State) (f : LinkPort → LinkPort) :
    (s.updLink f).phase = s.phase := rfl
@[simp] theorem updLink_pending (s : State) (f : LinkPort → LinkPort) :
    (s.updLink f).pending = s.pending := rfl

@[simp] theorem setCfg_svc (s : State) (c : Configuration) : (s.setCfg c).svc = s.svc := rfl
@[simp] theorem setCfg_sup (s : State) (c : Configuration) : (s.setCfg c).sup = s.sup := rfl
@[simp] theorem setCfg_cue (s : State) (c : Configuration) : (s.setCfg c).cue = s.cue := rfl
@[simp] theorem setCfg_quiet (s : State) (c : Configuration) : (s.setCfg c).quiet = s.quiet := rfl
@[simp] theorem setCfg_console (s : State) (c : Configuration) :
    (s.setCfg c).console = s.console := rfl
@[simp] theorem setCfg_control (s : State) (c : Configuration) :
    (s.setCfg c).control = { s.control with cfg := c } := rfl
@[simp] theorem setCfg_pins (s : State) (c : Configuration) : (s.setCfg c).pins = s.pins := rfl
@[simp] theorem setCfg_ovrSample (s : State) (c : Configuration) :
    (s.setCfg c).ovrSample = s.ovrSample := rfl
@[simp] theorem setCfg_phase (s : State) (c : Configuration) : (s.setCfg c).phase = s.phase := rfl
@[simp] theorem setCfg_pending (s : State) (c : Configuration) :
    (s.setCfg c).pending = s.pending := rfl

@[simp] theorem setSup_svc (s : State) (x : Supervisor) : (s.setSup x).svc = s.svc := rfl
@[simp] theorem setSup_sup (s : State) (x : Supervisor) : (s.setSup x).sup = x := rfl
@[simp] theorem setSup_cue (s : State) (x : Supervisor) : (s.setSup x).cue = s.cue := rfl
@[simp] theorem setSup_quiet (s : State) (x : Supervisor) : (s.setSup x).quiet = s.quiet := rfl
@[simp] theorem setSup_console (s : State) (x : Supervisor) :
    (s.setSup x).console = s.console := rfl
@[simp] theorem setSup_control (s : State) (x : Supervisor) :
    (s.setSup x).control = s.control := rfl
@[simp] theorem setSup_pins (s : State) (x : Supervisor) : (s.setSup x).pins = s.pins := rfl
@[simp] theorem setSup_ovrSample (s : State) (x : Supervisor) :
    (s.setSup x).ovrSample = s.ovrSample := rfl
@[simp] theorem setSup_phase (s : State) (x : Supervisor) : (s.setSup x).phase = s.phase := rfl
@[simp] theorem setSup_pending (s : State) (x : Supervisor) :
    (s.setSup x).pending = s.pending := rfl

@[simp] theorem serve_svc (s : State) (f : Env → Services → Services) :
    (s.serve f).svc = f s.env s.svc := rfl
@[simp] theorem serve_sup (s : State) (f : Env → Services → Services) :
    (s.serve f).sup = s.sup := rfl
@[simp] theorem serve_cue (s : State) (f : Env → Services → Services) :
    (s.serve f).cue = s.cue := rfl
@[simp] theorem serve_quiet (s : State) (f : Env → Services → Services) :
    (s.serve f).quiet = s.quiet := rfl
@[simp] theorem serve_console (s : State) (f : Env → Services → Services) :
    (s.serve f).console = s.console := rfl
@[simp] theorem serve_control (s : State) (f : Env → Services → Services) :
    (s.serve f).control = s.control := rfl
@[simp] theorem serve_pins (s : State) (f : Env → Services → Services) :
    (s.serve f).pins = s.pins := rfl
@[simp] theorem serve_ovrSample (s : State) (f : Env → Services → Services) :
    (s.serve f).ovrSample = s.ovrSample := rfl
@[simp] theorem serve_phase (s : State) (f : Env → Services → Services) :
    (s.serve f).phase = s.phase := rfl
@[simp] theorem serve_pending (s : State) (f : Env → Services → Services) :
    (s.serve f).pending = s.pending := rfl

@[simp] theorem updCue_svc (s : State) (a : Aud) (f : CueFollower → CueFollower) :
    (s.updCue a f).svc = s.svc := rfl
@[simp] theorem updCue_sup (s : State) (a : Aud) (f : CueFollower → CueFollower) :
    (s.updCue a f).sup = s.sup := rfl
@[simp] theorem updCue_cue (s : State) (a : Aud) (f : CueFollower → CueFollower) :
    (s.updCue a f).cue = updTwo s.cue a f := rfl
@[simp] theorem updCue_quiet (s : State) (a : Aud) (f : CueFollower → CueFollower) :
    (s.updCue a f).quiet = s.quiet := rfl
@[simp] theorem updCue_console (s : State) (a : Aud) (f : CueFollower → CueFollower) :
    (s.updCue a f).console = s.console := rfl
@[simp] theorem updCue_control (s : State) (a : Aud) (f : CueFollower → CueFollower) :
    (s.updCue a f).control = s.control := rfl
@[simp] theorem updCue_pins (s : State) (a : Aud) (f : CueFollower → CueFollower) :
    (s.updCue a f).pins = s.pins := rfl
@[simp] theorem updCue_ovrSample (s : State) (a : Aud) (f : CueFollower → CueFollower) :
    (s.updCue a f).ovrSample = s.ovrSample := rfl
@[simp] theorem updCue_phase (s : State) (a : Aud) (f : CueFollower → CueFollower) :
    (s.updCue a f).phase = s.phase := rfl
@[simp] theorem updCue_pending (s : State) (a : Aud) (f : CueFollower → CueFollower) :
    (s.updCue a f).pending = s.pending := rfl

@[simp] theorem updQuiet_svc (s : State) (a : Aud) (f : QuietDetector → QuietDetector) :
    (s.updQuiet a f).svc = s.svc := rfl
@[simp] theorem updQuiet_sup (s : State) (a : Aud) (f : QuietDetector → QuietDetector) :
    (s.updQuiet a f).sup = s.sup := rfl
@[simp] theorem updQuiet_cue (s : State) (a : Aud) (f : QuietDetector → QuietDetector) :
    (s.updQuiet a f).cue = s.cue := rfl
@[simp] theorem updQuiet_quiet (s : State) (a : Aud) (f : QuietDetector → QuietDetector) :
    (s.updQuiet a f).quiet = updTwo s.quiet a f := rfl
@[simp] theorem updQuiet_console (s : State) (a : Aud) (f : QuietDetector → QuietDetector) :
    (s.updQuiet a f).console = s.console := rfl
@[simp] theorem updQuiet_control (s : State) (a : Aud) (f : QuietDetector → QuietDetector) :
    (s.updQuiet a f).control = s.control := rfl
@[simp] theorem updQuiet_pins (s : State) (a : Aud) (f : QuietDetector → QuietDetector) :
    (s.updQuiet a f).pins = s.pins := rfl
@[simp] theorem updQuiet_ovrSample (s : State) (a : Aud) (f : QuietDetector → QuietDetector) :
    (s.updQuiet a f).ovrSample = s.ovrSample := rfl
@[simp] theorem updQuiet_phase (s : State) (a : Aud) (f : QuietDetector → QuietDetector) :
    (s.updQuiet a f).phase = s.phase := rfl
@[simp] theorem updQuiet_pending (s : State) (a : Aud) (f : QuietDetector → QuietDetector) :
    (s.updQuiet a f).pending = s.pending := rfl

@[simp] theorem updConsole_svc (s : State) (f : Console → Console) :
    (s.updConsole f).svc = s.svc := rfl
@[simp] theorem updConsole_sup (s : State) (f : Console → Console) :
    (s.updConsole f).sup = s.sup := rfl
@[simp] theorem updConsole_cue (s : State) (f : Console → Console) :
    (s.updConsole f).cue = s.cue := rfl
@[simp] theorem updConsole_quiet (s : State) (f : Console → Console) :
    (s.updConsole f).quiet = s.quiet := rfl
@[simp] theorem updConsole_console (s : State) (f : Console → Console) :
    (s.updConsole f).console = f s.console := rfl
@[simp] theorem updConsole_control (s : State) (f : Console → Console) :
    (s.updConsole f).control = s.control := rfl
@[simp] theorem updConsole_pins (s : State) (f : Console → Console) :
    (s.updConsole f).pins = s.pins := rfl
@[simp] theorem updConsole_ovrSample (s : State) (f : Console → Console) :
    (s.updConsole f).ovrSample = s.ovrSample := rfl
@[simp] theorem updConsole_phase (s : State) (f : Console → Console) :
    (s.updConsole f).phase = s.phase := rfl
@[simp] theorem updConsole_pending (s : State) (f : Console → Console) :
    (s.updConsole f).pending = s.pending := rfl

@[simp] theorem updControl_svc (s : State) (f : PartControl → PartControl) :
    (s.updControl f).svc = s.svc := rfl
@[simp] theorem updControl_sup (s : State) (f : PartControl → PartControl) :
    (s.updControl f).sup = s.sup := rfl
@[simp] theorem updControl_cue (s : State) (f : PartControl → PartControl) :
    (s.updControl f).cue = s.cue := rfl
@[simp] theorem updControl_quiet (s : State) (f : PartControl → PartControl) :
    (s.updControl f).quiet = s.quiet := rfl
@[simp] theorem updControl_console (s : State) (f : PartControl → PartControl) :
    (s.updControl f).console = s.console := rfl
@[simp] theorem updControl_control (s : State) (f : PartControl → PartControl) :
    (s.updControl f).control = f s.control := rfl
@[simp] theorem updControl_pins (s : State) (f : PartControl → PartControl) :
    (s.updControl f).pins = s.pins := rfl
@[simp] theorem updControl_ovrSample (s : State) (f : PartControl → PartControl) :
    (s.updControl f).ovrSample = s.ovrSample := rfl
@[simp] theorem updControl_phase (s : State) (f : PartControl → PartControl) :
    (s.updControl f).phase = s.phase := rfl
@[simp] theorem updControl_pending (s : State) (f : PartControl → PartControl) :
    (s.updControl f).pending = s.pending := rfl

@[simp] theorem setRunning_svc (s : State) (b : Bool) : (s.setRunning b).svc = s.svc := rfl
@[simp] theorem setRunning_sup (s : State) (b : Bool) : (s.setRunning b).sup = s.sup := rfl
@[simp] theorem setRunning_cue (s : State) (b : Bool) : (s.setRunning b).cue = s.cue := rfl
@[simp] theorem setRunning_quiet (s : State) (b : Bool) : (s.setRunning b).quiet = s.quiet := rfl
@[simp] theorem setRunning_console (s : State) (b : Bool) :
    (s.setRunning b).console = s.console := rfl
@[simp] theorem setRunning_control (s : State) (b : Bool) :
    (s.setRunning b).control = { s.control with running := b } := rfl
@[simp] theorem setRunning_pins (s : State) (b : Bool) : (s.setRunning b).pins = s.pins := rfl
@[simp] theorem setRunning_ovrSample (s : State) (b : Bool) :
    (s.setRunning b).ovrSample = s.ovrSample := rfl
@[simp] theorem setRunning_phase (s : State) (b : Bool) : (s.setRunning b).phase = s.phase := rfl
@[simp] theorem setRunning_pending (s : State) (b : Bool) :
    (s.setRunning b).pending = s.pending := rfl

@[simp] theorem updModule_svc (s : State) (m : ModuleId) (f : ModuleRecord → ModuleRecord) :
    (s.updModule m f).svc = s.svc := rfl
@[simp] theorem updModule_sup (s : State) (m : ModuleId) (f : ModuleRecord → ModuleRecord) :
    (s.updModule m f).sup = { s.sup with modules := put s.sup.modules m (f (look s.sup.modules m)) } := rfl
@[simp] theorem updModule_cue (s : State) (m : ModuleId) (f : ModuleRecord → ModuleRecord) :
    (s.updModule m f).cue = s.cue := rfl
@[simp] theorem updModule_quiet (s : State) (m : ModuleId) (f : ModuleRecord → ModuleRecord) :
    (s.updModule m f).quiet = s.quiet := rfl
@[simp] theorem updModule_console (s : State) (m : ModuleId) (f : ModuleRecord → ModuleRecord) :
    (s.updModule m f).console = s.console := rfl
@[simp] theorem updModule_control (s : State) (m : ModuleId) (f : ModuleRecord → ModuleRecord) :
    (s.updModule m f).control = s.control := rfl
@[simp] theorem updModule_pins (s : State) (m : ModuleId) (f : ModuleRecord → ModuleRecord) :
    (s.updModule m f).pins = s.pins := rfl
@[simp] theorem updModule_ovrSample (s : State) (m : ModuleId) (f : ModuleRecord → ModuleRecord) :
    (s.updModule m f).ovrSample = s.ovrSample := rfl
@[simp] theorem updModule_phase (s : State) (m : ModuleId) (f : ModuleRecord → ModuleRecord) :
    (s.updModule m f).phase = s.phase := rfl
@[simp] theorem updModule_pending (s : State) (m : ModuleId) (f : ModuleRecord → ModuleRecord) :
    (s.updModule m f).pending = s.pending := rfl

@[simp] theorem reply_svc (s : State) (tag : Byte) (kind : RequestKind) (ans : Answer) :
    (s.reply tag kind ans).svc = s.svc.reply tag kind ans := rfl
@[simp] theorem reply_sup (s : State) (tag : Byte) (kind : RequestKind) (ans : Answer) :
    (s.reply tag kind ans).sup = s.sup := rfl
@[simp] theorem reply_cue (s : State) (tag : Byte) (kind : RequestKind) (ans : Answer) :
    (s.reply tag kind ans).cue = s.cue := rfl
@[simp] theorem reply_quiet (s : State) (tag : Byte) (kind : RequestKind) (ans : Answer) :
    (s.reply tag kind ans).quiet = s.quiet := rfl
@[simp] theorem reply_console (s : State) (tag : Byte) (kind : RequestKind) (ans : Answer) :
    (s.reply tag kind ans).console = s.console := rfl
@[simp] theorem reply_control (s : State) (tag : Byte) (kind : RequestKind) (ans : Answer) :
    (s.reply tag kind ans).control = s.control := rfl
@[simp] theorem reply_pins (s : State) (tag : Byte) (kind : RequestKind) (ans : Answer) :
    (s.reply tag kind ans).pins = s.pins := rfl
@[simp] theorem reply_ovrSample (s : State) (tag : Byte) (kind : RequestKind) (ans : Answer) :
    (s.reply tag kind ans).ovrSample = s.ovrSample := rfl
@[simp] theorem reply_phase (s : State) (tag : Byte) (kind : RequestKind) (ans : Answer) :
    (s.reply tag kind ans).phase = s.phase := rfl
@[simp] theorem reply_pending (s : State) (tag : Byte) (kind : RequestKind) (ans : Answer) :
    (s.reply tag kind ans).pending = s.pending := rfl

@[simp] theorem show_svc (s : State) (lines : List (List TextField)) :
    (s.show lines).svc = s.svc := rfl
@[simp] theorem show_sup (s : State) (lines : List (List TextField)) :
    (s.show lines).sup = s.sup := rfl
@[simp] theorem show_cue (s : State) (lines : List (List TextField)) :
    (s.show lines).cue = s.cue := rfl
@[simp] theorem show_quiet (s : State) (lines : List (List TextField)) :
    (s.show lines).quiet = s.quiet := rfl
@[simp] theorem show_console (s : State) (lines : List (List TextField)) :
    (s.show lines).console = s.console.answer lines := rfl
@[simp] theorem show_control (s : State) (lines : List (List TextField)) :
    (s.show lines).control = s.control := rfl
@[simp] theorem show_pins (s : State) (lines : List (List TextField)) :
    (s.show lines).pins = s.pins := rfl
@[simp] theorem show_ovrSample (s : State) (lines : List (List TextField)) :
    (s.show lines).ovrSample = s.ovrSample := rfl
@[simp] theorem show_phase (s : State) (lines : List (List TextField)) :
    (s.show lines).phase = s.phase := rfl
@[simp] theorem show_pending (s : State) (lines : List (List TextField)) :
    (s.show lines).pending = s.pending := rfl

@[simp] theorem setVisit_svc (s : State) (v : Visit) : (s.setVisit v).svc = s.svc := rfl
@[simp] theorem setVisit_sup (s : State) (v : Visit) :
    (s.setVisit v).sup = { s.sup with poll := .visit v } := rfl
@[simp] theorem setVisit_cue (s : State) (v : Visit) : (s.setVisit v).cue = s.cue := rfl
@[simp] theorem setVisit_quiet (s : State) (v : Visit) : (s.setVisit v).quiet = s.quiet := rfl
@[simp] theorem setVisit_console (s : State) (v : Visit) : (s.setVisit v).console = s.console := rfl
@[simp] theorem setVisit_control (s : State) (v : Visit) : (s.setVisit v).control = s.control := rfl
@[simp] theorem setVisit_pins (s : State) (v : Visit) : (s.setVisit v).pins = s.pins := rfl
@[simp] theorem setVisit_ovrSample (s : State) (v : Visit) :
    (s.setVisit v).ovrSample = s.ovrSample := rfl
@[simp] theorem setVisit_phase (s : State) (v : Visit) : (s.setVisit v).phase = s.phase := rfl
@[simp] theorem setVisit_pending (s : State) (v : Visit) : (s.setVisit v).pending = s.pending := rfl

@[simp] theorem protect_svc (s : State) (m : ModuleId) (b : Bool) :
    (s.protect m b).svc = s.svc := rfl
@[simp] theorem protect_sup (s : State) (m : ModuleId) (b : Bool) :
    (s.protect m b).sup = { s.sup with protective := queueProtective m b s.sup.protective } := rfl
@[simp] theorem protect_cue (s : State) (m : ModuleId) (b : Bool) :
    (s.protect m b).cue = s.cue := rfl
@[simp] theorem protect_quiet (s : State) (m : ModuleId) (b : Bool) :
    (s.protect m b).quiet = s.quiet := rfl
@[simp] theorem protect_console (s : State) (m : ModuleId) (b : Bool) :
    (s.protect m b).console = s.console := rfl
@[simp] theorem protect_control (s : State) (m : ModuleId) (b : Bool) :
    (s.protect m b).control = s.control := rfl
@[simp] theorem protect_pins (s : State) (m : ModuleId) (b : Bool) :
    (s.protect m b).pins = s.pins := rfl
@[simp] theorem protect_ovrSample (s : State) (m : ModuleId) (b : Bool) :
    (s.protect m b).ovrSample = s.ovrSample := rfl
@[simp] theorem protect_phase (s : State) (m : ModuleId) (b : Bool) :
    (s.protect m b).phase = s.phase := rfl
@[simp] theorem protect_pending (s : State) (m : ModuleId) (b : Bool) :
    (s.protect m b).pending = s.pending := rfl

@[simp] theorem settled_svc (s : State) : s.settled.svc = settle s.env s.svc := rfl
@[simp] theorem settled_sup (s : State) : s.settled.sup = s.sup := rfl
@[simp] theorem settled_cue (s : State) : s.settled.cue = s.cue := rfl
@[simp] theorem settled_quiet (s : State) : s.settled.quiet = s.quiet := rfl
@[simp] theorem settled_console (s : State) : s.settled.console = s.console := rfl
@[simp] theorem settled_control (s : State) : s.settled.control = s.control := rfl
@[simp] theorem settled_pins (s : State) : s.settled.pins = s.pins := rfl
@[simp] theorem settled_ovrSample (s : State) : s.settled.ovrSample = s.ovrSample := rfl
@[simp] theorem settled_phase (s : State) : s.settled.phase = s.phase := rfl
@[simp] theorem settled_pending (s : State) : s.settled.pending = s.pending := rfl

@[simp] theorem joinList_svc (s : State) (tag : Byte) (kind : RequestKind) :
    (joinList tag kind s).svc = { s.svc with link := { s.svc.link with outstanding := s.svc.link.outstanding ++ [{ tag := tag, kind := kind }] } } := rfl
@[simp] theorem joinList_sup (s : State) (tag : Byte) (kind : RequestKind) :
    (joinList tag kind s).sup = s.sup := rfl
@[simp] theorem joinList_cue (s : State) (tag : Byte) (kind : RequestKind) :
    (joinList tag kind s).cue = s.cue := rfl
@[simp] theorem joinList_quiet (s : State) (tag : Byte) (kind : RequestKind) :
    (joinList tag kind s).quiet = s.quiet := rfl
@[simp] theorem joinList_console (s : State) (tag : Byte) (kind : RequestKind) :
    (joinList tag kind s).console = s.console := rfl
@[simp] theorem joinList_control (s : State) (tag : Byte) (kind : RequestKind) :
    (joinList tag kind s).control = s.control := rfl
@[simp] theorem joinList_pins (s : State) (tag : Byte) (kind : RequestKind) :
    (joinList tag kind s).pins = s.pins := rfl
@[simp] theorem joinList_ovrSample (s : State) (tag : Byte) (kind : RequestKind) :
    (joinList tag kind s).ovrSample = s.ovrSample := rfl
@[simp] theorem joinList_phase (s : State) (tag : Byte) (kind : RequestKind) :
    (joinList tag kind s).phase = s.phase := rfl
@[simp] theorem joinList_pending (s : State) (tag : Byte) (kind : RequestKind) :
    (joinList tag kind s).pending = s.pending := rfl

@[simp] theorem putZone_zones (sv : Services) (z : ZoneId) (r : ZoneRecord) :
    (putZone z r sv).zones = put sv.zones z r := rfl
@[simp] theorem putZone_override (sv : Services) (z : ZoneId) (r : ZoneRecord) :
    (putZone z r sv).override = sv.override := rfl
@[simp] theorem putZone_free (sv : Services) (z : ZoneId) (r : ZoneRecord) :
    (putZone z r sv).free = sv.free := rfl
@[simp] theorem putZone_slots (sv : Services) (z : ZoneId) (r : ZoneRecord) :
    (putZone z r sv).slots = sv.slots := rfl
@[simp] theorem putZone_channels (sv : Services) (z : ZoneId) (r : ZoneRecord) :
    (putZone z r sv).channels = sv.channels := rfl
@[simp] theorem putZone_keyA (sv : Services) (z : ZoneId) (r : ZoneRecord) :
    (putZone z r sv).keyA = sv.keyA := rfl
@[simp] theorem putZone_keyB (sv : Services) (z : ZoneId) (r : ZoneRecord) :
    (putZone z r sv).keyB = sv.keyB := rfl
@[simp] theorem putZone_calls (sv : Services) (z : ZoneId) (r : ZoneRecord) :
    (putZone z r sv).calls = sv.calls := rfl
@[simp] theorem putZone_finished (sv : Services) (z : ZoneId) (r : ZoneRecord) :
    (putZone z r sv).finished = sv.finished := rfl
@[simp] theorem putZone_callClock (sv : Services) (z : ZoneId) (r : ZoneRecord) :
    (putZone z r sv).callClock = sv.callClock := rfl
@[simp] theorem putZone_chimes (sv : Services) (z : ZoneId) (r : ZoneRecord) :
    (putZone z r sv).chimes = sv.chimes := rfl
@[simp] theorem putZone_walkDue (sv : Services) (z : ZoneId) (r : ZoneRecord) :
    (putZone z r sv).walkDue = sv.walkDue := rfl
@[simp] theorem putZone_walkZones (sv : Services) (z : ZoneId) (r : ZoneRecord) :
    (putZone z r sv).walkZones = sv.walkZones := rfl
@[simp] theorem putZone_houses (sv : Services) (z : ZoneId) (r : ZoneRecord) :
    (putZone z r sv).houses = sv.houses := rfl
@[simp] theorem putZone_entrances (sv : Services) (z : ZoneId) (r : ZoneRecord) :
    (putZone z r sv).entrances = sv.entrances := rfl
@[simp] theorem putZone_link (sv : Services) (z : ZoneId) (r : ZoneRecord) :
    (putZone z r sv).link = sv.link := rfl
@[simp] theorem putZone_reports (sv : Services) (z : ZoneId) (r : ZoneRecord) :
    (putZone z r sv).reports = sv.reports := rfl

@[simp] theorem putChannel_zones (sv : Services) (d : ChannelId) (c : Channel) :
    (putChannel d c sv).zones = sv.zones := rfl
@[simp] theorem putChannel_override (sv : Services) (d : ChannelId) (c : Channel) :
    (putChannel d c sv).override = sv.override := rfl
@[simp] theorem putChannel_free (sv : Services) (d : ChannelId) (c : Channel) :
    (putChannel d c sv).free = sv.free := rfl
@[simp] theorem putChannel_slots (sv : Services) (d : ChannelId) (c : Channel) :
    (putChannel d c sv).slots = sv.slots := rfl
@[simp] theorem putChannel_channels (sv : Services) (d : ChannelId) (c : Channel) :
    (putChannel d c sv).channels = put sv.channels d c := rfl
@[simp] theorem putChannel_keyA (sv : Services) (d : ChannelId) (c : Channel) :
    (putChannel d c sv).keyA = sv.keyA := rfl
@[simp] theorem putChannel_keyB (sv : Services) (d : ChannelId) (c : Channel) :
    (putChannel d c sv).keyB = sv.keyB := rfl
@[simp] theorem putChannel_calls (sv : Services) (d : ChannelId) (c : Channel) :
    (putChannel d c sv).calls = sv.calls := rfl
@[simp] theorem putChannel_finished (sv : Services) (d : ChannelId) (c : Channel) :
    (putChannel d c sv).finished = sv.finished := rfl
@[simp] theorem putChannel_callClock (sv : Services) (d : ChannelId) (c : Channel) :
    (putChannel d c sv).callClock = sv.callClock := rfl
@[simp] theorem putChannel_chimes (sv : Services) (d : ChannelId) (c : Channel) :
    (putChannel d c sv).chimes = sv.chimes := rfl
@[simp] theorem putChannel_walkDue (sv : Services) (d : ChannelId) (c : Channel) :
    (putChannel d c sv).walkDue = sv.walkDue := rfl
@[simp] theorem putChannel_walkZones (sv : Services) (d : ChannelId) (c : Channel) :
    (putChannel d c sv).walkZones = sv.walkZones := rfl
@[simp] theorem putChannel_houses (sv : Services) (d : ChannelId) (c : Channel) :
    (putChannel d c sv).houses = sv.houses := rfl
@[simp] theorem putChannel_entrances (sv : Services) (d : ChannelId) (c : Channel) :
    (putChannel d c sv).entrances = sv.entrances := rfl
@[simp] theorem putChannel_link (sv : Services) (d : ChannelId) (c : Channel) :
    (putChannel d c sv).link = sv.link := rfl
@[simp] theorem putChannel_reports (sv : Services) (d : ChannelId) (c : Channel) :
    (putChannel d c sv).reports = sv.reports := rfl

@[simp] theorem putEntrance_zones (sv : Services) (e : EntranceId) (x : Entrance) :
    (putEntrance e x sv).zones = sv.zones := rfl
@[simp] theorem putEntrance_override (sv : Services) (e : EntranceId) (x : Entrance) :
    (putEntrance e x sv).override = sv.override := rfl
@[simp] theorem putEntrance_free (sv : Services) (e : EntranceId) (x : Entrance) :
    (putEntrance e x sv).free = sv.free := rfl
@[simp] theorem putEntrance_slots (sv : Services) (e : EntranceId) (x : Entrance) :
    (putEntrance e x sv).slots = sv.slots := rfl
@[simp] theorem putEntrance_channels (sv : Services) (e : EntranceId) (x : Entrance) :
    (putEntrance e x sv).channels = sv.channels := rfl
@[simp] theorem putEntrance_keyA (sv : Services) (e : EntranceId) (x : Entrance) :
    (putEntrance e x sv).keyA = sv.keyA := rfl
@[simp] theorem putEntrance_keyB (sv : Services) (e : EntranceId) (x : Entrance) :
    (putEntrance e x sv).keyB = sv.keyB := rfl
@[simp] theorem putEntrance_calls (sv : Services) (e : EntranceId) (x : Entrance) :
    (putEntrance e x sv).calls = sv.calls := rfl
@[simp] theorem putEntrance_finished (sv : Services) (e : EntranceId) (x : Entrance) :
    (putEntrance e x sv).finished = sv.finished := rfl
@[simp] theorem putEntrance_callClock (sv : Services) (e : EntranceId) (x : Entrance) :
    (putEntrance e x sv).callClock = sv.callClock := rfl
@[simp] theorem putEntrance_chimes (sv : Services) (e : EntranceId) (x : Entrance) :
    (putEntrance e x sv).chimes = sv.chimes := rfl
@[simp] theorem putEntrance_walkDue (sv : Services) (e : EntranceId) (x : Entrance) :
    (putEntrance e x sv).walkDue = sv.walkDue := rfl
@[simp] theorem putEntrance_walkZones (sv : Services) (e : EntranceId) (x : Entrance) :
    (putEntrance e x sv).walkZones = sv.walkZones := rfl
@[simp] theorem putEntrance_houses (sv : Services) (e : EntranceId) (x : Entrance) :
    (putEntrance e x sv).houses = sv.houses := rfl
@[simp] theorem putEntrance_entrances (sv : Services) (e : EntranceId) (x : Entrance) :
    (putEntrance e x sv).entrances = put sv.entrances e x := rfl
@[simp] theorem putEntrance_link (sv : Services) (e : EntranceId) (x : Entrance) :
    (putEntrance e x sv).link = sv.link := rfl
@[simp] theorem putEntrance_reports (sv : Services) (e : EntranceId) (x : Entrance) :
    (putEntrance e x sv).reports = sv.reports := rfl

@[simp] theorem updHouse_zones (sv : Services) (a : Aud) (f : House → House) :
    (updHouse a f sv).zones = sv.zones := rfl
@[simp] theorem updHouse_override (sv : Services) (a : Aud) (f : House → House) :
    (updHouse a f sv).override = sv.override := rfl
@[simp] theorem updHouse_free (sv : Services) (a : Aud) (f : House → House) :
    (updHouse a f sv).free = sv.free := rfl
@[simp] theorem updHouse_slots (sv : Services) (a : Aud) (f : House → House) :
    (updHouse a f sv).slots = sv.slots := rfl
@[simp] theorem updHouse_channels (sv : Services) (a : Aud) (f : House → House) :
    (updHouse a f sv).channels = sv.channels := rfl
@[simp] theorem updHouse_keyA (sv : Services) (a : Aud) (f : House → House) :
    (updHouse a f sv).keyA = sv.keyA := rfl
@[simp] theorem updHouse_keyB (sv : Services) (a : Aud) (f : House → House) :
    (updHouse a f sv).keyB = sv.keyB := rfl
@[simp] theorem updHouse_calls (sv : Services) (a : Aud) (f : House → House) :
    (updHouse a f sv).calls = sv.calls := rfl
@[simp] theorem updHouse_finished (sv : Services) (a : Aud) (f : House → House) :
    (updHouse a f sv).finished = sv.finished := rfl
@[simp] theorem updHouse_callClock (sv : Services) (a : Aud) (f : House → House) :
    (updHouse a f sv).callClock = sv.callClock := rfl
@[simp] theorem updHouse_chimes (sv : Services) (a : Aud) (f : House → House) :
    (updHouse a f sv).chimes = sv.chimes := rfl
@[simp] theorem updHouse_walkDue (sv : Services) (a : Aud) (f : House → House) :
    (updHouse a f sv).walkDue = sv.walkDue := rfl
@[simp] theorem updHouse_walkZones (sv : Services) (a : Aud) (f : House → House) :
    (updHouse a f sv).walkZones = sv.walkZones := rfl
@[simp] theorem updHouse_houses (sv : Services) (a : Aud) (f : House → House) :
    (updHouse a f sv).houses = updTwo sv.houses a f := rfl
@[simp] theorem updHouse_entrances (sv : Services) (a : Aud) (f : House → House) :
    (updHouse a f sv).entrances = sv.entrances := rfl
@[simp] theorem updHouse_link (sv : Services) (a : Aud) (f : House → House) :
    (updHouse a f sv).link = sv.link := rfl
@[simp] theorem updHouse_reports (sv : Services) (a : Aud) (f : House → House) :
    (updHouse a f sv).reports = sv.reports := rfl

@[simp] theorem updCall_zones (sv : Services) (id : Nat) (f : Call → Call) :
    (updCall id f sv).zones = sv.zones := rfl
@[simp] theorem updCall_override (sv : Services) (id : Nat) (f : Call → Call) :
    (updCall id f sv).override = sv.override := rfl
@[simp] theorem updCall_free (sv : Services) (id : Nat) (f : Call → Call) :
    (updCall id f sv).free = sv.free := rfl
@[simp] theorem updCall_slots (sv : Services) (id : Nat) (f : Call → Call) :
    (updCall id f sv).slots = sv.slots := rfl
@[simp] theorem updCall_channels (sv : Services) (id : Nat) (f : Call → Call) :
    (updCall id f sv).channels = sv.channels := rfl
@[simp] theorem updCall_keyA (sv : Services) (id : Nat) (f : Call → Call) :
    (updCall id f sv).keyA = sv.keyA := rfl
@[simp] theorem updCall_keyB (sv : Services) (id : Nat) (f : Call → Call) :
    (updCall id f sv).keyB = sv.keyB := rfl
@[simp] theorem updCall_calls (sv : Services) (id : Nat) (f : Call → Call) :
    (updCall id f sv).calls = sv.calls.map (fun k => if k.desc.callId = id then f k else k) := rfl
@[simp] theorem updCall_finished (sv : Services) (id : Nat) (f : Call → Call) :
    (updCall id f sv).finished = sv.finished := rfl
@[simp] theorem updCall_callClock (sv : Services) (id : Nat) (f : Call → Call) :
    (updCall id f sv).callClock = sv.callClock := rfl
@[simp] theorem updCall_chimes (sv : Services) (id : Nat) (f : Call → Call) :
    (updCall id f sv).chimes = sv.chimes := rfl
@[simp] theorem updCall_walkDue (sv : Services) (id : Nat) (f : Call → Call) :
    (updCall id f sv).walkDue = sv.walkDue := rfl
@[simp] theorem updCall_walkZones (sv : Services) (id : Nat) (f : Call → Call) :
    (updCall id f sv).walkZones = sv.walkZones := rfl
@[simp] theorem updCall_houses (sv : Services) (id : Nat) (f : Call → Call) :
    (updCall id f sv).houses = sv.houses := rfl
@[simp] theorem updCall_entrances (sv : Services) (id : Nat) (f : Call → Call) :
    (updCall id f sv).entrances = sv.entrances := rfl
@[simp] theorem updCall_link (sv : Services) (id : Nat) (f : Call → Call) :
    (updCall id f sv).link = sv.link := rfl
@[simp] theorem updCall_reports (sv : Services) (id : Nat) (f : Call → Call) :
    (updCall id f sv).reports = sv.reports := rfl

@[simp] theorem oweWalk_zones (sv : Services) : (oweWalk sv).zones = sv.zones := rfl
@[simp] theorem oweWalk_override (sv : Services) : (oweWalk sv).override = sv.override := rfl
@[simp] theorem oweWalk_free (sv : Services) : (oweWalk sv).free = sv.free := rfl
@[simp] theorem oweWalk_slots (sv : Services) : (oweWalk sv).slots = sv.slots := rfl
@[simp] theorem oweWalk_channels (sv : Services) : (oweWalk sv).channels = sv.channels := rfl
@[simp] theorem oweWalk_keyA (sv : Services) : (oweWalk sv).keyA = sv.keyA := rfl
@[simp] theorem oweWalk_keyB (sv : Services) : (oweWalk sv).keyB = sv.keyB := rfl
@[simp] theorem oweWalk_calls (sv : Services) : (oweWalk sv).calls = sv.calls := rfl
@[simp] theorem oweWalk_finished (sv : Services) : (oweWalk sv).finished = sv.finished := rfl
@[simp] theorem oweWalk_callClock (sv : Services) : (oweWalk sv).callClock = sv.callClock := rfl
@[simp] theorem oweWalk_chimes (sv : Services) : (oweWalk sv).chimes = sv.chimes := rfl
@[simp] theorem oweWalk_walkDue (sv : Services) : (oweWalk sv).walkDue = true := rfl
@[simp] theorem oweWalk_walkZones (sv : Services) : (oweWalk sv).walkZones = sv.walkZones := rfl
@[simp] theorem oweWalk_houses (sv : Services) : (oweWalk sv).houses = sv.houses := rfl
@[simp] theorem oweWalk_entrances (sv : Services) : (oweWalk sv).entrances = sv.entrances := rfl
@[simp] theorem oweWalk_link (sv : Services) : (oweWalk sv).link = sv.link := rfl
@[simp] theorem oweWalk_reports (sv : Services) : (oweWalk sv).reports = sv.reports := rfl

@[simp] theorem report_zones (sv : Services) (r : Report) : (sv.report r).zones = sv.zones := rfl
@[simp] theorem report_override (sv : Services) (r : Report) :
    (sv.report r).override = sv.override := rfl
@[simp] theorem report_free (sv : Services) (r : Report) : (sv.report r).free = sv.free := rfl
@[simp] theorem report_slots (sv : Services) (r : Report) : (sv.report r).slots = sv.slots := rfl
@[simp] theorem report_channels (sv : Services) (r : Report) :
    (sv.report r).channels = sv.channels := rfl
@[simp] theorem report_keyA (sv : Services) (r : Report) : (sv.report r).keyA = sv.keyA := rfl
@[simp] theorem report_keyB (sv : Services) (r : Report) : (sv.report r).keyB = sv.keyB := rfl
@[simp] theorem report_calls (sv : Services) (r : Report) : (sv.report r).calls = sv.calls := rfl
@[simp] theorem report_finished (sv : Services) (r : Report) :
    (sv.report r).finished = sv.finished := rfl
@[simp] theorem report_callClock (sv : Services) (r : Report) :
    (sv.report r).callClock = sv.callClock := rfl
@[simp] theorem report_chimes (sv : Services) (r : Report) : (sv.report r).chimes = sv.chimes := rfl
@[simp] theorem report_walkDue (sv : Services) (r : Report) :
    (sv.report r).walkDue = sv.walkDue := rfl
@[simp] theorem report_walkZones (sv : Services) (r : Report) :
    (sv.report r).walkZones = sv.walkZones := rfl
@[simp] theorem report_houses (sv : Services) (r : Report) : (sv.report r).houses = sv.houses := rfl
@[simp] theorem report_entrances (sv : Services) (r : Report) :
    (sv.report r).entrances = sv.entrances := rfl
@[simp] theorem report_link (sv : Services) (r : Report) : (sv.report r).link = sv.link := rfl
@[simp] theorem report_reports (sv : Services) (r : Report) :
    (sv.report r).reports = sv.reports ++ [r] := rfl

@[simp] theorem setLink_zones (sv : Services) (l : LinkPort) :
    (sv.setLink l).zones = sv.zones := rfl
@[simp] theorem setLink_override (sv : Services) (l : LinkPort) :
    (sv.setLink l).override = sv.override := rfl
@[simp] theorem setLink_free (sv : Services) (l : LinkPort) : (sv.setLink l).free = sv.free := rfl
@[simp] theorem setLink_slots (sv : Services) (l : LinkPort) :
    (sv.setLink l).slots = sv.slots := rfl
@[simp] theorem setLink_channels (sv : Services) (l : LinkPort) :
    (sv.setLink l).channels = sv.channels := rfl
@[simp] theorem setLink_keyA (sv : Services) (l : LinkPort) : (sv.setLink l).keyA = sv.keyA := rfl
@[simp] theorem setLink_keyB (sv : Services) (l : LinkPort) : (sv.setLink l).keyB = sv.keyB := rfl
@[simp] theorem setLink_calls (sv : Services) (l : LinkPort) :
    (sv.setLink l).calls = sv.calls := rfl
@[simp] theorem setLink_finished (sv : Services) (l : LinkPort) :
    (sv.setLink l).finished = sv.finished := rfl
@[simp] theorem setLink_callClock (sv : Services) (l : LinkPort) :
    (sv.setLink l).callClock = sv.callClock := rfl
@[simp] theorem setLink_chimes (sv : Services) (l : LinkPort) :
    (sv.setLink l).chimes = sv.chimes := rfl
@[simp] theorem setLink_walkDue (sv : Services) (l : LinkPort) :
    (sv.setLink l).walkDue = sv.walkDue := rfl
@[simp] theorem setLink_walkZones (sv : Services) (l : LinkPort) :
    (sv.setLink l).walkZones = sv.walkZones := rfl
@[simp] theorem setLink_houses (sv : Services) (l : LinkPort) :
    (sv.setLink l).houses = sv.houses := rfl
@[simp] theorem setLink_entrances (sv : Services) (l : LinkPort) :
    (sv.setLink l).entrances = sv.entrances := rfl
@[simp] theorem setLink_link (sv : Services) (l : LinkPort) : (sv.setLink l).link = l := rfl
@[simp] theorem setLink_reports (sv : Services) (l : LinkPort) :
    (sv.setLink l).reports = sv.reports := rfl

@[simp] theorem raise_zones (sv : Services) (env : Env) (k : NoticeKind) :
    (raise env k sv).zones = sv.zones := rfl
@[simp] theorem raise_override (sv : Services) (env : Env) (k : NoticeKind) :
    (raise env k sv).override = sv.override := rfl
@[simp] theorem raise_free (sv : Services) (env : Env) (k : NoticeKind) :
    (raise env k sv).free = sv.free := rfl
@[simp] theorem raise_slots (sv : Services) (env : Env) (k : NoticeKind) :
    (raise env k sv).slots = sv.slots := rfl
@[simp] theorem raise_channels (sv : Services) (env : Env) (k : NoticeKind) :
    (raise env k sv).channels = sv.channels := rfl
@[simp] theorem raise_keyA (sv : Services) (env : Env) (k : NoticeKind) :
    (raise env k sv).keyA = sv.keyA := rfl
@[simp] theorem raise_keyB (sv : Services) (env : Env) (k : NoticeKind) :
    (raise env k sv).keyB = sv.keyB := rfl
@[simp] theorem raise_calls (sv : Services) (env : Env) (k : NoticeKind) :
    (raise env k sv).calls = sv.calls := rfl
@[simp] theorem raise_finished (sv : Services) (env : Env) (k : NoticeKind) :
    (raise env k sv).finished = sv.finished := rfl
@[simp] theorem raise_callClock (sv : Services) (env : Env) (k : NoticeKind) :
    (raise env k sv).callClock = sv.callClock := rfl
@[simp] theorem raise_chimes (sv : Services) (env : Env) (k : NoticeKind) :
    (raise env k sv).chimes = sv.chimes := rfl
@[simp] theorem raise_walkDue (sv : Services) (env : Env) (k : NoticeKind) :
    (raise env k sv).walkDue = sv.walkDue := rfl
@[simp] theorem raise_walkZones (sv : Services) (env : Env) (k : NoticeKind) :
    (raise env k sv).walkZones = sv.walkZones := rfl
@[simp] theorem raise_houses (sv : Services) (env : Env) (k : NoticeKind) :
    (raise env k sv).houses = sv.houses := rfl
@[simp] theorem raise_entrances (sv : Services) (env : Env) (k : NoticeKind) :
    (raise env k sv).entrances = sv.entrances := rfl
@[simp] theorem raise_link (sv : Services) (env : Env) (k : NoticeKind) :
    (raise env k sv).link = raiseIn env k sv.link := rfl
@[simp] theorem raise_reports (sv : Services) (env : Env) (k : NoticeKind) :
    (raise env k sv).reports = sv.reports := rfl

@[simp] theorem svReply_zones (sv : Services) (tag : Byte) (kind : RequestKind) (ans : Answer) :
    (sv.reply tag kind ans).zones = sv.zones := rfl
@[simp] theorem svReply_override (sv : Services) (tag : Byte) (kind : RequestKind) (ans : Answer) :
    (sv.reply tag kind ans).override = sv.override := rfl
@[simp] theorem svReply_free (sv : Services) (tag : Byte) (kind : RequestKind) (ans : Answer) :
    (sv.reply tag kind ans).free = sv.free := rfl
@[simp] theorem svReply_slots (sv : Services) (tag : Byte) (kind : RequestKind) (ans : Answer) :
    (sv.reply tag kind ans).slots = sv.slots := rfl
@[simp] theorem svReply_channels (sv : Services) (tag : Byte) (kind : RequestKind) (ans : Answer) :
    (sv.reply tag kind ans).channels = sv.channels := rfl
@[simp] theorem svReply_keyA (sv : Services) (tag : Byte) (kind : RequestKind) (ans : Answer) :
    (sv.reply tag kind ans).keyA = sv.keyA := rfl
@[simp] theorem svReply_keyB (sv : Services) (tag : Byte) (kind : RequestKind) (ans : Answer) :
    (sv.reply tag kind ans).keyB = sv.keyB := rfl
@[simp] theorem svReply_calls (sv : Services) (tag : Byte) (kind : RequestKind) (ans : Answer) :
    (sv.reply tag kind ans).calls = sv.calls := rfl
@[simp] theorem svReply_finished (sv : Services) (tag : Byte) (kind : RequestKind) (ans : Answer) :
    (sv.reply tag kind ans).finished = sv.finished := rfl
@[simp] theorem svReply_callClock (sv : Services) (tag : Byte) (kind : RequestKind) (ans : Answer) :
    (sv.reply tag kind ans).callClock = sv.callClock := rfl
@[simp] theorem svReply_chimes (sv : Services) (tag : Byte) (kind : RequestKind) (ans : Answer) :
    (sv.reply tag kind ans).chimes = sv.chimes := rfl
@[simp] theorem svReply_walkDue (sv : Services) (tag : Byte) (kind : RequestKind) (ans : Answer) :
    (sv.reply tag kind ans).walkDue = sv.walkDue := rfl
@[simp] theorem svReply_walkZones (sv : Services) (tag : Byte) (kind : RequestKind) (ans : Answer) :
    (sv.reply tag kind ans).walkZones = sv.walkZones := rfl
@[simp] theorem svReply_houses (sv : Services) (tag : Byte) (kind : RequestKind) (ans : Answer) :
    (sv.reply tag kind ans).houses = sv.houses := rfl
@[simp] theorem svReply_entrances (sv : Services) (tag : Byte) (kind : RequestKind) (ans : Answer) :
    (sv.reply tag kind ans).entrances = sv.entrances := rfl
@[simp] theorem svReply_link (sv : Services) (tag : Byte) (kind : RequestKind) (ans : Answer) :
    (sv.reply tag kind ans).link = sv.link.ready tag kind ans := rfl
@[simp] theorem svReply_reports (sv : Services) (tag : Byte) (kind : RequestKind) (ans : Answer) :
    (sv.reply tag kind ans).reports = sv.reports := rfl

@[simp] theorem startChime_zones (sv : Services) (o : ChimeOwner) (c : Chime) :
    (startChime o c sv).zones = sv.zones := rfl
@[simp] theorem startChime_override (sv : Services) (o : ChimeOwner) (c : Chime) :
    (startChime o c sv).override = sv.override := rfl
@[simp] theorem startChime_free (sv : Services) (o : ChimeOwner) (c : Chime) :
    (startChime o c sv).free = sv.free := rfl
@[simp] theorem startChime_slots (sv : Services) (o : ChimeOwner) (c : Chime) :
    (startChime o c sv).slots = sv.slots := rfl
@[simp] theorem startChime_channels (sv : Services) (o : ChimeOwner) (c : Chime) :
    (startChime o c sv).channels = sv.channels := rfl
@[simp] theorem startChime_keyA (sv : Services) (o : ChimeOwner) (c : Chime) :
    (startChime o c sv).keyA = sv.keyA := rfl
@[simp] theorem startChime_keyB (sv : Services) (o : ChimeOwner) (c : Chime) :
    (startChime o c sv).keyB = sv.keyB := rfl
@[simp] theorem startChime_calls (sv : Services) (o : ChimeOwner) (c : Chime) :
    (startChime o c sv).calls = sv.calls := rfl
@[simp] theorem startChime_finished (sv : Services) (o : ChimeOwner) (c : Chime) :
    (startChime o c sv).finished = sv.finished := rfl
@[simp] theorem startChime_callClock (sv : Services) (o : ChimeOwner) (c : Chime) :
    (startChime o c sv).callClock = sv.callClock := rfl
@[simp] theorem startChime_chimes (sv : Services) (o : ChimeOwner) (c : Chime) :
    (startChime o c sv).chimes = sv.chimes ++ [{ owner := o, chime := c, left := chimeLength c }] := rfl
@[simp] theorem startChime_walkDue (sv : Services) (o : ChimeOwner) (c : Chime) :
    (startChime o c sv).walkDue = sv.walkDue := rfl
@[simp] theorem startChime_walkZones (sv : Services) (o : ChimeOwner) (c : Chime) :
    (startChime o c sv).walkZones = sv.walkZones := rfl
@[simp] theorem startChime_houses (sv : Services) (o : ChimeOwner) (c : Chime) :
    (startChime o c sv).houses = sv.houses := rfl
@[simp] theorem startChime_entrances (sv : Services) (o : ChimeOwner) (c : Chime) :
    (startChime o c sv).entrances = sv.entrances := rfl
@[simp] theorem startChime_link (sv : Services) (o : ChimeOwner) (c : Chime) :
    (startChime o c sv).link = sv.link := rfl
@[simp] theorem startChime_reports (sv : Services) (o : ChimeOwner) (c : Chime) :
    (startChime o c sv).reports = sv.reports := rfl

@[simp] theorem stopChime_zones (sv : Services) (o : ChimeOwner) :
    (stopChime o sv).zones = sv.zones := rfl
@[simp] theorem stopChime_override (sv : Services) (o : ChimeOwner) :
    (stopChime o sv).override = sv.override := rfl
@[simp] theorem stopChime_free (sv : Services) (o : ChimeOwner) :
    (stopChime o sv).free = sv.free := rfl
@[simp] theorem stopChime_slots (sv : Services) (o : ChimeOwner) :
    (stopChime o sv).slots = sv.slots := rfl
@[simp] theorem stopChime_channels (sv : Services) (o : ChimeOwner) :
    (stopChime o sv).channels = sv.channels := rfl
@[simp] theorem stopChime_keyA (sv : Services) (o : ChimeOwner) :
    (stopChime o sv).keyA = sv.keyA := rfl
@[simp] theorem stopChime_keyB (sv : Services) (o : ChimeOwner) :
    (stopChime o sv).keyB = sv.keyB := rfl
@[simp] theorem stopChime_calls (sv : Services) (o : ChimeOwner) :
    (stopChime o sv).calls = sv.calls := rfl
@[simp] theorem stopChime_finished (sv : Services) (o : ChimeOwner) :
    (stopChime o sv).finished = sv.finished := rfl
@[simp] theorem stopChime_callClock (sv : Services) (o : ChimeOwner) :
    (stopChime o sv).callClock = sv.callClock := rfl
@[simp] theorem stopChime_chimes (sv : Services) (o : ChimeOwner) :
    (stopChime o sv).chimes = sv.chimes.filter (fun k => k.owner != o) := rfl
@[simp] theorem stopChime_walkDue (sv : Services) (o : ChimeOwner) :
    (stopChime o sv).walkDue = sv.walkDue := rfl
@[simp] theorem stopChime_walkZones (sv : Services) (o : ChimeOwner) :
    (stopChime o sv).walkZones = sv.walkZones := rfl
@[simp] theorem stopChime_houses (sv : Services) (o : ChimeOwner) :
    (stopChime o sv).houses = sv.houses := rfl
@[simp] theorem stopChime_entrances (sv : Services) (o : ChimeOwner) :
    (stopChime o sv).entrances = sv.entrances := rfl
@[simp] theorem stopChime_link (sv : Services) (o : ChimeOwner) :
    (stopChime o sv).link = sv.link := rfl
@[simp] theorem stopChime_reports (sv : Services) (o : ChimeOwner) :
    (stopChime o sv).reports = sv.reports := rfl

/-! Tables -/

@[simp] theorem look_put_self {α : Type} {n : Nat} (v : Vector α n) (i : Fin n) (x : α) :
    look (put v i x) i = x := by simp [look, put]

theorem look_put {α : Type} {n : Nat} (v : Vector α n) (i j : Fin n) (x : α) :
    look (put v i x) j = if i = j then x else look v j := by
  simp [look, put, Vector.getElem_set, Fin.ext_iff]

@[simp] theorem look_put_of_ne {α : Type} {n : Nat} (v : Vector α n) {i j : Fin n} (h : i ≠ j) (x : α) :
    look (put v i x) j = look v j := by rw [look_put, if_neg h]

@[simp] theorem put_look {α : Type} {n : Nat} (v : Vector α n) (i : Fin n) : put v i (look v i) = v := by
  simp [look, put]

@[simp] theorem put_put {α : Type} {n : Nat} (v : Vector α n) (i : Fin n) (x y : α) :
    put (put v i x) i y = put v i y := by
  simp [put]

@[simp] theorem look_replicate {α : Type} {n : Nat} (x : α) (i : Fin n) :
    look (Vector.replicate n x) i = x := by simp [look]

@[simp] theorem look_map {α β : Type} {n : Nat} (f : α → β) (v : Vector α n) (i : Fin n) :
    look (v.map f) i = f (look v i) := by simp [look]

/-- Two tables with the same records are the same. -/
theorem table_ext {α : Type} {n : Nat} {v w : Vector α n} (h : ∀ i, look v i = look w i) : v = w :=
  Vector.ext fun i hi => h ⟨i, hi⟩

@[simp] theorem get_set_self {α : Type} (t : Two α) (a : Aud) (x : α) : (t.set a x).get a = x := by
  cases a <;> rfl

theorem get_set {α : Type} (t : Two α) (a b : Aud) (x : α) :
    (t.set a x).get b = if a = b then x else t.get b := by
  cases a <;> cases b <;> rfl

@[simp] theorem get_updTwo_self {α : Type} (t : Two α) (a : Aud) (f : α → α) :
    (updTwo t a f).get a = f (t.get a) := by simp [updTwo]

theorem get_updTwo {α : Type} (t : Two α) (a b : Aud) (f : α → α) :
    (updTwo t a f).get b = if a = b then f (t.get b) else t.get b := by
  cases a <;> cases b <;> rfl

/-- Two pairs with the same things are the same. -/
theorem two_ext {α : Type} {t u : Two α} (h : ∀ a, t.get a = u.get a) : t = u := by
  cases t; cases u
  have h1 := h .one
  have h2 := h .two
  simp_all [Two.get]

/-- A fold keeps what each of its turns keeps. -/
theorem foldl_keeps {α β γ : Type} (g : β → γ) (f : β → α → β) (hf : ∀ b x, g (f b x) = g b)
    (l : List α) (b : β) : g (l.foldl f b) = g b := by
  induction l generalizing b with
  | nil => rfl
  | cons x l ih => rw [List.foldl_cons, ih, hf]

/-- A fold keeps an invariant that each of its turns keeps. -/
theorem foldl_inv {α β : Type} (p : β → Prop) (f : β → α → β) (hf : ∀ b x, p b → p (f b x))
    (l : List α) (b : β) (hb : p b) : p (l.foldl f b) := by
  induction l generalizing b with
  | nil => exact hb
  | cons x l ih => exact ih _ (hf b x hb)

end Sys2Proof.Laws
end

