-- ==== Sys2Proof/Laws/Kept.lean ====
section
/-! SUPPORT. What the services keep. `Kept P` says that a property of the services is kept by each of
the few updates every service operation is made of; the lemmas carry it through the router, the
pool, the engine, the scheduler and the settling, once for every such property. -/

namespace Sys2Proof.Laws

open Sys2Proof.Machine

/-- What of the link port no service touches. -/
def linkCore (l : LinkPort) :
    List KeptByte × List Outstanding × List TxItem × Option Nat × Bool × Bool :=
  (l.buffer, l.outstanding, l.tx.filter TxItem.isImmediate, l.silenceLeft, l.standalone, l.accepting)

/-- What of a house the reports never touch. -/
def houseCore (h : House) : HouseState × Option Nat × Option Nat × Bool × Nat :=
  (h.state, h.windowLeft, h.graceLeft, h.closeOnMusic, h.windows)

/-- What of the services the reports never touch: the override, the keys, the call clock, the
entrances, the house states and their timers, the link port but its replies, notices and gate. -/
def outer (sv : Services) :=
  (sv.override, sv.keyA, sv.keyB, sv.callClock, sv.entrances, houseCore sv.houses.one,
    houseCore sv.houses.two, linkCore sv.link)

/-- `sv'` differs from `sv` in bookkeeping only: calls, finished list, chimes, walks, reports, window
records and chime results, transmit queue, pending flags and gate. -/
structure Book (sv sv' : Services) : Prop where
  zones : sv'.zones = sv.zones
  free : sv'.free = sv.free
  slots : sv'.slots = sv.slots
  channels : sv'.channels = sv.channels
  calls : sv'.calls.length ≤ sv.calls.length
  finished : sv'.finished.length ≤ 8 ∨ sv'.finished.length ≤ sv.finished.length
  outer : outer sv' = outer sv

/-- An IDLE slot holds nothing (R83). -/
def IdleEmpty (slots : Vector Slot 10) : Prop := ∀ i, (look slots i).state = .idle → (look slots i).held = []

/-- A write of a slot and of the free count that leaves nothing in an IDLE slot, conserves the blocks
(R81), leaves the reserve covered (R84) and fills no slot past its limit (R82). -/
structure SlotWrite (sv : Services) (i : SlotId) (sl : Slot) (n : Nat) : Prop where
  idle : sl.state = .idle → sl.held = []
  kept : IdleEmpty sv.slots → reserve sv.slots ≤ sv.free →
    sl.held.length + n = (look sv.slots i).held.length + sv.free ∧ reserve (put sv.slots i sl) ≤ n
  limit : sl.held.length ≤ slotLimit ∨ sl.held.length ≤ (look sv.slots i).held.length

/-- The updates that service operations are made of, each keeping `P`. -/
structure Kept (P : Services → Prop) : Prop where
  book : ∀ sv sv', Book sv sv' → P sv → P sv'
  zone : ∀ sv z r, (r.stack.length ≤ 4 ∨ r.stack.length ≤ (look sv.zones z).stack.length) →
    P sv → P (putZone z r sv)
  slot : ∀ sv i sl n, SlotWrite sv i sl n → P sv →
    P { sv with slots := put sv.slots i sl, free := n }
  chan : ∀ sv d c, c.queue.length ≤ (look sv.channels d).queue.length → P sv → P (putChannel d c sv)

/-! ## Updates -/

@[simp] theorem linkCore_judgeNotice (env : Env) (l : LinkPort) :
    linkCore (judgeNotice env l) = linkCore l := by
  unfold judgeNotice; split <;> simp [linkCore, TxItem.isImmediate]

@[simp] theorem linkCore_raiseIn (env : Env) (k : NoticeKind) (l : LinkPort) :
    linkCore (raiseIn env k l) = linkCore l := by
  unfold raiseIn; rw [linkCore_judgeNotice]; rfl

theorem popScan_length (held : Bool) (l : List Claim) :
    (popScan held l).2.2.length ≤ l.length := by
  induction l with
  | nil => simp [popScan]
  | cons c rest ih =>
    unfold popScan
    split
    · simpa using Nat.le_succ_of_le ih
    · simp

theorem appendFinished_length (r : FinishedRecord) (l : List FinishedRecord) :
    (appendFinished r l).length ≤ 8 := by
  unfold appendFinished
  split <;> simp <;> omega

variable {P : Services → Prop} (K : Kept P)

include K

theorem kept_raise (env : Env) (k : NoticeKind) (sv : Services) (h : P sv) : P (raise env k sv) :=
  K.book sv _ ⟨rfl, rfl, rfl, rfl, le_refl _, Or.inr (le_refl _), by simp [outer]⟩ h

theorem kept_reply (tag : Byte) (kind : RequestKind) (ans : Answer) (sv : Services) (h : P sv) :
    P (sv.reply tag kind ans) :=
  K.book sv _ ⟨rfl, rfl, rfl, rfl, le_refl _, Or.inr (le_refl _), by
    simp [outer, linkCore, Services.reply, LinkPort.ready, TxItem.isImmediate]⟩ h

theorem kept_reports (v : List Report) (sv : Services) (h : P sv) : P { sv with reports := v } :=
  K.book sv _ ⟨rfl, rfl, rfl, rfl, le_refl _, Or.inr (le_refl _), rfl⟩ h

theorem kept_report (r : Report) (sv : Services) (h : P sv) : P (sv.report r) := kept_reports K _ sv h

theorem kept_updCall (id : Nat) (f : Call → Call) (sv : Services) (h : P sv) : P (updCall id f sv) :=
  K.book sv _ ⟨rfl, rfl, rfl, rfl, by simp [updCall], Or.inr (le_refl _), rfl⟩ h

theorem kept_oweWalk (sv : Services) (h : P sv) : P (oweWalk sv) :=
  K.book sv _ ⟨rfl, rfl, rfl, rfl, le_refl _, Or.inr (le_refl _), rfl⟩ h

theorem kept_startChime (o : ChimeOwner) (c : Chime) (sv : Services) (h : P sv) :
    P (startChime o c sv) :=
  K.book sv _ ⟨rfl, rfl, rfl, rfl, le_refl _, Or.inr (le_refl _), rfl⟩ h

theorem kept_stopChime (o : ChimeOwner) (sv : Services) (h : P sv) : P (stopChime o sv) :=
  K.book sv _ ⟨rfl, rfl, rfl, rfl, le_refl _, Or.inr (le_refl _), rfl⟩ h

theorem kept_zoneUnheard (z : ZoneId) (sv : Services) (h : P sv) : P (zoneUnheard z sv) :=
  K.book sv _ ⟨rfl, rfl, rfl, rfl, by simp [zoneUnheard], Or.inr (le_refl _), rfl⟩ h

theorem kept_updHouse (a : Aud) (f : House → House) (hf : ∀ h, houseCore (f h) = houseCore h)
    (sv : Services) (h : P sv) : P (updHouse a f sv) :=
  K.book sv _ ⟨rfl, rfl, rfl, rfl, le_refl _, Or.inr (le_refl _), by
    cases a <;> simp [outer, updHouse, updTwo, Two.set, Two.get, hf]⟩ h

theorem kept_setActive (d : ChannelId) (c : ActiveClip) (sv : Services) (h : P sv) :
    P (setActive d c sv) := K.chan sv d _ (le_refl _) h

/-! ## The router -/

theorem kept_loseClaim (z : ZoneId) (sv : Services) (c : Claim) (h : P sv) : P (loseClaim z sv c) := by
  unfold loseClaim
  split
  · rename_i src _
    exact K.zone sv z _ (Or.inr (by cases src <;> exact le_refl _)) h
  · exact h
  · exact kept_report K _ sv h

theorem kept_loseClaims (z : ZoneId) (l : List Claim) (sv : Services) (h : P sv) :
    P (loseClaims z l sv) :=
  foldl_inv P _ (fun b c hb => kept_loseClaim K z b c hb) l sv h

theorem kept_sendZoneRelease (env : Env) (z : ZoneId) (sv : Services) (h : P sv) :
    P (sendZoneRelease env z sv) := by
  unfold sendZoneRelease
  split
  · exact K.book sv _ ⟨rfl, rfl, rfl, rfl, le_refl _, Or.inr (le_refl _), rfl⟩ h
  · exact h

theorem kept_grant (env : Env) (z : ZoneId) (c : Claim) (sv : Services) (h : P sv) :
    P (grant env z c sv) := by
  unfold grant
  dsimp only
  split
  · exact kept_sendZoneRelease K env z _ (K.zone sv z _ (Or.inr (le_refl _)) h)
  · refine kept_sendZoneRelease K env z _
      (kept_report K _ _ (kept_loseClaims K z _ _ (K.zone sv z _ (Or.inl ?_) h)))
    simp only [List.length_cons, List.length_take]; omega

theorem kept_claim (env : Env) (z : ZoneId) (c : Claim) (sv : Services) (h : P sv) :
    P (claim env z c sv).2 := by
  unfold claim
  split
  · exact h
  · split
    · exact kept_grant K env z c sv h
    · exact h

theorem kept_setClaim (env : Env) (c : Claim) (whole : Bool) (zs : List ZoneId) (sv : Services)
    (h : P sv) : P (setClaim env c whole zs sv).2 := by
  unfold setClaim
  split
  · exact h
  · dsimp only
    split
    · exact h
    · refine foldl_inv P _ (fun b p hb => ?_) _ sv h
      split
      · exact kept_grant K env _ c b hb
      · exact hb

theorem kept_pop (env : Env) (z : ZoneId) (sv : Services) (h : P sv) : P (pop env z sv) := by
  have h1 := kept_loseClaims K z (popScan (decide (0 < (look sv.zones z).holds)) (look sv.zones z).stack).1
    _ (K.zone sv z
      { look sv.zones z with
        active := (popScan (decide (0 < (look sv.zones z).holds)) (look sv.zones z).stack).2.1
        stack := (popScan (decide (0 < (look sv.zones z).holds)) (look sv.zones z).stack).2.2 }
      (Or.inr (popScan_length _ _)) h)
  unfold pop
  dsimp only
  split
  · exact kept_sendZoneRelease K env z _ h1
  · exact kept_sendZoneRelease K env z _ (kept_report K _ _ h1)

theorem kept_release (env : Env) (who : Claimant) (z : ZoneId) (sv : Services) (h : P sv) :
    P (release env who z sv) := by
  unfold release
  dsimp only
  split
  · exact kept_pop K env z _ (K.zone sv z _ (Or.inr (List.length_filter_le _ _)) h)
  · exact K.zone sv z _ (Or.inr (List.length_filter_le _ _)) h

theorem kept_releaseAll (env : Env) (who : Claimant) (sv : Services) (h : P sv) :
    P (releaseAll env who sv) := foldl_inv P _ (fun b z hb => kept_release K env who z b hb) _ sv h

theorem kept_hold (env : Env) (z : ZoneId) (sv : Services) (h : P sv) : P (hold env z sv) := by
  unfold hold
  dsimp only
  split
  · split
    · exact kept_pop K env z _ (kept_loseClaim K z _ _ (K.zone sv z _ (Or.inr (le_refl _)) h))
    · exact K.zone sv z _ (Or.inr (le_refl _)) h
  · exact K.zone sv z _ (Or.inr (le_refl _)) h

theorem kept_unhold (env : Env) (z : ZoneId) (sv : Services) (h : P sv) : P (unhold env z sv) := by
  unfold unhold
  dsimp only
  split
  · exact kept_sendZoneRelease K env z _ (K.zone sv z _ (Or.inr (le_refl _)) h)
  · exact K.zone sv z _ (Or.inr (le_refl _)) h

theorem kept_overrideClaim (env : Env) (sv : Services) (h : P sv) : P (overrideClaim env sv) :=
  foldl_inv P _ (fun b z hb => kept_claim K env z _ b hb) _ sv h

theorem kept_setTest (z : ZoneId) (src : TestSource) (t : Option Nat) (sv : Services) (h : P sv) :
    P (putZone z ((look sv.zones z).setTest src t) sv) :=
  K.zone sv z _ (Or.inr (by cases src <;> exact le_refl _)) h

theorem kept_replaceTest (z : ZoneId) (src : TestSource) (sv : Services) (h : P sv) :
    P (replaceTest z src sv) := by
  have h1 := K.zone sv z { look sv.zones z with active := some ⟨1, .test src⟩ } (Or.inr (le_refl _)) h
  unfold replaceTest
  dsimp only
  split
  · exact h1
  · split
    · exact h1
    · exact kept_loseClaim K z _ _ h1

theorem kept_startTest (env : Env) (src : TestSource) (n : Nat) (sv : Services) (h : P sv) :
    P (startTest env src n sv).2 := by
  unfold startTest
  split
  · exact h
  · split
    · exact h
    · dsimp only
      split
      · split
        · exact kept_setTest K _ src _ sv h
        · split
          · exact kept_grant K env _ _ _ (kept_setTest K _ src _ sv h)
          · exact h
      · exact kept_setTest K _ src _ _ (kept_replaceTest K _ src sv h)

theorem kept_endTest (env : Env) (src : TestSource) (z : ZoneId) (sv : Services) (h : P sv) :
    P (endTest env src z sv) := kept_release K env _ z _ (kept_setTest K z src none sv h)

theorem kept_stopTest (env : Env) (src : TestSource) (n : Nat) (sv : Services) (h : P sv) :
    P (stopTest env src n sv).2 := by
  unfold stopTest
  split
  · exact h
  · split
    · exact h
    · split
      · exact kept_endTest K env src _ sv h
      · exact h

theorem kept_takeZoneKind (z : ZoneId) (old new : ZoneKind) (sv : Services) (h : P sv) :
    P (takeZoneKind z old new sv) := by
  unfold takeZoneKind
  split
  · exact h
  · refine K.zone sv z _ (Or.inr ?_) h
    split <;> split <;> first | exact List.length_filter_le _ _ | exact le_refl _

theorem kept_writeDrive (z : ZoneId) (drive : DriveState) (b : Bool) (sv : Services) (h : P sv) :
    P (writeDrive z drive b sv) := by
  have h1 := K.zone sv z { look sv.zones z with drive := drive, backoff := b } (Or.inr (le_refl _)) h
  unfold writeDrive
  dsimp only
  split
  · exact kept_zoneUnheard K z _ h1
  · exact h1

theorem kept_routerEnterRun (env : Env) (sv : Services) (h : P sv) : P (routerEnterRun env sv) := by
  have h1 : P (allZones.foldl (fun acc z =>
      if isLoopKind (look env.cfg.zones z).kind then acc
      else putZone z { look acc.zones z with drive := .good, backoff := false } acc) sv) := by
    refine foldl_inv P _ (fun b z hb => ?_) _ sv h
    split
    · exact hb
    · exact K.zone b z _ (Or.inr (le_refl _)) hb
  unfold routerEnterRun
  dsimp only
  split
  · exact kept_raise K env _ _ (kept_overrideClaim K env _ h1)
  · exact h1

/-! ## The pool -/

omit K in
/-- R84: what one slot's write does to the reserve. -/
theorem reserve_put (slots : Vector Slot 10) (i : SlotId) (sl : Slot) :
    reserve (put slots i sl) + (look slots i).unfilled = reserve slots + sl.unfilled := by
  simp only [reserve, allSlots, look_put]
  fin_cases i <;> simp [List.finRange_succ] <;> omega

omit K in
/-- R84: the reserve is one slot's unfilled guarantee and the others'. -/
theorem reserve_split (slots : Vector Slot 10) (i : SlotId) :
    reserve slots = reserveOfOthers slots i + (look slots i).unfilled := by
  simp only [reserve, reserveOfOthers, allSlots]
  fin_cases i <;> simp [List.finRange_succ, List.filter] <;> omega

omit K in
/-- R81: what one slot's write does to the blocks held. -/
theorem heldTotal_put (slots : Vector Slot 10) (i : SlotId) (sl : Slot) :
    heldTotal (put slots i sl) + (look slots i).held.length = heldTotal slots + sl.held.length := by
  simp only [heldTotal, allSlots, look_put]
  fin_cases i <;> simp [List.finRange_succ] <;> omega

theorem kept_putSlot (env : Env) (i : SlotId) (sl : Slot) (n : Nat) (sv : Services)
    (w : SlotWrite sv i sl n) (h : P sv) : P (putSlot env i sl { sv with free := n }) := by
  have k := K.slot sv i sl n w h
  unfold putSlot
  dsimp only
  split
  · exact kept_raise K env _ _ k
  · exact k

/-- A write that leaves the held blocks as they are and reserves no more. -/
theorem kept_putSame (env : Env) (i : SlotId) (sl : Slot) (sv : Services)
    (h0 : sl.state ≠ .idle) (h1 : sl.held = (look sv.slots i).held)
    (h2 : sl.unfilled ≤ (look sv.slots i).unfilled) (h : P sv) : P (putSlot env i sl sv) := by
  have k := reserve_put sv.slots i sl
  refine kept_putSlot K env i sl sv.free sv
    ⟨fun e => absurd e h0, fun _ _ => ⟨by rw [h1], by omega⟩, Or.inr (by rw [h1])⟩ h

theorem kept_armSlot (env : Env) (i : SlotId) (tag n : Nat) (b : Bool) (sv : Services) (h : P sv) :
    P (armSlot env i tag n b sv).2 := by
  unfold armSlot
  split; · exact h
  split; · exact h
  rename_i hidle
  split; · exact h
  split; · exact h
  split; · exact h
  rename_i hfree
  have hidle : (look sv.slots i).state = .idle := by simpa using hidle
  refine kept_putSlot K env i _ sv.free sv ⟨fun e => by simp at e, fun he _ => ?_, Or.inl ?_⟩ h
  · have k := reserve_put sv.slots i
      { Slot.idle with
        state := .loading, owner := some tag, length := n, toReceive := n, retain := b }
    have z : (look sv.slots i).unfilled = 0 := by simp [Slot.unfilled, hidle]
    have y : ({ Slot.idle with
        state := .loading, owner := some tag, length := n, toReceive := n
        retain := b } : Slot).unfilled = min 32 n := by
      simp [Slot.unfilled, Slot.guarantee, Slot.idle]
    rw [y, z] at k
    exact ⟨by rw [he i hidle]; simp [Slot.idle], by omega⟩
  · simp [Slot.idle]

theorem kept_startSlot (env : Env) (i : SlotId) (b : Bool) (sv : Services) (h : P sv) :
    P (startSlot env i b sv).2 := by
  unfold startSlot
  dsimp only
  split; · exact h
  split; · exact h
  rename_i hl
  split; · exact h
  refine kept_putSame K env i _ sv (by simp) rfl (le_of_eq ?_) h
  simp only [Slot.unfilled, Slot.guarantee]
  simp_all

theorem kept_setLoop (env : Env) (i : SlotId) (b : Bool) (sv : Services) (h : P sv) :
    P (setLoop env i b sv).2 := by
  unfold setLoop
  dsimp only
  split; · exact h
  split; · exact h
  exact kept_putSame K env i _ sv (by simpa) rfl (le_refl _) h

theorem kept_pauseSlot (env : Env) (i : SlotId) (sv : Services) (h : P sv) :
    P (pauseSlot env i sv).2 := by
  unfold pauseSlot
  dsimp only
  split
  · rename_i e
    dsimp only
    exact kept_putSame K env i _ sv (by simp) rfl (by simp [Slot.unfilled, Slot.guarantee, e]) h
  · rename_i e
    dsimp only
    exact kept_putSame K env i _ sv (by simp) rfl (by simp [Slot.unfilled, Slot.guarantee, e]) h
  all_goals exact h

theorem kept_resumeSlot (env : Env) (i : SlotId) (sv : Services) (h : P sv) :
    P (resumeSlot env i sv).2 := by
  unfold resumeSlot
  dsimp only
  split
  · split
    · exact kept_putSame K env i _ sv (by simp) rfl (by simp_all [Slot.unfilled, Slot.guarantee]) h
    · split
      · exact kept_putSame K env i _ sv (by simp) rfl (by simp_all [Slot.unfilled, Slot.guarantee]) h
      · exact h
  all_goals exact h

omit K in
/-- A slot emptied gives its blocks back. -/
theorem slotWrite_idle (i : SlotId) (sv : Services) :
    SlotWrite sv i Slot.idle (sv.free + (look sv.slots i).held.length) := by
  have k := reserve_put sv.slots i Slot.idle
  have y : Slot.idle.unfilled = 0 := rfl
  exact ⟨fun _ => rfl, fun _ hr => ⟨by simp [Slot.idle]; omega, by omega⟩, Or.inl (by simp [Slot.idle])⟩

theorem kept_abandonSlot (i : SlotId) (sv : Services) (h : P sv) : P (abandonSlot i sv) := by
  unfold abandonSlot
  dsimp only
  split; · exact h
  exact K.slot sv i Slot.idle _ (slotWrite_idle i sv) h

theorem kept_abandonOwned (i : SlotId) (tag : Nat) (sv : Services) (h : P sv) :
    P (abandonOwned i tag sv) := by
  unfold abandonOwned
  split
  · exact kept_abandonSlot K i sv h
  · exact h

theorem kept_abandonFor (r : AbandonReason) (i : SlotId) (sv : Services) (h : P sv) :
    P (abandonFor r i sv) := by
  unfold abandonFor
  split
  · exact kept_report K _ _ (kept_abandonSlot K i sv h)
  · exact kept_abandonSlot K i sv h

theorem kept_abandonWhere (r : AbandonReason) (p : Slot → Bool) (sv : Services) (h : P sv) :
    P (abandonWhere r p sv) := by
  refine foldl_inv P _ (fun b i hb => ?_) _ sv h
  dsimp only
  split
  · exact kept_abandonFor K r i b hb
  · exact hb

theorem kept_takeFeed (env : Env) (i : SlotId) (fill : Nat) (block : Block) (owner : Nat)
    (sv : Services) (hr : feedRefusal sv i owner fill = none) (h : P sv) :
    P (takeFeed env i fill block sv) := by
  have key : P (putSlot env i ((look sv.slots i).feed fill block) { sv with free := sv.free - 1 }) := by
    unfold feedRefusal at hr
    dsimp only at hr
    split at hr; · cases hr
    split at hr; · cases hr
    rename_i hs
    split at hr; · cases hr
    split at hr; · cases hr
    rename_i hl
    split at hr; · cases hr
    split at hr; · cases hr
    rename_i hf
    have hs : (look sv.slots i).state ≠ .idle := fun e => hs (Or.inl e)
    have hns : ((look sv.slots i).feed fill block).state ≠ .idle := by
      simp only [Slot.feed]; split
      · simp
      · exact hs
    refine kept_putSlot K env i _ (sv.free - 1) sv ⟨fun e => absurd e hns, fun _ hres => ?_, Or.inl ?_⟩ h
    · have k := reserve_put sv.slots i ((look sv.slots i).feed fill block)
      have k2 := reserve_split sv.slots i
      have u1 : (look sv.slots i).unfilled
          = (look sv.slots i).guarantee - (look sv.slots i).held.length := by
        simp [Slot.unfilled, hs]
      have u2 : ((look sv.slots i).feed fill block).unfilled
          = (look sv.slots i).guarantee - ((look sv.slots i).held.length + 1) := by
        simp only [Slot.unfilled, if_neg hns]
        simp [Slot.feed, Slot.guarantee]
      have len : ((look sv.slots i).feed fill block).held.length = (look sv.slots i).held.length + 1 := by
        simp [Slot.feed]
      rw [u1] at k k2
      rw [u2] at k
      rw [len]
      by_cases hg : (look sv.slots i).guarantee ≤ (look sv.slots i).held.length
      · have hf : ¬ sv.free < reserveOfOthers sv.slots i + 1 := fun e => hf ⟨hg, e⟩
        constructor <;> omega
      · constructor <;> omega
    · simp only [Slot.feed, List.length_append, List.length_singleton]
      omega
  unfold takeFeed
  dsimp only
  split
  · exact kept_report K _ _ key
  · exact key

theorem kept_feedSlot (env : Env) (s o f : Nat) (block : Block) (sv : Services) (h : P sv) :
    P (feedSlot env s o f block sv).2 := by
  unfold feedSlot
  split
  · exact h
  · split
    · exact h
    · exact kept_takeFeed K env _ f block o sv (by assumption) h

omit K in
/-- R92: a played block goes back to the free list, unless the slot retains it. -/
theorem slotWrite_played (i : SlotId) (sv : Services) (sl : Slot)
    (h1 : (look sv.slots i).state = .playing) (h2 : 0 < (look sv.slots i).ahead)
    (h3 : sl.state ≠ .idle) (h4 : sl.held = (look sv.slots i).playedOne.held)
    (h5 : sl.length = (look sv.slots i).length) :
    SlotWrite sv i sl (sv.free + (if (look sv.slots i).retain then 0 else 1)) := by
  have k := reserve_put sv.slots i sl
  have u1 : (look sv.slots i).unfilled
      = min 32 (look sv.slots i).length - (look sv.slots i).held.length := by
    simp [Slot.unfilled, Slot.guarantee, h1]
  have u2 : sl.unfilled = min 32 (look sv.slots i).length - sl.held.length := by
    simp [Slot.unfilled, Slot.guarantee, h3, h5]
  rw [u1, u2] at k
  have len : sl.held.length + (if (look sv.slots i).retain then 0 else 1)
      = (look sv.slots i).held.length := by
    rw [h4]
    unfold Slot.playedOne
    unfold Slot.ahead at h2
    split <;> simp_all
    omega
  refine ⟨fun e => absurd e h3, fun _ hr => ⟨by omega, ?_⟩, Or.inr (by omega)⟩
  split at len <;> simp_all; omega

theorem kept_blockPlayed (env : Env) (i : SlotId) (sv : Services) (h : P sv) :
    P (blockPlayed env i sv) := by
  unfold blockPlayed
  dsimp only
  split
  · rename_i hp
    have st : (look sv.slots i).playedOne.state = .playing := by
      unfold Slot.playedOne; split <;> exact hp.1
    have le : (look sv.slots i).playedOne.length = (look sv.slots i).length := by
      unfold Slot.playedOne; split <;> rfl
    have w := fun sl => slotWrite_played i sv sl hp.1 hp.2
    unfold afterBlock
    split
    · exact kept_putSlot K env i _ _ sv (w _ (by simp [st]) rfl le) h
    · split
      · exact kept_putSlot K env i _ _ sv (w _ (by simp) rfl le) h
      · split
        · refine kept_report K _ _ (kept_putSlot K env i _ _ sv (w _ ?_ rfl le) h)
          simp only [Slot.passEnded]; split <;> simp
        · refine kept_report K _ _ (kept_putSlot K env i Slot.idle _ sv ?_ h)
          have w1 := w _ (by simp [st]) rfl le
          have w2 := slotWrite_idle i sv
          refine ⟨fun _ => rfl, fun a b => ?_, Or.inl (by simp [Slot.idle])⟩
          have c1 := (w1.kept a b).1
          have c2 := (w2.kept a b)
          simp only [Slot.idle, List.length_nil] at *
          constructor <;> omega
  · exact h

theorem kept_starveExpired (i : SlotId) (sv : Services) (h : P sv) : P (starveExpired i sv) := by
  unfold starveExpired
  split
  · exact kept_abandonFor K _ i sv h
  · exact h

/-! ## The engine -/

theorem kept_loadHead (env : Env) (d : ChannelId) (sv : Services) (h : P sv) :
    P (loadHead env d sv) := by
  unfold loadHead
  dsimp only
  split
  · rename_i head _ i _ _ _
    split
    · have k := kept_armSlot K env i head.clipId head.length false sv h
      split <;> rename_i e <;> rw [e] at k
      · exact K.chan _ d _ (le_refl _) k
      · exact k
    · exact h
  · exact h

theorem kept_loadHeads (env : Env) (sv : Services) (h : P sv) : P (loadHeads env sv) :=
  foldl_inv P _ (fun b d hb => kept_loadHead K env d b hb) _ sv h

theorem kept_endClip (env : Env) (d : ChannelId) (o : ClipOutcome) (sv : Services) (h : P sv) :
    P (endClip env d o sv) := by
  unfold endClip
  split
  · exact h
  · rename_i c _
    have k := kept_abandonOwned K c.slot c.desc.clipId _ (kept_releaseAll K env (.clip d) sv h)
    dsimp only
    generalize abandonOwned c.slot c.desc.clipId (releaseAll env (.clip d) sv) = sv2 at k
    exact kept_loadHeads K env _ (kept_raise K env _ _ (K.chan sv2 d _ (le_refl _) k))

theorem kept_tryZone (env : Env) (d : ChannelId) (sv : Services) (h : P sv) :
    P (tryZone env d sv) := by
  unfold tryZone
  split
  · exact h
  · split
    · exact kept_setActive K d _ sv h
    · rename_i c _ _ z _
      have k := kept_claim K env z ⟨3, .clip d⟩ sv h
      dsimp only
      split
      · refine kept_setActive K d _ _ ?_
        exact kept_startSlot K env c.slot c.standing _ k
      · exact kept_setActive K d _ _ k

theorem kept_tryGap (env : Env) (d : ChannelId) (sv : Services) (h : P sv) : P (tryGap env d sv) := by
  unfold tryGap
  split
  · exact h
  · split
    · exact kept_setActive K d _ sv h
    · exact kept_tryZone K env d sv h

theorem kept_activate (env : Env) (d : ChannelId) (sv : Services) (h : P sv) :
    P (activate env d sv) := by
  unfold activate
  split
  · exact h
  · split
    · exact kept_endClip K env d _ sv h
    · split
      · exact kept_raise K env _ _ (kept_setActive K d _ sv h)
      · exact kept_tryGap K env d sv h

theorem kept_liveClaimNow (env : Env) (d : ChannelId) (sv : Services) (h : P sv) :
    P (liveClaimNow env d sv) := by
  unfold liveClaimNow
  split
  · exact h
  · exact K.chan _ d _ (le_refl _) (kept_claim K env _ _ sv h)

theorem kept_livePress (env : Env) (key : LiveInput) (sv : Services) (h : P sv) :
    P (livePress env key sv) := by
  refine foldl_inv P _ (fun b d hb => ?_) _ sv h
  split
  · exact kept_liveClaimNow K env d _ (K.chan b d _ (le_refl _) hb)
  · exact hb

theorem kept_liveRelease (env : Env) (key : LiveInput) (sv : Services) (h : P sv) :
    P (liveRelease env key sv) := by
  refine foldl_inv P _ (fun b d hb => ?_) _ sv h
  split
  · have k := kept_releaseAll K env (.live d) _
      (K.chan b d { look b.channels d with liveFlag := false } (le_refl _) hb)
    dsimp only
    generalize releaseAll env (.live d) _ = sv2 at k
    exact K.chan sv2 d _ (le_refl _) k
  · exact hb

theorem kept_clipPushed (env : Env) (d : ChannelId) (sv : Services) (h : P sv) :
    P (clipPushed env d sv) := by
  unfold clipPushed
  split; · exact h
  split; · exact h
  split; · exact kept_endClip K env d _ sv h
  rename_i a _ _ _
  dsimp only
  have k := fun c => kept_setActive K d c _ (kept_pauseSlot K env a.slot sv h)
  split; · exact k _
  split
  · exact kept_endClip K env d _ _ (k _)
  · exact k _

theorem kept_clipRestored (env : Env) (d : ChannelId) (sv : Services) (h : P sv) :
    P (clipRestored env d sv) := by
  unfold clipRestored
  split; · exact h
  split; · exact h
  exact kept_resumeSlot K env _ _ (kept_setActive K d _ sv h)

theorem kept_clipLost (env : Env) (d : ChannelId) (sv : Services) (h : P sv) :
    P (clipLost env d sv) := by
  unfold clipLost
  split; · exact h
  split
  · exact kept_endClip K env d _ sv h
  · exact h

theorem kept_liveLost (d : ChannelId) (sv : Services) (h : P sv) : P (liveLost d sv) :=
  K.chan sv d _ (le_refl _) h

theorem kept_channelRetry (env : Env) (z : ZoneId) (d : ChannelId) (sv : Services) (h : P sv) :
    P (channelRetry env z d sv) := by
  unfold channelRetry
  split; · exact h
  dsimp only
  have k : P (if (look sv.channels d).liveFlag ∧ (look sv.channels d).liveClaim = .waiting
      then liveClaimNow env d sv else sv) := by
    split
    · exact kept_liveClaimNow K env d sv h
    · exact h
  split
  · split
    · exact kept_tryZone K env d _ k
    · exact k
  · exact k

theorem kept_engineRetry (env : Env) (z : ZoneId) (sv : Services) (h : P sv) :
    P (engineRetry env z sv) := foldl_inv P _ (fun b d hb => kept_channelRetry K env z d b hb) _ sv h

theorem kept_enginePrefill (env : Env) (d : ChannelId) (i : SlotId) (sv : Services) (h : P sv) :
    P (enginePrefill env d i sv) := by
  have k := fun c => kept_setActive K d c sv h
  unfold enginePrefill
  dsimp only
  split
  · split
    · split
      · split
        · exact kept_tryZone K env d _ (k _)
        · exact kept_tryGap K env d _ (k _)
      · exact k _
    · split
      · exact K.chan sv d _ (le_refl _) h
      · exact h
  · split
    · exact K.chan sv d _ (le_refl _) h
    · exact h

theorem kept_engineStreamDone (env : Env) (d : ChannelId) (i : SlotId) (owner : Nat) (sv : Services)
    (h : P sv) : P (engineStreamDone env d i owner sv) := by
  unfold engineStreamDone
  split
  · split
    · exact kept_endClip K env d _ sv h
    · exact kept_loadHeads K env sv h
  · exact kept_loadHeads K env sv h

theorem kept_enginePassDone (env : Env) (d : ChannelId) (i : SlotId) (sv : Services) (h : P sv) :
    P (enginePassDone env d i sv) := by
  unfold enginePassDone
  split
  · split
    · exact kept_endClip K env d _ sv h
    · exact h
  · exact h

theorem kept_engineAbandoned (env : Env) (d : ChannelId) (i : SlotId) (r : AbandonReason)
    (owner : Nat) (sv : Services) (h : P sv) : P (engineAbandoned env d i r owner sv) := by
  unfold engineAbandoned
  extract_lets c isActive
  split
  · exact kept_endClip K env d _ sv h
  · split
    · exact kept_loadHeads K env _ (K.chan sv d _ (le_refl _) h)
    · exact kept_loadHeads K env sv h

theorem kept_gapOpened (env : Env) (a : Aud) (sv : Services) (h : P sv) : P (gapOpened env a sv) := by
  refine foldl_inv P _ (fun b d hb => ?_) _ sv h
  split
  · split
    · split
      · exact kept_tryZone K env d b hb
      · exact hb
    · exact hb
  · exact hb

theorem kept_engineHouseClosed (env : Env) (a : Aud) (sv : Services) (h : P sv) :
    P (engineHouseClosed env a sv) := by
  refine foldl_inv P _ (fun b d hb => ?_) _ sv h
  split
  · unfold standingHouseClosed
    split; · exact hb
    split; · exact hb
    split
    · exact kept_setActive K d _ _ (kept_setLoop K env _ _ b hb)
    · exact kept_endClip K env d _ b hb
  · exact hb

theorem kept_latestPassed (env : Env) (d : ChannelId) (sv : Services) (h : P sv) :
    P (latestPassed env d sv) := by
  unfold latestPassed
  split
  · split
    · exact kept_endClip K env d _ sv h
    · exact h
  · exact h

theorem kept_resumeLimitExpired (env : Env) (d : ChannelId) (sv : Services) (h : P sv) :
    P (resumeLimitExpired env d sv) := by
  unfold resumeLimitExpired
  split
  · split
    · exact kept_endClip K env d _ sv h
    · exact h
  · exact h

omit K in
theorem abandonOwned_channels (i : SlotId) (tag : Nat) (sv : Services) :
    (abandonOwned i tag sv).channels = sv.channels := by
  unfold abandonOwned abandonSlot
  split
  · dsimp only; split <;> rfl
  · rfl

theorem kept_clipDisarm (env : Env) (n id : Nat) (sv : Services) (h : P sv) :
    P (clipDisarm env n id sv).2 := by
  unfold clipDisarm
  split; · exact h
  rename_i d _
  extract_lets c queue wasHead sv1
  have k : P sv1 := by
    dsimp only [sv1]
    split
    · exact kept_loadHeads K env _ (kept_loadHead K env d _ (K.chan _ d _
        (by rw [abandonOwned_channels]; exact List.length_filter_le _ _)
        (kept_abandonOwned K _ _ sv h)))
    · exact kept_loadHead K env d _ (K.chan sv d _ (by exact List.length_filter_le _ _) h)
  have l : P (loadHead env d sv) := kept_loadHead K env d sv h
  split
  · split
    · exact l
    · split
      · exact l
      · exact k
  · split
    · exact l
    · split
      · exact l
      · exact k

theorem kept_clipStop (env : Env) (n : Nat) (sv : Services) (h : P sv) :
    P (clipStop env n sv).2 := by
  unfold clipStop
  split; · exact h
  split; · exact h
  split; · exact h
  split
  · exact h
  · exact kept_endClip K env _ _ sv h

theorem kept_modeScripted (env : Env) (n : Nat) (sv : Services) (h : P sv) :
    P (modeScripted env n sv).2 := by
  unfold modeScripted
  split; · exact h
  split; · exact h
  split; · exact h
  split; · exact h
  exact K.chan _ _ _ (le_refl _) (kept_endClip K env _ _ sv h)

theorem kept_modeStanding (env : Env) (n id len : Nat) (sv : Services) (h : P sv) :
    P (modeStanding env n id len sv).2 := by
  unfold modeStanding
  split; · exact h
  split; · exact h
  split; · exact h
  rename_i i _
  have k := kept_armSlot K env i id len true sv h
  split <;> rename_i e <;> rw [e] at k
  · exact K.chan _ _ _ (le_refl _) k
  · exact k

theorem kept_channelTeardown (env : Env) (d : ChannelId) (sv : Services) (h : P sv) :
    P (channelTeardown env d sv) :=
  K.chan _ d _ (by simp) (kept_endClip K env d _ sv h)

/-! ## The scheduler -/

theorem kept_endCall (env : Env) (id : Nat) (o : CallOutcome) (sv : Services) (h : P sv) :
    P (endCall env id o sv) := by
  unfold endCall
  split
  · exact h
  · rename_i k _
    extract_lets sv1 sv2 sv3 sv4
    have h1 : P sv1 := kept_releaseAll K env (.call id) _ (kept_stopChime K (.call id) sv h)
    have h2 : P sv2 := by
      dsimp only [sv2]
      split
      · exact kept_abandonOwned K _ _ _ h1
      · exact h1
    have h3 : P sv3 := K.book sv2 _ ⟨rfl, rfl, rfl, rfl, List.length_filter_le _ _,
      Or.inl (appendFinished_length _ _), rfl⟩ h2
    have h4 : P sv4 := kept_raise K env _ _ h3
    split
    · exact kept_oweWalk K _ h4
    · exact h4

theorem kept_beginMessage (env : Env) (id : Nat) (sv : Services) (h : P sv) :
    P (beginMessage env id sv) := by
  unfold beginMessage
  split
  · exact h
  · split
    · exact kept_updCall K id _ sv h
    · dsimp only
      split
      · exact kept_startSlot K env _ _ _ (kept_updCall K id _ sv h)
      · exact kept_resumeSlot K env _ _ (kept_updCall K id _ sv h)
    · exact kept_updCall K id _ sv h

theorem kept_endRepetition (env : Env) (id : Nat) (sv : Services) (h : P sv) :
    P (endRepetition env id sv) := by
  unfold endRepetition
  split
  · exact h
  · extract_lets finished sv1 sv2
    have k : P sv2 := kept_releaseAll K env _ _ (kept_updCall K id _ sv h)
    clear_value sv2
    split
    · exact kept_endCall K env id _ sv2 k
    · split
      · exact kept_oweWalk K sv2 k
      · exact k

theorem kept_beginRepetition (env : Env) (id : Nat) (sv : Services) (h : P sv) :
    P (beginRepetition env id sv) := by
  unfold beginRepetition
  split
  · exact h
  · split
    · exact kept_beginMessage K env id sv h
    · exact kept_startChime K _ _ _ (kept_updCall K id _ sv h)

theorem kept_startClaim (env : Env) (k : Call) (sv : Services) (h : P sv) :
    P (startClaim env k sv) := by
  have h1 := kept_setClaim K env (callClaim k.desc) k.desc.whole k.desc.targets sv h
  unfold startClaim
  extract_lets id
  generalize setClaim env (callClaim k.desc) k.desc.whole k.desc.targets sv = r at h1
  obtain ⟨answers, sv1⟩ := r
  dsimp only at h1 ⊢
  split
  · exact h1
  · exact kept_beginRepetition K env id _ (kept_updCall K id _ sv1 h1)

theorem kept_offerSlot (env : Env) (k : Call) (n : Nat) (sv : Services) (h : P sv) :
    P (offerSlot env k n sv).2 := by
  unfold offerSlot
  split
  · exact h
  · rename_i i _
    have h1 := kept_armSlot K env i k.desc.callId n (decide (1 < k.desc.repetitions)) sv h
    split <;> rename_i e <;> rw [e] at h1
    · exact kept_updCall K _ _ _ h1
    · exact h1

theorem kept_lateJoin (env : Env) (k : Call) (z : ZoneId) (sv : Services) (h : P sv) :
    P (lateJoin env k z sv) := by
  unfold lateJoin
  dsimp only
  split
  · exact kept_claim K env z _ sv h
  · exact h

theorem kept_callTurn (env : Env) (zs : List ZoneId) (k : Call) (r : Bool × Services) (h : P r.2) :
    P (if k.state = CallState.waiting ∧ k.ready then (r.1, startClaim env k r.2)
      else if k.state = CallState.playing ∧ !k.desc.whole then
        (r.1, zs.foldl (fun s z => lateJoin env k z s) r.2)
      else (r.1, r.2)).2 := by
  split
  · exact kept_startClaim K env k _ h
  · split
    · exact foldl_inv P _ (fun b z hb => kept_lateJoin K env k z b hb) _ _ h
    · exact h

theorem kept_walkCall (env : Env) (zs : List ZoneId) (acc : Bool × Services) (id : Nat)
    (h : P acc.2) : P (walkCall env zs acc id).2 := by
  obtain ⟨offering, sv⟩ := acc
  unfold walkCall
  dsimp only at h ⊢
  split
  · exact h
  · refine kept_callTurn K env zs _ _ ?_
    split
    · split
      · exact kept_offerSlot K env _ _ sv h
      · exact h
    · exact h

theorem kept_walk (env : Env) (sv : Services) (h : P sv) : P (walk env sv) := by
  have h1 : P { sv with walkDue := false, walkZones := [] } :=
    K.book sv _ ⟨rfl, rfl, rfl, rfl, le_refl _, Or.inr (le_refl _), rfl⟩ h
  exact foldl_inv (fun p : Bool × Services => P p.2) _
    (fun b id hb => kept_walkCall K env _ b id hb) _ (true, _) h1

theorem kept_callRelease (id : Nat) (sv : Services) (h : P sv) : P (callRelease id sv).2 := by
  unfold callRelease
  split
  · exact h
  · split
    · exact h
    · exact kept_oweWalk K _ (kept_updCall K id _ sv h)

theorem kept_callCancel (env : Env) (id : Nat) (sv : Services) (h : P sv) :
    P (callCancel env id sv).2 := by
  unfold callCancel
  split
  · exact h
  · exact kept_endCall K env id _ sv h

theorem kept_callEnd (env : Env) (id : Nat) (sv : Services) (h : P sv) : P (callEnd env id sv).2 := by
  unfold callEnd
  split
  · exact h
  · split
    · exact h
    · split
      · exact kept_updCall K id _ sv h
      · exact kept_endRepetition K env id sv h

theorem kept_callExpired (env : Env) (id : Nat) (sv : Services) (h : P sv) :
    P (callExpired env id sv) := by
  unfold callExpired
  split
  · split
    · exact kept_endCall K env id _ sv h
    · exact h
  · exact h

theorem kept_spacingExpired (id : Nat) (sv : Services) (h : P sv) : P (spacingExpired id sv) := by
  unfold spacingExpired
  split
  · split
    · exact kept_oweWalk K _ (kept_updCall K id _ sv h)
    · exact h
  · exact h

theorem kept_breakExpired (env : Env) (id : Nat) (sv : Services) (h : P sv) :
    P (breakExpired env id sv) := by
  unfold breakExpired
  split
  · split
    · exact kept_beginMessage K env id sv h
    · exact h
  · exact h

theorem kept_micExpired (env : Env) (id : Nat) (sv : Services) (h : P sv) :
    P (micExpired env id sv) := by
  unfold micExpired
  split
  · split
    · exact kept_endRepetition K env id sv h
    · exact h
  · exact h

theorem kept_callChimeEnded (env : Env) (id : Nat) (sv : Services) (h : P sv) :
    P (callChimeEnded env id sv) := by
  have h1 := kept_stopChime K (.call id) sv h
  unfold callChimeEnded
  split
  · exact h
  · dsimp only
    split
    · exact h1
    · split
      · exact h1
      · split
        · exact kept_endRepetition K env id _ h1
        · exact kept_updCall K id _ _ h1

theorem kept_schedulerPrefill (i : SlotId) (sv : Services) (h : P sv) : P (schedulerPrefill i sv) := by
  unfold schedulerPrefill
  split
  · exact kept_oweWalk K _ (kept_updCall K _ _ sv h)
  · exact kept_oweWalk K sv h

theorem kept_schedulerMessageDone (env : Env) (i : SlotId) (sv : Services) (h : P sv) :
    P (schedulerMessageDone env i sv) := by
  unfold schedulerMessageDone
  split
  · split
    · exact kept_endRepetition K env _ sv h
    · exact h
  · exact h

theorem kept_schedulerStreamDone (env : Env) (i : SlotId) (owner : Nat) (sv : Services) (h : P sv) :
    P (schedulerStreamDone env i owner sv) := by
  unfold schedulerStreamDone
  split
  · split
    · exact kept_oweWalk K _ (kept_schedulerMessageDone K env i sv h)
    · exact kept_oweWalk K sv h
  · exact kept_oweWalk K sv h

theorem kept_schedulerAbandoned (env : Env) (i : SlotId) (r : AbandonReason) (owner : Nat)
    (sv : Services) (h : P sv) : P (schedulerAbandoned env i r owner sv) := by
  unfold schedulerAbandoned
  split
  · split
    · exact kept_oweWalk K _ (kept_endCall K env owner _ sv h)
    · exact kept_oweWalk K sv h
  · exact kept_oweWalk K sv h

theorem kept_schedulerTeardown (env : Env) (sv : Services) (h : P sv) :
    P (schedulerTeardown env sv) := by
  have h1 := foldl_inv P (fun acc id => endCall env id .config acc)
    (fun b id hb => kept_endCall K env id _ b hb)
    ((queueOrder sv.calls).map (fun k => k.desc.callId)) sv h
  refine K.book _ (schedulerTeardown env sv) ?_ h1
  exact ⟨rfl, rfl, rfl, rfl, le_refl _, Or.inr (le_refl _), rfl⟩

/-! ## The admit chime, and the settling -/

theorem kept_chimePart (a : Aud) (z : ZoneId) (sv : Services) (h : P sv) : P (chimePart a z sv) := by
  unfold chimePart
  split
  · refine kept_updHouse K a _ ?_ sv h
    exact fun _ => rfl
  · exact h

theorem kept_chimeRetry (env : Env) (z : ZoneId) (a : Aud) (sv : Services) (h : P sv) :
    P (chimeRetry env z a sv) := by
  unfold chimeRetry
  split
  · have h1 := kept_claim K env z (admitClaim a) sv h
    dsimp only
    split
    · exact kept_chimePart K a z _ h1
    · exact h1
  · exact h

theorem kept_finishAdmitChime (env : Env) (a : Aud) (sv : Services) (h : P sv) :
    P (finishAdmitChime env a sv) := by
  have k := kept_releaseAll K env (.window a) _ (kept_stopChime K (.window a) sv h)
  refine kept_updHouse K a _ ?_ _ k
  exact fun _ => rfl

theorem kept_admitChimeEnded (env : Env) (a : Aud) (sv : Services) (h : P sv) :
    P (admitChimeEnded env a sv) := by
  unfold admitChimeEnded
  split
  · exact kept_finishAdmitChime K env a sv h
  · exact h

theorem kept_deliver (env : Env) (r : Report) (sv : Services) (h : P sv) : P (deliver env r sv) := by
  cases r with
  | claimPushed c z =>
    unfold deliver deliverPushed
    dsimp only
    split
    · exact kept_updCall K _ _ sv h
    · exact kept_clipPushed K env _ sv h
    · exact kept_chimePart K _ z sv h
    all_goals exact h
  | claimRestored c z =>
    unfold deliver deliverRestored
    dsimp only
    split
    · exact kept_clipRestored K env _ sv h
    · exact h
  | zoneLost c z =>
    unfold deliver deliverLost
    dsimp only
    split
    · exact kept_updCall K _ _ sv h
    · exact kept_clipLost K env _ sv h
    · exact kept_liveLost K _ sv h
    · exact kept_chimePart K _ z sv h
    all_goals exact h
  | zoneReleased z _ _ =>
    exact kept_chimeRetry K env z _ _ (kept_chimeRetry K env z _ _ (kept_engineRetry K env z sv h))
  | prefillReached i =>
    unfold deliver
    dsimp only
    split
    · exact kept_enginePrefill K env _ i sv h
    · exact kept_schedulerPrefill K i sv h
  | passDone i n =>
    unfold deliver
    dsimp only
    split
    · exact kept_enginePassDone K env _ i sv h
    · exact kept_schedulerMessageDone K env i sv h
  | streamDone i owner =>
    unfold deliver
    dsimp only
    split
    · exact kept_engineStreamDone K env _ i owner sv h
    · exact kept_schedulerStreamDone K env i owner sv h
  | slotAbandoned i reason owner =>
    unfold deliver
    dsimp only
    split
    · exact kept_engineAbandoned K env _ i reason owner sv h
    · exact kept_schedulerAbandoned K env i reason owner sv h

theorem kept_settleWith (fuel : Nat) (env : Env) (sv : Services) (h : P sv) :
    P (settleWith fuel env sv) := by
  induction fuel generalizing sv with
  | zero => exact h
  | succ n ih =>
    unfold settleWith
    split
    · exact ih _ (kept_deliver K env _ _ (kept_reports K _ sv h))
    · split
      · exact ih _ (kept_walk K env sv h)
      · exact h

theorem kept_settle (env : Env) (sv : Services) (h : P sv) : P (settle env sv) :=
  kept_settleWith K _ env sv h

omit K in
/-- Nothing in transit and no walk owed: nothing settles. -/
theorem settle_rest (env : Env) (sv : Services) (h1 : sv.reports = []) (h2 : sv.walkDue = false) :
    settle env sv = sv := by
  unfold settle settleFuel settleWith
  rw [h1, h2]
  rfl

omit K in
theorem settled_rest (s : State) (h1 : s.svc.reports = []) (h2 : s.svc.walkDue = false) :
    s.settled = s := by
  unfold State.settled State.serve
  rw [settle_rest _ _ h1 h2]

omit K in
/-- What the reports never touch. -/
theorem outer_is_kept (x : Services) : Kept (fun sv => outer sv = outer x) :=
  { book := fun _ _ b h => b.outer.trans h
    zone := fun _ _ _ _ h => h
    slot := fun _ _ _ _ _ h => h
    chan := fun _ _ _ _ h => h }

omit K in
@[simp] theorem outer_settle (env : Env) (sv : Services) : outer (settle env sv) = outer sv :=
  kept_settle (outer_is_kept sv) env sv rfl

end Sys2Proof.Laws
end

