-- ==== Sys2Proof/Laws/Acceptance.lean ====
section
/-! SUPPORT. How a request is accepted and how an event acts, said once: the provers cite these and do
not unfold `request`, `event` or the acceptance. -/

namespace Sys2Proof.Laws

open Sys2Proof.Machine

theorem taken_eq (tag : Byte) (kind : RequestKind) (s : State) :
    joinList tag kind (validFrame s) = taken tag kind s := by
  unfold joinList validFrame taken silenceAfterFrame State.updLink Services.setLink startSilence
  by_cases h : s.control.running = true <;> simp [h]

theorem reply_eq (tag : Byte) (kind : RequestKind) (st : Status) (bytes : List Byte) (s : State) :
    s.reply tag kind (.plain st bytes) = answered tag kind st bytes s := rfl

theorem refuse_eq (tag : Byte) (kind : RequestKind) (st : Status) (s : State) :
    s.reply tag kind (.refuse st) = answered tag kind st [] s := rfl

/-- A request that is accepted: its owner's work, then the reports. -/
theorem request_ready {s : State} (h : Ready s) (tag : Byte) (kind : RequestKind)
    (w : State → State) : request tag kind w s = .next (w (taken tag kind s)).settled := by
  have hl : (validFrame s).svc.link.outstanding = s.svc.link.outstanding := by
    simp only [validFrame, State.updLink, Services.setLink]
    split <;> rfl
  have hr := h.room
  unfold request accept
  have hn : ¬ 4 ≤ s.svc.link.outstanding.length := by omega
  rw [h.up, h.accepting, hl, taken_eq]
  simp [hn]

/-- A request whose owner's work leaves nothing in transit. -/
theorem request_quiet {s : State} (h : Ready s) (tag : Byte) (kind : RequestKind)
    (w : State → State) (h1 : (w (taken tag kind s)).svc.reports = [])
    (h2 : (w (taken tag kind s)).svc.walkDue = false) :
    request tag kind w s = .next (w (taken tag kind s)) := by
  rw [request_ready h, settled_rest _ h1 h2]

/-- An event acts, then the reports. -/
theorem event_still {s : State} (h : Still s) (w : State → State) :
    event w s = .next (w s).settled := by
  unfold event; rw [h.up]; rfl

/-- An event whose work leaves nothing in transit. -/
theorem event_quiet {s : State} (h : Still s) (w : State → State) (h1 : (w s).svc.reports = [])
    (h2 : (w s).svc.walkDue = false) : event w s = .next (w s) := by
  rw [event_still h, settled_rest _ h1 h2]

/-! ## What acceptance leaves as it was -/

section taken

variable (tag : Byte) (kind : RequestKind) (s : State)

@[simp] theorem taken_control : (taken tag kind s).control = s.control := rfl
@[simp] theorem taken_sup : (taken tag kind s).sup = s.sup := rfl
@[simp] theorem taken_cue : (taken tag kind s).cue = s.cue := rfl
@[simp] theorem taken_quiet : (taken tag kind s).quiet = s.quiet := rfl
@[simp] theorem taken_console : (taken tag kind s).console = s.console := rfl
@[simp] theorem taken_pins : (taken tag kind s).pins = s.pins := rfl
@[simp] theorem taken_pending : (taken tag kind s).pending = s.pending := rfl
@[simp] theorem taken_env : (taken tag kind s).env = s.env := rfl
@[simp] theorem taken_zones : (taken tag kind s).svc.zones = s.svc.zones := rfl
@[simp] theorem taken_override : (taken tag kind s).svc.override = s.svc.override := rfl
@[simp] theorem taken_free : (taken tag kind s).svc.free = s.svc.free := rfl
@[simp] theorem taken_slots : (taken tag kind s).svc.slots = s.svc.slots := rfl
@[simp] theorem taken_channels : (taken tag kind s).svc.channels = s.svc.channels := rfl
@[simp] theorem taken_calls : (taken tag kind s).svc.calls = s.svc.calls := rfl
@[simp] theorem taken_finished : (taken tag kind s).svc.finished = s.svc.finished := rfl
@[simp] theorem taken_callClock : (taken tag kind s).svc.callClock = s.svc.callClock := rfl
@[simp] theorem taken_chimes : (taken tag kind s).svc.chimes = s.svc.chimes := rfl
@[simp] theorem taken_walkDue : (taken tag kind s).svc.walkDue = s.svc.walkDue := rfl
@[simp] theorem taken_houses : (taken tag kind s).svc.houses = s.svc.houses := rfl
@[simp] theorem taken_entrances : (taken tag kind s).svc.entrances = s.svc.entrances := rfl
@[simp] theorem taken_reports : (taken tag kind s).svc.reports = s.svc.reports := rfl
@[simp] theorem taken_pendingKinds :
    (taken tag kind s).svc.link.pendingKinds = s.svc.link.pendingKinds := rfl
@[simp] theorem taken_gateOpen : (taken tag kind s).svc.link.gateOpen = s.svc.link.gateOpen := rfl
@[simp] theorem taken_tx : (taken tag kind s).svc.link.tx = s.svc.link.tx := rfl

end taken

end Sys2Proof.Laws
end

