-- ==== Sys2Proof/Laws/Router.lean ====
section
/-! SUPPORT. What the router's operations change: the zone records, the reports and the walk that is
owed, and nothing else (`OnRouter`); what a release leaves in a zone; and which zones an operation
leaves as they were. -/

namespace Sys2Proof.Laws

open Sys2Proof.Machine

/-- `sv'` differs from `sv` in zone records, reports and owed walks only. -/
structure OnRouter (sv sv' : Services) : Prop where
  same : { sv' with zones := sv.zones, reports := sv.reports, walkDue := sv.walkDue
                    walkZones := sv.walkZones } = sv

namespace OnRouter

variable {a b c : Services}

theorem refl (a : Services) : OnRouter a a := ⟨rfl⟩

theorem trans (h : OnRouter a b) (k : OnRouter b c) : OnRouter a c := by
  constructor
  have h1 := h.same
  have h2 := k.same
  rw [← h2] at h1
  exact h1

theorem override (h : OnRouter a b) : b.override = a.override := by rw [← h.same]
theorem free (h : OnRouter a b) : b.free = a.free := by rw [← h.same]
theorem slots (h : OnRouter a b) : b.slots = a.slots := by rw [← h.same]
theorem channels (h : OnRouter a b) : b.channels = a.channels := by rw [← h.same]
theorem keyA (h : OnRouter a b) : b.keyA = a.keyA := by rw [← h.same]
theorem keyB (h : OnRouter a b) : b.keyB = a.keyB := by rw [← h.same]
theorem calls (h : OnRouter a b) : b.calls = a.calls := by rw [← h.same]
theorem finished (h : OnRouter a b) : b.finished = a.finished := by rw [← h.same]
theorem callClock (h : OnRouter a b) : b.callClock = a.callClock := by rw [← h.same]
theorem chimes (h : OnRouter a b) : b.chimes = a.chimes := by rw [← h.same]
theorem houses (h : OnRouter a b) : b.houses = a.houses := by rw [← h.same]
theorem entrances (h : OnRouter a b) : b.entrances = a.entrances := by rw [← h.same]
theorem link (h : OnRouter a b) : b.link = a.link := by rw [← h.same]

/-- A fold of such operations is one. -/
theorem foldl {α : Type} {f : Services → α → Services} (hf : ∀ s x, OnRouter s (f s x)) :
    ∀ (l : List α) (s : Services), OnRouter s (l.foldl f s)
  | [], s => refl s
  | x :: l, s => (hf s x).trans (foldl hf l (f s x))

end OnRouter

theorem onRouter_putZone (z : ZoneId) (r : ZoneRecord) (sv : Services) : OnRouter sv (putZone z r sv) :=
  ⟨rfl⟩

theorem onRouter_report (r : Report) (sv : Services) : OnRouter sv (sv.report r) := ⟨rfl⟩

theorem onRouter_loseClaim (z : ZoneId) (sv : Services) (c : Claim) : OnRouter sv (loseClaim z sv c) := by
  unfold loseClaim
  split <;> first | exact onRouter_putZone _ _ _ | exact onRouter_report _ _ | exact OnRouter.refl _

theorem onRouter_loseClaims (z : ZoneId) (l : List Claim) (sv : Services) :
    OnRouter sv (loseClaims z l sv) := OnRouter.foldl (onRouter_loseClaim z) l sv

theorem onRouter_zoneRelease (env : Env) (z : ZoneId) (sv : Services) :
    OnRouter sv (sendZoneRelease env z sv) := by
  unfold sendZoneRelease
  split
  · exact ⟨rfl⟩
  · exact OnRouter.refl _

theorem onRouter_grant (env : Env) (z : ZoneId) (c : Claim) (sv : Services) :
    OnRouter sv (grant env z c sv) := by
  unfold grant
  dsimp only
  split
  · exact (onRouter_putZone _ _ _).trans (onRouter_zoneRelease _ _ _)
  · exact (((onRouter_putZone _ _ _).trans (onRouter_loseClaims _ _ _)).trans
      (onRouter_report _ _)).trans (onRouter_zoneRelease _ _ _)

theorem onRouter_claim (env : Env) (z : ZoneId) (c : Claim) (sv : Services) :
    OnRouter sv (claim env z c sv).2 := by
  unfold claim
  split
  · exact OnRouter.refl _
  · split
    · exact onRouter_grant _ _ _ _
    · exact OnRouter.refl _

theorem onRouter_setClaim (env : Env) (c : Claim) (whole : Bool) (zs : List ZoneId) (sv : Services) :
    OnRouter sv (setClaim env c whole zs sv).2 := by
  unfold setClaim
  dsimp only
  split
  · exact OnRouter.refl _
  · split
    · exact OnRouter.refl _
    · refine OnRouter.foldl (fun s p => ?_) _ _
      split
      · exact onRouter_grant _ _ _ _
      · exact OnRouter.refl _

theorem onRouter_pop (env : Env) (z : ZoneId) (sv : Services) : OnRouter sv (pop env z sv) := by
  unfold pop
  dsimp only
  split
  · exact ((onRouter_putZone _ _ _).trans (onRouter_loseClaims _ _ _)).trans
      (onRouter_zoneRelease _ _ _)
  · exact (((onRouter_putZone _ _ _).trans (onRouter_loseClaims _ _ _)).trans
      (onRouter_report _ _)).trans (onRouter_zoneRelease _ _ _)

theorem onRouter_release (env : Env) (who : Claimant) (z : ZoneId) (sv : Services) :
    OnRouter sv (release env who z sv) := by
  unfold release
  dsimp only
  split
  · exact (onRouter_putZone _ _ _).trans (onRouter_pop _ _ _)
  · exact onRouter_putZone _ _ _

theorem onRouter_releaseAll (env : Env) (who : Claimant) (sv : Services) :
    OnRouter sv (releaseAll env who sv) :=
  OnRouter.foldl (fun s z => onRouter_release env who z s) _ sv

theorem onRouter_hold (env : Env) (z : ZoneId) (sv : Services) : OnRouter sv (hold env z sv) := by
  unfold hold
  dsimp only
  split
  · split
    · exact ((onRouter_putZone _ _ _).trans (onRouter_loseClaim _ _ _)).trans (onRouter_pop _ _ _)
    · exact onRouter_putZone _ _ _
  · exact onRouter_putZone _ _ _

theorem onRouter_unhold (env : Env) (z : ZoneId) (sv : Services) : OnRouter sv (unhold env z sv) := by
  unfold unhold
  dsimp only
  split
  · exact (onRouter_putZone _ _ _).trans (onRouter_zoneRelease _ _ _)
  · exact onRouter_putZone _ _ _

theorem onRouter_overrideClaim (env : Env) (sv : Services) : OnRouter sv (overrideClaim env sv) :=
  OnRouter.foldl (fun s z => onRouter_claim env z _ s) _ sv

theorem onRouter_endTest (env : Env) (src : TestSource) (z : ZoneId) (sv : Services) :
    OnRouter sv (endTest env src z sv) := (onRouter_putZone _ _ _).trans (onRouter_release _ _ _ _)

/-! ## Zones an operation leaves as they were -/

theorem zone_putZone {z y : ZoneId} (h : y ≠ z) (r : ZoneRecord) (sv : Services) :
    look (putZone z r sv).zones y = look sv.zones y := by
  simp only [putZone, look_put]
  exact if_neg (Ne.symm h)

theorem zone_zoneRelease (env : Env) (z y : ZoneId) (sv : Services) :
    look (sendZoneRelease env z sv).zones y = look sv.zones y := by
  unfold sendZoneRelease
  split <;> rfl

theorem zone_loseClaim {z y : ZoneId} (h : y ≠ z) (sv : Services) (c : Claim) :
    look (loseClaim z sv c).zones y = look sv.zones y := by
  unfold loseClaim
  split <;> first | exact zone_putZone h _ _ | rfl

theorem zone_foldl {α : Type} {f : Services → α → Services} {y : ZoneId}
    (hf : ∀ s x, look (f s x).zones y = look s.zones y) :
    ∀ (l : List α) (s : Services), look (l.foldl f s).zones y = look s.zones y
  | [], _ => rfl
  | x :: l, s => (zone_foldl hf l (f s x)).trans (hf s x)

theorem zone_grant {z y : ZoneId} (h : y ≠ z) (env : Env) (c : Claim) (sv : Services) :
    look (grant env z c sv).zones y = look sv.zones y := by
  unfold grant
  dsimp only
  split
  · rw [zone_zoneRelease]
    exact zone_putZone h _ _
  · rw [zone_zoneRelease]
    exact (zone_foldl (fun s x => zone_loseClaim h s x) _ _).trans (zone_putZone h _ _)

theorem zone_claim {z y : ZoneId} (h : y ≠ z) (env : Env) (c : Claim) (sv : Services) :
    look (claim env z c sv).2.zones y = look sv.zones y := by
  unfold claim
  split
  · rfl
  · split
    · exact zone_grant h _ _ _
    · rfl

theorem zone_pop {z y : ZoneId} (h : y ≠ z) (env : Env) (sv : Services) :
    look (pop env z sv).zones y = look sv.zones y := by
  unfold pop
  dsimp only
  split
  · rw [zone_zoneRelease]
    exact (zone_foldl (fun s x => zone_loseClaim h s x) _ _).trans (zone_putZone h _ _)
  · rw [zone_zoneRelease]
    exact (zone_foldl (fun s x => zone_loseClaim h s x) _ _).trans (zone_putZone h _ _)

theorem zone_release {z y : ZoneId} (h : y ≠ z) (env : Env) (who : Claimant) (sv : Services) :
    look (release env who z sv).zones y = look sv.zones y := by
  unfold release
  dsimp only
  split
  · exact (zone_pop h _ _).trans (zone_putZone h _ _)
  · exact zone_putZone h _ _

/-! ## What a claim and a release leave in their zone -/

/-- A test's timer does not show in the active claim or the stack. -/
theorem setTest_claims (r : ZoneRecord) (src : TestSource) (t : Option Nat) :
    (r.setTest src t).active = r.active ∧ (r.setTest src t).stack = r.stack := by
  cases src <;> exact ⟨rfl, rfl⟩

theorem loseClaim_claims (z : ZoneId) (sv : Services) (c : Claim) :
    (look (loseClaim z sv c).zones z).active = (look sv.zones z).active
      ∧ (look (loseClaim z sv c).zones z).stack = (look sv.zones z).stack := by
  unfold loseClaim
  split <;> simp [putZone, setTest_claims, Services.report]

theorem loseClaims_claims (z : ZoneId) : ∀ (l : List Claim) (sv : Services),
    (look (loseClaims z l sv).zones z).active = (look sv.zones z).active
      ∧ (look (loseClaims z l sv).zones z).stack = (look sv.zones z).stack
  | [], _ => ⟨rfl, rfl⟩
  | c :: l, sv => by
    have h1 := loseClaims_claims z l (loseClaim z sv c)
    have h2 := loseClaim_claims z sv c
    exact ⟨h1.1.trans h2.1, h1.2.trans h2.2⟩

/-- R7: a granted claim is the active claim. -/
theorem grant_active (env : Env) (z : ZoneId) (c : Claim) (sv : Services) :
    (look (grant env z c sv).zones z).active = some c := by
  unfold grant
  dsimp only
  split
  · rw [zone_zoneRelease]
    simp [putZone]
  · rw [zone_zoneRelease]
    exact (loseClaims_claims z _ _).1.trans (by simp [putZone])

/-- R10: what a scan takes from a stack it takes from the stack. -/
theorem popScan_sub (held : Bool) : ∀ l : List Claim,
    (∀ c, (popScan held l).2.1 = some c → c ∈ l) ∧ ∀ c ∈ (popScan held l).2.2, c ∈ l
  | [] => ⟨fun _ h => by simp [popScan] at h, fun _ h => by simp [popScan] at h⟩
  | c :: rest => by
    have ih := popScan_sub held rest
    unfold popScan
    split
    · exact ⟨fun x h => List.mem_cons_of_mem c (ih.1 x h), fun x h => List.mem_cons_of_mem c (ih.2 x h)⟩
    · exact ⟨fun x h => by simp_all, fun x h => List.mem_cons_of_mem c h⟩

/-- R10: after a pop the active claim and the stack come from the former stack. -/
theorem pop_claims (env : Env) (z : ZoneId) (sv : Services) :
    (∀ c, (look (pop env z sv).zones z).active = some c → c ∈ (look sv.zones z).stack)
      ∧ ∀ c ∈ (look (pop env z sv).zones z).stack, c ∈ (look sv.zones z).stack := by
  have key := popScan_sub (decide (0 < (look sv.zones z).holds)) (look sv.zones z).stack
  unfold pop
  dsimp only
  split
  · rw [zone_zoneRelease, (loseClaims_claims z _ _).1, (loseClaims_claims z _ _).2]
    simp only [putZone, look_put, if_true]
    exact key
  · rw [zone_zoneRelease]
    simp only [Services.report]
    rw [(loseClaims_claims z _ _).1, (loseClaims_claims z _ _).2]
    simp only [putZone, look_put, if_true]
    exact key

/-- R9: after a release the claimant has no claim in the zone. -/
theorem release_gone (env : Env) (who : Claimant) (z : ZoneId) (sv : Services) :
    (look (release env who z sv).zones z).carries who = false
      ∧ (look (release env who z sv).zones z).stacks who = false := by
  unfold release
  dsimp only
  split
  · have h := pop_claims env z (putZone z
      { look sv.zones z with
        active := none, stack := (look sv.zones z).stack.filter (fun c => c.who != who) } sv)
    simp only [putZone, look_put, if_true, List.mem_filter] at h
    constructor
    · unfold ZoneRecord.carries
      split
      · rfl
      · rename_i c hc
        have := (h.1 c hc).2
        simpa using this
    · simp only [ZoneRecord.stacks, List.any_eq_false]
      intro c hc
      have := (h.2 c hc).2
      simpa using this
  · rename_i hc
    simp only [putZone, look_put, if_true, ZoneRecord.stacks, List.any_eq_false, List.mem_filter]
    exact ⟨by simpa [ZoneRecord.carries] using hc, fun c h => by simpa using h.2⟩

/-- R9: after a release on all zones the claimant has no claim. -/
theorem releaseAll_gone (env : Env) (who : Claimant) (sv : Services) (z : ZoneId) :
    (look (releaseAll env who sv).zones z).carries who = false
      ∧ (look (releaseAll env who sv).zones z).stacks who = false := by
  have key : ∀ (l : List ZoneId) (s : Services),
      (z ∈ l ∨ ((look s.zones z).carries who = false ∧ (look s.zones z).stacks who = false)) →
      (look (l.foldl (fun acc y => release env who y acc) s).zones z).carries who = false
        ∧ (look (l.foldl (fun acc y => release env who y acc) s).zones z).stacks who = false := by
    intro l
    induction l with
    | nil => intro s h; exact h.resolve_left (by simp)
    | cons y l ih =>
      intro s h
      refine ih (release env who y s) ?_
      by_cases hy : z = y
      · subst hy
        exact Or.inr (release_gone env who z s)
      · rw [zone_release hy]
        rcases h with h | h
        · exact Or.inl ((List.mem_cons.mp h).resolve_left hy)
        · exact Or.inr h
  exact key allZones sv (Or.inl (List.mem_finRange z))

end Sys2Proof.Laws
end

