-- ==== Sys2Proof/Laws/Ends.lean ====
section
/-! SUPPORT. How clips, calls and repetitions end, said once over the services: the provers cite these
for every command that ends one. -/

namespace Sys2Proof.Laws

open Sys2Proof.Machine

/-! ## The pool -/

/-- What putting a slot leaves as it was: all but the slots and, when the slot begins to want feed,
the notices of the link port. -/
structure OnPool (sv sv' : Services) : Prop where
  zones : sv'.zones = sv.zones
  override : sv'.override = sv.override
  channels : sv'.channels = sv.channels
  keys : sv'.keyA = sv.keyA ∧ sv'.keyB = sv.keyB
  calls : sv'.calls = sv.calls
  finished : sv'.finished = sv.finished
  callClock : sv'.callClock = sv.callClock
  chimes : sv'.chimes = sv.chimes
  houses : sv'.houses = sv.houses
  entrances : sv'.entrances = sv.entrances
  kinds : ∀ m : Word16, sv.link.pendingKinds &&& m = m → sv'.link.pendingKinds &&& m = m

theorem OnPool.refl (sv : Services) : OnPool sv sv :=
  ⟨rfl, rfl, rfl, ⟨rfl, rfl⟩, rfl, rfl, rfl, rfl, rfl, rfl, fun _ h => h⟩

theorem OnPool.trans {a b c : Services} (h : OnPool a b) (k : OnPool b c) : OnPool a c :=
  ⟨k.zones.trans h.zones, k.override.trans h.override, k.channels.trans h.channels,
   ⟨k.keys.1.trans h.keys.1, k.keys.2.trans h.keys.2⟩, k.calls.trans h.calls,
   k.finished.trans h.finished, k.callClock.trans h.callClock, k.chimes.trans h.chimes,
   k.houses.trans h.houses, k.entrances.trans h.entrances, fun m e => k.kinds m (h.kinds m e)⟩

theorem judgeNotice_kinds (env : Env) (l : LinkPort) :
    (judgeNotice env l).pendingKinds = l.pendingKinds := by
  unfold judgeNotice
  split <;> rfl

theorem raise_kinds (env : Env) (k : NoticeKind) (sv : Services) :
    (raise env k sv).link.pendingKinds = sv.link.pendingKinds ||| k.mask := judgeNotice_kinds _ _

/-- A pending kind stays pending when another is raised. -/
theorem kinds_or (a b m : Word16) (h : a &&& m = m) : (a ||| b) &&& m = m := by
  rw [← h]
  ext i hi
  simp only [BitVec.getElem_and, BitVec.getElem_or]
  cases a[i] <;> cases m[i] <;> cases b[i] <;> rfl

/-- A kind that has been raised is pending. -/
theorem kinds_raised (a m : Word16) : (a ||| m) &&& m = m := by
  ext i hi
  simp only [BitVec.getElem_and, BitVec.getElem_or]
  cases a[i] <;> cases m[i] <;> rfl

theorem onPool_raise (env : Env) (k : NoticeKind) (sv : Services) : OnPool sv (raise env k sv) :=
  ⟨rfl, rfl, rfl, ⟨rfl, rfl⟩, rfl, rfl, rfl, rfl, rfl, rfl,
   fun m h => by rw [raise_kinds]; exact kinds_or _ _ _ h⟩

theorem onPool_putSlot (env : Env) (i : SlotId) (sl : Slot) (sv : Services) :
    OnPool sv (putSlot env i sl sv) := by
  unfold putSlot
  dsimp only
  split
  · exact OnPool.trans (b := { sv with slots := put sv.slots i sl })
      ⟨rfl, rfl, rfl, ⟨rfl, rfl⟩, rfl, rfl, rfl, rfl, rfl, rfl, fun _ h => h⟩ (onPool_raise _ _ _)
  · exact ⟨rfl, rfl, rfl, ⟨rfl, rfl⟩, rfl, rfl, rfl, rfl, rfl, rfl, fun _ h => h⟩

theorem onPool_armSlot (env : Env) (i : SlotId) (tag n : Nat) (b : Bool) (sv : Services) :
    OnPool sv (armSlot env i tag n b sv).2 := by
  unfold armSlot
  repeat' split
  all_goals first | exact OnPool.refl _ | exact onPool_putSlot _ _ _ _

theorem onPool_startSlot (env : Env) (i : SlotId) (b : Bool) (sv : Services) :
    OnPool sv (startSlot env i b sv).2 := by
  unfold startSlot
  dsimp only
  repeat' split
  all_goals first | exact OnPool.refl _ | exact onPool_putSlot _ _ _ _

theorem onPool_resumeSlot (env : Env) (i : SlotId) (sv : Services) :
    OnPool sv (resumeSlot env i sv).2 := by
  unfold resumeSlot
  dsimp only
  repeat' split
  all_goals first | exact OnPool.refl _ | exact onPool_putSlot _ _ _ _

theorem onPool_abandonSlot (i : SlotId) (sv : Services) : OnPool sv (abandonSlot i sv) := by
  unfold abandonSlot
  dsimp only
  split
  · exact OnPool.refl _
  · exact ⟨rfl, rfl, rfl, ⟨rfl, rfl⟩, rfl, rfl, rfl, rfl, rfl, rfl, fun _ h => h⟩

theorem onPool_abandonOwned (i : SlotId) (tag : Nat) (sv : Services) :
    OnPool sv (abandonOwned i tag sv) := by
  unfold abandonOwned
  split
  · exact onPool_abandonSlot _ _
  · exact OnPool.refl _

/-! ## Loading heads -/

/-- What loading heads leaves as it was: the zones, calls, chimes, houses and entrances, and of each
channel all but the head's slot. -/
structure OnHeads (sv sv' : Services) : Prop where
  zones : sv'.zones = sv.zones
  calls : sv'.calls = sv.calls
  finished : sv'.finished = sv.finished
  callClock : sv'.callClock = sv.callClock
  chimes : sv'.chimes = sv.chimes
  houses : sv'.houses = sv.houses
  entrances : sv'.entrances = sv.entrances
  channels : ∀ d, { look sv'.channels d with
      headSlot := (look sv.channels d).headSlot, headFilled := (look sv.channels d).headFilled }
    = look sv.channels d
  kinds : ∀ m : Word16, sv.link.pendingKinds &&& m = m → sv'.link.pendingKinds &&& m = m

theorem OnHeads.refl (sv : Services) : OnHeads sv sv :=
  ⟨rfl, rfl, rfl, rfl, rfl, rfl, rfl, fun _ => rfl, fun _ h => h⟩

theorem OnHeads.trans {a b c : Services} (h : OnHeads a b) (k : OnHeads b c) : OnHeads a c :=
  ⟨k.zones.trans h.zones, k.calls.trans h.calls, k.finished.trans h.finished,
   k.callClock.trans h.callClock, k.chimes.trans h.chimes, k.houses.trans h.houses,
   k.entrances.trans h.entrances,
   fun d => by
    have h1 := h.channels d
    rw [← k.channels d] at h1
    exact h1, fun m e => k.kinds m (h.kinds m e)⟩

theorem OnHeads.active {a b : Services} (h : OnHeads a b) (d : ChannelId) :
    (look b.channels d).active = (look a.channels d).active := by rw [← h.channels d]
theorem OnHeads.queue {a b : Services} (h : OnHeads a b) (d : ChannelId) :
    (look b.channels d).queue = (look a.channels d).queue := by rw [← h.channels d]
theorem OnHeads.mode {a b : Services} (h : OnHeads a b) (d : ChannelId) :
    (look b.channels d).mode = (look a.channels d).mode := by rw [← h.channels d]
theorem OnHeads.lastOutcome {a b : Services} (h : OnHeads a b) (d : ChannelId) :
    (look b.channels d).lastOutcome = (look a.channels d).lastOutcome := by rw [← h.channels d]

theorem onHeads_loadHead (env : Env) (d : ChannelId) (sv : Services) :
    OnHeads sv (loadHead env d sv) := by
  unfold loadHead
  dsimp only
  split
  · rename_i head _ i _ _ _
    split
    · have p := onPool_armSlot env i head.clipId head.length false sv
      revert p
      rcases armSlot env i head.clipId head.length false sv with ⟨st, sv1⟩
      intro p
      have base : OnHeads sv sv1 :=
        ⟨p.zones, p.calls, p.finished, p.callClock, p.chimes, p.houses, p.entrances,
          fun y => by rw [p.channels], p.kinds⟩
      cases st
      all_goals first
        | exact base
        | refine base.trans ⟨rfl, rfl, rfl, rfl, rfl, rfl, rfl, fun y => ?_, fun _ h => h⟩
          simp only [putChannel, look_put]
          split
          · rename_i hy
            subst hy
            rfl
          · rfl
    · exact OnHeads.refl _
  · exact OnHeads.refl _

theorem onHeads_loadHeads (env : Env) (sv : Services) : OnHeads sv (loadHeads env sv) := by
  have key : ∀ (l : List ChannelId) (s : Services),
      OnHeads s (l.foldl (fun acc d => loadHead env d acc) s) := by
    intro l
    induction l with
    | nil => exact OnHeads.refl
    | cons d l ih => exact fun s => (onHeads_loadHead env d s).trans (ih _)
  exact key _ sv

/-! ## The end of a clip (R109) -/

/-- R109, R120: what the end of the active clip of a channel leaves. -/
theorem endClip_ends (env : Env) (d : ChannelId) (outcome : ClipOutcome) (sv : Services)
    (k : ActiveClip) (h : (look sv.channels d).active = some k) :
    let sv' := endClip env d outcome sv
    (look sv'.channels d).active = none
      ∧ (look sv'.channels d).lastOutcome = some
        { clipId := k.desc.clipId, outcome := outcome, clock := channelClock env d
          standing := k.standing }
      ∧ (look sv'.channels d).mode = (if k.standing then .scripted else (look sv.channels d).mode)
      ∧ (look sv'.channels d).queue = (look sv.channels d).queue
      ∧ (∀ z, (look sv'.zones z).carries (.clip d) = false ∧ (look sv'.zones z).stacks (.clip d) = false)
      ∧ sv'.link.pendingKinds &&& 0x0008 = 0x0008
      ∧ (∀ e, e ≠ d → (look sv'.channels e).active = (look sv.channels e).active
          ∧ (look sv'.channels e).queue = (look sv.channels e).queue)
      ∧ sv'.calls = sv.calls ∧ sv'.houses = sv.houses ∧ sv'.finished = sv.finished
      ∧ sv'.entrances = sv.entrances ∧ sv'.chimes = sv.chimes := by
  intro sv'
  have r := onRouter_releaseAll env (.clip d) sv
  have p := onPool_abandonOwned k.slot k.desc.clipId (releaseAll env (.clip d) sv)
  have hc : (abandonOwned k.slot k.desc.clipId (releaseAll env (.clip d) sv)).channels = sv.channels :=
    p.channels.trans r.channels
  have hv : sv' = loadHeads env (raise env .clip (putChannel d
      { look sv.channels d with
        active := none, mode := if k.standing then .scripted else (look sv.channels d).mode
        lastOutcome := some { clipId := k.desc.clipId, outcome := outcome
                              clock := channelClock env d, standing := k.standing } }
      (abandonOwned k.slot k.desc.clipId (releaseAll env (.clip d) sv)))) := by
    simp only [sv', endClip, h, hc]
  have q := onHeads_loadHeads env (raise env .clip (putChannel d
      { look sv.channels d with
        active := none, mode := if k.standing then .scripted else (look sv.channels d).mode
        lastOutcome := some { clipId := k.desc.clipId, outcome := outcome
                              clock := channelClock env d, standing := k.standing } }
      (abandonOwned k.slot k.desc.clipId (releaseAll env (.clip d) sv))))
  rw [← hv] at q
  refine ⟨?_, ?_, ?_, ?_, fun z => ?_, ?_, fun e he => ⟨?_, ?_⟩, ?_, ?_, ?_, ?_, ?_⟩
  · rw [q.active]; simp [raise, putChannel]
  · rw [q.lastOutcome]; simp [raise, putChannel]
  · rw [q.mode]; simp [raise, putChannel]
  · rw [q.queue]; simp [raise, putChannel]
  · rw [q.zones]
    simp only [raise, putChannel, p.zones]
    exact releaseAll_gone env (.clip d) sv z
  · exact q.kinds _ (by rw [raise_kinds]; exact kinds_raised _ _)
  · rw [q.active]; simp [raise, putChannel, look_put_of_ne _ (Ne.symm he), hc]
  · rw [q.queue]; simp [raise, putChannel, look_put_of_ne _ (Ne.symm he), hc]
  · rw [q.calls]
    simp only [raise, putChannel]
    exact p.calls.trans r.calls
  · rw [q.houses]
    simp only [raise, putChannel]
    exact p.houses.trans r.houses
  · rw [q.finished]
    simp only [raise, putChannel]
    exact p.finished.trans r.finished
  · rw [q.entrances]
    simp only [raise, putChannel]
    exact p.entrances.trans r.entrances
  · rw [q.chimes]
    simp only [raise, putChannel]
    exact p.chimes.trans r.chimes

/-! ## The end of a call and of a repetition (R128, R143) -/

theorem findCall_updCall (id : Nat) (f : Call → Call) (sv : Services) (k : Call)
    (hf : ∀ c, (f c).desc = c.desc) (h : findCall id sv = some k) :
    findCall id (updCall id f sv) = some (f k) := by
  unfold findCall updCall at *
  simp only
  revert h
  induction sv.calls with
  | nil => intro h; simp at h
  | cons c l ih =>
    intro h
    by_cases hc : c.desc.callId = id
    · simp only [List.map_cons, hc, if_true, List.find?_cons, hf, beq_self_eq_true] at h ⊢
      rw [Option.some.inj h]
    · have hb : (c.desc.callId == id) = false := by simpa using hc
      simp only [List.map_cons, hc, if_false, List.find?_cons, hb] at h ⊢
      exact ih h

theorem findCall_id {id : Nat} {sv : Services} {k : Call} (h : findCall id sv = some k) :
    k.desc.callId = id := by
  have := List.find?_some h
  simpa using this

/-- R128, R129: what the end of a live call leaves. -/
theorem endCall_ends (env : Env) (id : Nat) (outcome : CallOutcome) (sv : Services) (k : Call)
    (h : findCall id sv = some k) :
    let sv' := endCall env id outcome sv
    findCall id sv' = none
      ∧ (∀ c ∈ sv.calls, c.desc.callId ≠ id → c ∈ sv'.calls)
      ∧ sv'.finished = appendFinished (finishedOf k sv.callClock outcome) sv.finished
      ∧ (∀ z, (look sv'.zones z).carries (.call id) = false ∧ (look sv'.zones z).stacks (.call id) = false)
      ∧ sv'.link.pendingKinds &&& 0x0040 = 0x0040
      ∧ sv'.channels = sv.channels ∧ sv'.houses = sv.houses ∧ sv'.entrances = sv.entrances
      ∧ chimeSounds (.call id) sv' = false := by
  intro sv'
  have r := onRouter_releaseAll env (.call id) (stopChime (.call id) sv)
  obtain ⟨sv2, hp, hv⟩ : ∃ sv2, OnPool (releaseAll env (.call id) (stopChime (.call id) sv)) sv2
      ∧ sv' = (if k.slot.isSome then oweWalk (raise env .call { sv2 with
          calls := sv2.calls.filter (fun c => c.desc.callId != id)
          finished := appendFinished (finishedOf k sv2.callClock outcome) sv2.finished })
        else raise env .call { sv2 with
          calls := sv2.calls.filter (fun c => c.desc.callId != id)
          finished := appendFinished (finishedOf k sv2.callClock outcome) sv2.finished }) := by
    simp only [sv', endCall, h]
    cases hs : k.slot with
    | none => exact ⟨_, OnPool.refl _, rfl⟩
    | some i => exact ⟨_, onPool_abandonOwned _ _ _, rfl⟩
  have e1 : sv'.calls = sv.calls.filter (fun c => c.desc.callId != id) := by
    have : sv2.calls = sv.calls := hp.calls.trans r.calls
    rw [hv]
    split <;> simp [raise, oweWalk, this]
  have e2 : sv'.finished = appendFinished (finishedOf k sv.callClock outcome) sv.finished := by
    have h1 : sv2.finished = sv.finished := hp.finished.trans r.finished
    have h2 : sv2.callClock = sv.callClock := hp.callClock.trans r.callClock
    rw [hv]
    split <;> simp [raise, oweWalk, h1, h2]
  have e3 : sv'.zones = sv2.zones := by rw [hv]; split <;> rfl
  have e4 : sv'.channels = sv2.channels := by rw [hv]; split <;> rfl
  have e5 : sv'.houses = sv2.houses := by rw [hv]; split <;> rfl
  have e6 : sv'.entrances = sv2.entrances := by rw [hv]; split <;> rfl
  have e7 : sv'.chimes = sv2.chimes := by rw [hv]; split <;> rfl
  refine ⟨?_, fun c hc hi => ?_, e2, fun z => ?_, ?_, ?_, ?_, ?_, ?_⟩
  · simp [findCall, e1]
  · rw [e1]; simp [hc, hi]
  · rw [e3, hp.zones]
    exact releaseAll_gone env (.call id) _ z
  · have key : (raise env .call { sv2 with
          calls := sv2.calls.filter (fun c => c.desc.callId != id)
          finished := appendFinished (finishedOf k sv2.callClock outcome) sv2.finished
          }).link.pendingKinds &&& 0x0040 = 0x0040 := by
      rw [raise_kinds]; exact kinds_raised _ _
    rw [hv]
    split <;> exact key
  · rw [e4, hp.channels, r.channels]; rfl
  · rw [e5, hp.houses, r.houses]; rfl
  · rw [e6, hp.entrances, r.entrances]; rfl
  · simp only [chimeSounds, List.any_eq_false]
    intro x hx
    rw [e7, hp.chimes, r.chimes] at hx
    simp only [stopChime, List.mem_filter] at hx
    simpa using hx.2

/-- R143: what the end of a repetition leaves. -/
theorem endRepetition_ends (env : Env) (id : Nat) (sv : Services) (k : Call)
    (h : findCall id sv = some k) :
    let sv' := endRepetition env id sv
    let k' : Call :=
      { k with
        done := k.done + 1, heard := heardAfter k, unbroken := [], phase := none, micLeft := none
        breakLeft := none, dropMessage := false
        state := if k.desc.spacing = 0 then .waiting else .spacing
        spacingLeft := if k.desc.spacing = 0 then none else some (k.desc.spacing * 1000) }
    (k.done + 1 < k.desc.repetitions → findCall id sv' = some k' ∧ sv'.finished = sv.finished)
      ∧ (k.desc.repetitions ≤ k.done + 1 → findCall id sv' = none
        ∧ sv'.finished = appendFinished (finishedOf k' sv.callClock .done) sv.finished
        ∧ sv'.link.pendingKinds &&& 0x0040 = 0x0040)
      ∧ (∀ c ∈ sv.calls, c.desc.callId ≠ id → c ∈ sv'.calls)
      ∧ (∀ z, (look sv'.zones z).carries (.call id) = false ∧ (look sv'.zones z).stacks (.call id) = false)
      ∧ sv'.channels = sv.channels ∧ sv'.houses = sv.houses ∧ sv'.entrances = sv.entrances
      ∧ (chimeSounds (.call id) sv = false → chimeSounds (.call id) sv' = false) := by
  intro sv' k'
  let f : Call → Call := fun c =>
    { c with
      done := c.done + 1, heard := heardAfter c, unbroken := [], phase := none, micLeft := none
      breakLeft := none, dropMessage := false
      state := if k.desc.spacing = 0 then .waiting else .spacing
      spacingLeft := if k.desc.spacing = 0 then none else some (k.desc.spacing * 1000) }
  let sv2 := releaseAll env (.call id) (updCall id f sv)
  have r := onRouter_releaseAll env (.call id) (updCall id f sv)
  have hv : sv' = if k.desc.repetitions ≤ k.done + 1 then endCall env id .done sv2
      else if k.desc.spacing = 0 then oweWalk sv2 else sv2 := by
    simp only [sv', endRepetition, h, decide_eq_true_eq]
    rfl
  have hk : findCall id sv2 = some k' := by
    have := findCall_updCall id f sv k (fun _ => rfl) h
    unfold findCall at this ⊢
    rw [r.calls]
    exact this
  have ho : ∀ c ∈ sv.calls, c.desc.callId ≠ id → c ∈ sv2.calls := by
    intro c hc hi
    rw [r.calls]
    simp only [updCall, List.mem_map]
    exact ⟨c, hc, if_neg hi⟩
  have hz := releaseAll_gone env (.call id) (updCall id f sv)
  have he := endCall_ends env id .done sv2 k' hk
  have hf : sv2.finished = sv.finished := r.finished
  have ht : sv2.callClock = sv.callClock := r.callClock
  have hch : sv2.channels = sv.channels := r.channels
  have hho : sv2.houses = sv.houses := r.houses
  have hen : sv2.entrances = sv.entrances := r.entrances
  have hcm : sv2.chimes = sv.chimes := r.chimes
  have hz2 : ∀ z, (look sv2.zones z).carries (.call id) = false
      ∧ (look sv2.zones z).stacks (.call id) = false := hz
  clear_value sv2
  by_cases hl : k.desc.repetitions ≤ k.done + 1
  · rw [if_pos hl] at hv
    rw [hv]
    refine ⟨fun hm => absurd hl (by omega), fun _ => ⟨he.1, ?_, he.2.2.2.2.1⟩, ?_, he.2.2.2.1, ?_, ?_, ?_,
      fun _ => he.2.2.2.2.2.2.2.2⟩
    · rw [he.2.2.1, ht, hf]
    · exact fun c hc hi => he.2.1 c (ho c hc hi) hi
    · exact he.2.2.2.2.2.1.trans hch
    · exact he.2.2.2.2.2.2.1.trans hho
    · exact he.2.2.2.2.2.2.2.1.trans hen
  · rw [if_neg hl] at hv
    have base : sv'.calls = sv2.calls ∧ sv'.finished = sv2.finished ∧ sv'.zones = sv2.zones
        ∧ sv'.channels = sv2.channels ∧ sv'.houses = sv2.houses ∧ sv'.entrances = sv2.entrances
        ∧ sv'.chimes = sv2.chimes := by
      rw [hv]
      split <;> exact ⟨rfl, rfl, rfl, rfl, rfl, rfl, rfl⟩
    obtain ⟨b1, b2, b3, b4, b5, b6, b7⟩ := base
    refine ⟨fun _ => ⟨?_, b2.trans hf⟩, fun hm => absurd hm hl, ?_, ?_, b4.trans hch, b5.trans hho,
      b6.trans hen, ?_⟩
    · unfold findCall at hk ⊢
      rw [b1]
      exact hk
    · exact fun c hc hi => by rw [b1]; exact ho c hc hi
    · exact fun z => by rw [b3]; exact hz2 z
    · intro hs
      unfold chimeSounds at hs ⊢
      rw [b7, hcm]
      exact hs

end Sys2Proof.Laws
end

