-- ==== Sys2Proof/Laws/Drive.lean ====
section
/-! SUPPORT. The drive fields of a loop zone: what its modules' records give it, and what resolving
it changes. -/

namespace Sys2Proof.Laws

open Sys2Proof.Machine

/-- spec/02 section 2.7: the class of a module that drives its loop. -/
theorem classOf_healthy (r : ModuleRecord) : classOf r = .healthy ↔ Healthy r := by
  unfold classOf Healthy
  cases r.tripped <;> cases r.state <;> simp

/-- spec/02 section 2.7: the class of a module known not to drive its loop. -/
theorem classOf_bad (r : ModuleRecord) : classOf r = .bad ↔ Bad r := by
  unfold classOf Bad
  cases r.tripped <;> cases r.state <;> simp

/-- R40: what each drive state says of the classes. -/
theorem driveOf_cases (cs : List ModuleClass) :
    (driveOf cs = .good ↔ cs ≠ [] ∧ ∀ c ∈ cs, c = .healthy)
    ∧ (driveOf cs = .failed ↔ cs ≠ [] ∧ ∀ c ∈ cs, c = .bad)
    ∧ (driveOf cs = .degraded ↔ (∃ c ∈ cs, c = .bad) ∧ ∃ c ∈ cs, c ≠ .bad) := by
  cases cs with
  | nil => simp [driveOf]
  | cons c l =>
    have a1 : (c :: l).all (fun c => c == .healthy) = true ↔ ∀ x ∈ c :: l, x = .healthy := by
      simp only [List.all_eq_true, beq_iff_eq]
    have a2 : (c :: l).all (fun c => c == .bad) = true ↔ ∀ x ∈ c :: l, x = .bad := by
      simp only [List.all_eq_true, beq_iff_eq]
    have a3 : (c :: l).any (fun c => c == .bad) = true ↔ ∃ x ∈ c :: l, x = .bad := by
      simp only [List.any_eq_true, beq_iff_eq]
    have x1 : (∀ x ∈ c :: l, x = .healthy) → ¬ ∃ x ∈ c :: l, x = .bad := by
      rintro h ⟨x, hx, e⟩
      rw [h x hx] at e
      cases e
    have x2 : (∀ x ∈ c :: l, x = .bad) → ∃ x ∈ c :: l, x = .bad :=
      fun h => ⟨c, by simp, h c (by simp)⟩
    have x3 : (∃ x ∈ c :: l, x ≠ .bad) ↔ ¬ ∀ x ∈ c :: l, x = .bad := by push Not; rfl
    unfold driveOf
    rw [x3, ← a1, ← a2, ← a3]
    rw [← a1, ← a3] at x1
    rw [← a2, ← a3] at x2
    generalize (c :: l).all (fun c => c == .healthy) = A at *
    generalize (c :: l).all (fun c => c == .bad) = B at *
    generalize (c :: l).any (fun c => c == .bad) = C at *
    cases A <;> cases B <;> cases C <;> simp_all

/-- R40, R41: a zone that shows what its modules' records give it is resolved. -/
theorem driveResolved_of (z : ZoneId) (s u : State)
    (h1 : (look u.svc.zones z).drive = resolvedDrive s z)
    (h2 : (look u.svc.zones z).backoff = resolvedBackoff s z) : DriveResolved z s u := by
  obtain ⟨d1, d2, d3⟩ := driveOf_cases
    ((look s.control.cfg.zones z).modules.map (fun m => classOf (look s.sup.modules m)))
  unfold resolvedDrive at h1
  refine ⟨?_, ?_, ?_, ?_⟩
  · rw [h1, d1]; simp [classOf_healthy]
  · rw [h1, d2]; simp [classOf_bad]
  · rw [h1, d3]; simp [classOf_bad]
  · rw [h2]; simp [resolvedBackoff]

/-- R4: the drive fields are written in the zone's record alone. -/
theorem zone_writeDrive (z y : ZoneId) (drive : DriveState) (backoff : Bool) (sv : Services) :
    look (writeDrive z drive backoff sv).zones y
      = if z = y then { look sv.zones z with drive := drive, backoff := backoff }
        else look sv.zones y := by
  unfold writeDrive
  simp only []
  split <;> simp [zoneUnheard, putZone, look_put]

/-- R40, R43: what resolving a loop zone does. -/
theorem resolveZone_loop (z : ZoneId) (s : State)
    (h : isLoopKind (look s.control.cfg.zones z).kind = true) :
    DriveResolved z s (resolveZone s z)
    ∧ look (resolveZone s z).svc.zones z
      = { look s.svc.zones z with drive := resolvedDrive s z, backoff := resolvedBackoff s z }
    ∧ (∀ y, y ≠ z → look (resolveZone s z).svc.zones y = look s.svc.zones y)
    ∧ (resolvedDrive s z = (look s.svc.zones z).drive → resolveZone s z
        = { s with svc := writeDrive z (resolvedDrive s z) (resolvedBackoff s z) s.svc })
    ∧ (resolvedDrive s z ≠ (look s.svc.zones z).drive → resolveZone s z
        = { s with
            svc := raise s.env .zone
              (writeDrive z (resolvedDrive s z) (resolvedBackoff s z) s.svc) }) := by
  have e1 : resolvedDrive s z = (look s.svc.zones z).drive → resolveZone s z
      = { s with svc := writeDrive z (resolvedDrive s z) (resolvedBackoff s z) s.svc } := by
    intro e
    unfold resolveZone
    simp only [h, if_true, e]
  have e2 : resolvedDrive s z ≠ (look s.svc.zones z).drive → resolveZone s z
      = { s with
          svc := raise s.env .zone
            (writeDrive z (resolvedDrive s z) (resolvedBackoff s z) s.svc) } := by
    intro e
    unfold resolveZone
    simp only [h, if_true, if_neg e]
    rfl
  have hz : ∀ y, look (resolveZone s z).svc.zones y
      = if z = y then
          { look s.svc.zones z with drive := resolvedDrive s z, backoff := resolvedBackoff s z }
        else look s.svc.zones y := by
    intro y
    rw [← zone_writeDrive]
    by_cases e : resolvedDrive s z = (look s.svc.zones z).drive
    · rw [e1 e]
    · rw [e2 e]
      simp [raise]
  have hz' := hz z
  rw [if_pos rfl] at hz'
  refine ⟨driveResolved_of z s _ (by rw [hz']) (by rw [hz']), hz', ?_, e1, e2⟩
  intro y hy
  rw [hz, if_neg (Ne.symm hy)]

end Sys2Proof.Laws
end

