-- ==== Sys2Proof/Laws/Bus.lean ====
section
/-! SUPPORT. The module bus: what the arbiter grants next, and what resolving a module leaves. -/

namespace Sys2Proof.Laws

open Sys2Proof Sys2Proof.Machine

/-! ## What resolving a module changes -/

/-- Resolving zones changes drive fields, what follows from them at the calls and the link port, and
nothing else. -/
structure OnDrive (s t : State) : Prop where
  sup : t.sup = s.sup
  control : t.control = s.control
  cue : t.cue = s.cue
  console : t.console = s.console
  slots : t.svc.slots = s.svc.slots
  reports : t.svc.reports = s.svc.reports
  walkDue : t.svc.walkDue = s.svc.walkDue

theorem OnDrive.refl (s : State) : OnDrive s s := ⟨rfl, rfl, rfl, rfl, rfl, rfl, rfl⟩

theorem OnDrive.trans {a b c : State} (h : OnDrive a b) (k : OnDrive b c) : OnDrive a c :=
  ⟨k.sup.trans h.sup, k.control.trans h.control, k.cue.trans h.cue,
    k.console.trans h.console, k.slots.trans h.slots, k.reports.trans h.reports, k.walkDue.trans h.walkDue⟩

theorem writeDrive_slots (z : ZoneId) (d : DriveState) (b : Bool) (sv : Services) :
    (writeDrive z d b sv).slots = sv.slots ∧ (writeDrive z d b sv).reports = sv.reports
      ∧ (writeDrive z d b sv).walkDue = sv.walkDue := by
  unfold writeDrive; simp only []; split <;> exact ⟨rfl, rfl, rfl⟩

theorem resolveZone_onDrive (s : State) (z : ZoneId) : OnDrive s (resolveZone s z) := by
  by_cases h : isLoopKind (look s.control.cfg.zones z).kind = true
  · obtain ⟨_, _, _, same, changed⟩ := resolveZone_loop z s h
    obtain ⟨w1, w2, w3⟩ := writeDrive_slots z (resolvedDrive s z) (resolvedBackoff s z) s.svc
    by_cases e : resolvedDrive s z = (look s.svc.zones z).drive
    · rw [same e]; exact ⟨rfl, rfl, rfl, rfl, w1, w2, w3⟩
    · rw [changed e]; exact ⟨rfl, rfl, rfl, rfl, w1, w2, w3⟩
  · unfold resolveZone; simp only [h]; exact OnDrive.refl s

theorem resolveModule_onDrive (s : State) (m : ModuleId) : OnDrive s (resolveModule s m) := by
  unfold resolveModule
  exact foldl_inv (fun t => OnDrive s t) _ (fun t z h => by
    split
    · exact h.trans (resolveZone_onDrive t z)
    · exact h) _ _ (OnDrive.refl s)

theorem noticeModule_onDrive (was now : ModuleState) (tripped : Bool) (s : State) :
    OnDrive s (noticeModule was now tripped s) := by
  unfold noticeModule; split
  · exact ⟨rfl, rfl, rfl, rfl, rfl, rfl, rfl⟩
  · exact OnDrive.refl s

/-- A module found ABSENT: its record, and what resolving it changes. -/
theorem makeAbsent_onDrive (m : ModuleId) (s : State) :
    OnDrive (s.updModule m (fun r => { r with state := .absent, caps := none })) (makeAbsent m s) := by
  unfold makeAbsent
  exact (resolveModule_onDrive _ _).trans (noticeModule_onDrive _ _ _ _)

/-! ## What the arbiter grants -/

/-- The grant of an idle bus with a protective write that waits, or with no pass-through. -/
theorem grantBus_next (s : State) (idle : s.sup.bus = none)
    (h : s.sup.pass = none ∨ s.sup.protective ≠ []) :
    grantBus s = { s with sup := nextOnBus s.sup } := by
  unfold grantBus nextOnBus
  cases hp : s.sup.protective with
  | cons p rest => rw [idle]; rfl
  | nil =>
    have hq : s.sup.pass = none := h.resolve_right (by simp [hp])
    rw [idle, hq]
    cases hv : s.sup.poll with
    | visit v => simp only [grantPoll, hv, State.setSup, hp, hq]; unfold stepWord; rfl
    | _ => simp only [grantPoll, hv]; rw [← idle, ← hp, ← hq, ← hv]

/-- The grant of an idle bus to a pass-through that waits. -/
theorem grantBus_pass (p : PassThrough) (s : State) (idle : s.sup.bus = none)
    (queue : s.sup.protective = []) (pass : s.sup.pass = some p) (open_ : passBarred s p = false) :
    grantBus s = { s with sup := { s.sup with
      bus := some { user := .passThrough, module_ := p.module_, word := p.word, value := p.value } } } := by
  unfold grantBus
  rw [idle, queue, pass]
  simp [open_, State.setSup]

end Sys2Proof.Laws
end

