-- ==== Sys2Proof/Laws/Claims.lean ====
section
/-! SUPPORT. What the router decides, said once for each operation: what a grant, a pop, a release,
a hold and an unhold make of their zone, the reports they send and the walk they owe. -/

namespace Sys2Proof.Laws

open Sys2Proof.Machine

/-- R6 step 3: the claims that a hold keeps off. -/
theorem heldOff_eq (n : Nat) (c : Claim) : heldOff n c = (decide (0 < n) && c.isLowCall) := by
  unfold heldOff Claim.isLowCall
  cases c.who <;> rfl

/-- R10: a scan passes over the claims that a hold keeps off. -/
theorem popScan_eq (n : Nat) : ∀ l : List Claim, popScan (decide (0 < n)) l
    = (l.takeWhile (heldOff n), (l.dropWhile (heldOff n)).head?, (l.dropWhile (heldOff n)).tail)
  | [] => rfl
  | c :: rest => by
    have ih := popScan_eq n rest
    unfold popScan
    rw [ih, ← heldOff_eq]
    by_cases h : heldOff n c = true <;> simp [h]

/-- What a router operation leaves: nothing but zone `z` and the router's own fields differ. -/
structure OnZone (z : ZoneId) (sv u : Services) : Prop extends OnRouter sv u where
  drive : (look u.zones z).drive = (look sv.zones z).drive
    ∧ (look u.zones z).backoff = (look sv.zones z).backoff
  others : ∀ y, y ≠ z → look u.zones y = look sv.zones y

theorem OnZone.refl (z : ZoneId) (sv : Services) : OnZone z sv sv :=
  { OnRouter.refl sv with drive := ⟨rfl, rfl⟩, others := fun _ _ => rfl }

theorem OnZone.trans {z : ZoneId} {a b c : Services} (h : OnZone z a b) (k : OnZone z b c) :
    OnZone z a c :=
  { h.toOnRouter.trans k.toOnRouter with
    drive := ⟨k.drive.1.trans h.drive.1, k.drive.2.trans h.drive.2⟩
    others := fun y hy => (k.others y hy).trans (h.others y hy) }

theorem OnZone.only {z : ZoneId} {a b : Services} (h : OnZone z a b) : OnlyClaims z a b :=
  ⟨h.drive, h.others, h.slots, h.channels, h.calls, h.houses, h.free, h.link, h.chimes, h.override⟩

theorem onZone_putZone (z : ZoneId) (r : ZoneRecord) (sv : Services)
    (h1 : r.drive = (look sv.zones z).drive) (h2 : r.backoff = (look sv.zones z).backoff) :
    OnZone z sv (putZone z r sv) :=
  { onRouter_putZone z r sv with
    drive := by simp [putZone, h1, h2]
    others := fun _ hy => zone_putZone hy r sv }

theorem onZone_report (z : ZoneId) (r : Report) (sv : Services) : OnZone z sv (sv.report r) :=
  { onRouter_report r sv with drive := ⟨rfl, rfl⟩, others := fun _ _ => rfl }

/-- One operation after another on a zone. -/
theorem onlyClaims_trans {z : ZoneId} {a b c : Services} (h : OnlyClaims z a b) (k : OnlyClaims z b
    c) :
    OnlyClaims z a c := by
  obtain ⟨⟨h1, h2⟩, h3, h4⟩ := h
  obtain ⟨⟨k1, k2⟩, k3, k4⟩ := k
  refine ⟨⟨k1.trans h1, k2.trans h2⟩, fun y hy => (k3 y hy).trans (h3 y hy), ?_⟩
  simp_all

/-- What a removed claim changes: its report, or its test's timer. -/
theorem loseClaim_told (z : ZoneId) (sv : Services) (c : Claim) :
    (loseClaim z sv c).reports = sv.reports ++ toldLost z [c]
      ∧ (loseClaim z sv c).walkDue = sv.walkDue ∧ (loseClaim z sv c).walkZones = sv.walkZones
      ∧ (look (loseClaim z sv c).zones z).holds = (look sv.zones z).holds
      ∧ OnZone z sv (loseClaim z sv c) := by
  unfold loseClaim toldLost
  cases h : c.who
  case test src =>
    simp only [h, List.filterMap_cons, List.filterMap_nil, List.append_nil]
    refine ⟨rfl, rfl, rfl, ?_, onZone_putZone z _ sv ?_ ?_⟩ <;> cases src <;>
      simp [putZone, ZoneRecord.setTest]
  all_goals first
    | exact ⟨by simp [h], rfl, rfl, rfl, OnZone.refl z sv⟩
    | exact ⟨by simp [h, Services.report], rfl, rfl, rfl, onZone_report z _ sv⟩

/-- What removed claims change. -/
theorem loseClaims_told (z : ZoneId) : ∀ (l : List Claim) (sv : Services),
    (loseClaims z l sv).reports = sv.reports ++ toldLost z l
      ∧ (loseClaims z l sv).walkDue = sv.walkDue ∧ (loseClaims z l sv).walkZones = sv.walkZones
      ∧ (look (loseClaims z l sv).zones z).holds = (look sv.zones z).holds
      ∧ OnZone z sv (loseClaims z l sv)
  | [], sv => ⟨by simp [loseClaims, toldLost], rfl, rfl, rfl, OnZone.refl z sv⟩
  | c :: l, sv => by
    obtain ⟨a1, a2, a3, a4, a5⟩ := loseClaim_told z sv c
    obtain ⟨b1, b2, b3, b4, b5⟩ := loseClaims_told z l (loseClaim z sv c)
    have e : loseClaims z (c :: l) sv = loseClaims z l (loseClaim z sv c) := rfl
    rw [e]
    refine ⟨?_, b2.trans a2, b3.trans a3, b4.trans a4, a5.trans b5⟩
    rw [b1, a1, List.append_assoc]
    congr 1
    unfold toldLost
    rw [← List.filterMap_append]
    rfl

/-- R11: what a zone-release report adds. -/
theorem zoneRelease_released (env : Env) (z : ZoneId) (more : List Report) (sv a : Services)
    (h1 : a.reports = sv.reports ++ more) (h2 : a.walkDue = sv.walkDue) :
    Released env z more sv (sendZoneRelease env z a) := by
  unfold sendZoneRelease
  cases h : env.run
  · exact ⟨by simp [h, h1], by simp [h, h2], by simp [h]⟩
  · refine ⟨by simp [h, h1, Services.report], by simp [h], fun _ => ?_⟩
    simp only [if_true]
    split
    · rename_i hc; simpa using hc
    · simp

theorem onZone_zoneRelease (env : Env) (z : ZoneId) (sv : Services) :
    OnZone z sv (sendZoneRelease env z sv) :=
  { onRouter_zoneRelease env z sv with
    drive := by rw [zone_zoneRelease]; exact ⟨rfl, rfl⟩
    others := fun y _ => zone_zoneRelease env z y sv }

/-- R10: what a pop does. -/
theorem pop_popped (env : Env) (z : ZoneId) (told : List Report) (sv a : Services)
    (h0 : OnlyClaims z sv a) (h1 : a.reports = sv.reports ++ told) (h2 : a.walkDue = sv.walkDue) :
    Popped env z (look a.zones z).stack told sv (pop env z a)
      ∧ (look (pop env z a).zones z).holds = (look a.zones z).holds := by
  set r := look a.zones z with hr
  unfold pop
  simp only [← hr]
  rw [popScan_eq]
  simp only
  set lost := r.stack.takeWhile (heldOff r.holds)
  set left := r.stack.dropWhile (heldOff r.holds)
  set a1 := putZone z { r with active := left.head?, stack := left.tail } a with ha1
  obtain ⟨b1, b2, b3, b4, b5⟩ := loseClaims_told z lost a1
  obtain ⟨c1, c2⟩ := loseClaims_claims z lost a1
  set a2 := loseClaims z lost a1 with ha2
  have hz : look a1.zones z = { r with active := left.head?, stack := left.tail } := by
    simp [ha1, putZone]
  rw [hz] at b4 c1 c2
  have on1 : OnZone z a a2 :=
    OnZone.trans (b := a1) (onZone_putZone z { r with active := left.head?, stack := left.tail } a
        rfl rfl) b5
  have fin : ∀ a3 : Services, (look a3.zones z) = look a2.zones z → OnZone z a2 a3 →
      a3.walkDue = a2.walkDue →
      a3.reports = a2.reports ++ left.head?.toList.map (.claimRestored · z) →
      Popped env z r.stack told sv (sendZoneRelease env z a3)
        ∧ (look (sendZoneRelease env z a3).zones z).holds = r.holds := by
    intro a3 e1 e2 e3 e4
    have hh : (look (sendZoneRelease env z a3).zones z).holds = r.holds := by
      rw [zone_zoneRelease, e1, b4]
    refine ⟨⟨?_, ?_, ?_, ?_⟩, hh⟩
    · rw [hh, zone_zoneRelease, e1, c1]
    · rw [hh, zone_zoneRelease, e1, c2]
    · rw [hh]
      refine zoneRelease_released env z _ sv a3 ?_ ?_
      · rw [e4, b1]
        simp [ha1, putZone, h1]
        rfl
      · rw [e3, b2]
        exact h2
    · exact onlyClaims_trans h0 ((on1.trans e2).trans (onZone_zoneRelease env z a3)).only
  cases hl : left.head? with
  | none => exact fin a2 rfl (OnZone.refl z a2) rfl (by simp [hl])
  | some c =>
    exact fin (a2.report (.claimRestored c z)) rfl (onZone_report z _ a2) rfl
      (by simp [hl, Services.report])

/-- R6 step 5, R7: what a grant does. -/
theorem grant_granted (env : Env) (z : ZoneId) (c : Claim) (sv : Services) :
    (look (grant env z c sv).zones z).active = some c
      ∧ (look (grant env z c sv).zones z).holds = (look sv.zones z).holds
      ∧ ((look sv.zones z).active = none →
          (look (grant env z c sv).zones z).stack = (look sv.zones z).stack
            ∧ Released env z [] sv (grant env z c sv))
      ∧ (∀ old, (look sv.zones z).active = some old →
          (look (grant env z c sv).zones z).stack = old :: (look sv.zones z).stack.take 3
            ∧ Released env z (toldLost z ((look sv.zones z).stack.drop 3) ++ [.claimPushed old z])
                sv (grant env z c sv))
      ∧ OnlyClaims z sv (grant env z c sv) := by
  refine ⟨grant_active env z c sv, ?_⟩
  cases h : (look sv.zones z).active with
  | none =>
    have g : grant env z c sv
        = sendZoneRelease env z (putZone z { look sv.zones z with active := some c } sv) := by
      unfold grant; simp only [h]
    rw [g]
    refine ⟨by rw [zone_zoneRelease]; simp [putZone],
      fun _ => ⟨by rw [zone_zoneRelease]; simp [putZone], ?_⟩, fun _ e => (by simp at e), ?_⟩
    · exact zoneRelease_released env z [] sv _ (by simp [putZone]) rfl
    · exact ((onZone_putZone z { look sv.zones z with active := some c } sv rfl rfl).trans
          (onZone_zoneRelease env z _)).only
  | some old =>
    set r := look sv.zones z with hr
    set a1 := putZone z { r with active := some c, stack := old :: r.stack.take 3 } sv with ha1
    have g : grant env z c sv = sendZoneRelease env z
        ((loseClaims z (r.stack.drop 3) a1).report (.claimPushed old z)) := by
      unfold grant; simp only [← hr, h]; rfl
    obtain ⟨b1, b2, b3, b4, b5⟩ := loseClaims_told z (r.stack.drop 3) a1
    obtain ⟨c1, c2⟩ := loseClaims_claims z (r.stack.drop 3) a1
    set a2 := loseClaims z (r.stack.drop 3) a1 with ha2
    have hz : look a1.zones z = { r with active := some c, stack := old :: r.stack.take 3 } := by
      simp [ha1, putZone]
    rw [hz] at b4 c1 c2
    have on1 : OnZone z sv a2 := OnZone.trans (b := a1)
      (onZone_putZone z { r with active := some c, stack := old :: r.stack.take 3 } sv rfl rfl) b5
    rw [g]
    refine ⟨by rw [zone_zoneRelease]; exact b4, fun e => (by simp at e), ?_, ?_⟩
    · intro o e
      obtain rfl : old = o := by simpa using e
      refine ⟨by rw [zone_zoneRelease]; exact c2, ?_⟩
      exact zoneRelease_released env z _ sv _ (by simp [Services.report, b1, ha1, putZone]) b2
    · exact ((on1.trans (onZone_report z _ a2)).trans (onZone_zoneRelease env z _)).only

/-- R9: what a release on one zone does. -/
theorem release_released (env : Env) (who : Claimant) (z : ZoneId) (sv : Services) :
    (look (release env who z sv).zones z).holds = (look sv.zones z).holds
      ∧ ((look sv.zones z).carries who = true →
          Popped env z ((look sv.zones z).stack.filter (fun c => c.who != who)) [] sv
            (release env who z sv))
      ∧ ((look sv.zones z).carries who = false → release env who z sv = { sv with
          zones := put sv.zones z { look sv.zones z with
            stack := (look sv.zones z).stack.filter (fun c => c.who != who) } }) := by
  set r := look sv.zones z with hr
  set a := putZone z { r with active := none, stack := r.stack.filter (fun c => c.who != who) } sv
      with ha
  have hz : look a.zones z
      = { r with active := none, stack := r.stack.filter (fun c => c.who != who) } := by
    simp [ha, putZone]
  cases h : r.carries who with
  | false =>
    have e : release env who z sv
        = putZone z { r with stack := r.stack.filter (fun c => c.who != who) } sv := by
      unfold release; simp only [← hr, h]; rfl
    rw [e]
    exact ⟨by simp [putZone], fun x => (by simp at x), fun _ => rfl⟩
  | true =>
    have e : release env who z sv = pop env z a := by
      unfold release; simp only [← hr, h]; rfl
    have key := pop_popped env z [] sv a
      (onZone_putZone z { r with active := none, stack := r.stack.filter (fun c => c.who != who) }
          sv rfl rfl).only
      (by simp [ha, putZone]) rfl
    rw [hz] at key
    rw [e]
    exact ⟨key.2, fun _ => key.1, fun x => (by simp at x)⟩

/-- R12-R14: what holds and unholds do. -/
theorem hold_held (env : Env) (z : ZoneId) (sv : Services) :
      (∀ c, (look sv.zones z).active = some c → (look sv.zones z).holds = 0 → heldOff 1 c = true →
        Popped env z (look sv.zones z).stack [.zoneLost c z] sv (hold env z sv)
        ∧ (look (hold env z sv).zones z).holds = 1)
      ∧ ((∀ c, (look sv.zones z).active = some c → (look sv.zones z).holds = 0 → 
          heldOff 1 c = false) →
        hold env z sv = { sv with
          zones := put sv.zones z { look sv.zones z with holds := (look sv.zones z).holds + 1 } }) := by
  unfold hold
  set r := look sv.zones z with hr
  refine ⟨?_, ?_⟩
  · intro c h1 h2 h3
    rw [heldOff_eq] at h3
    simp only [h1, h2, true_and]
    rw [if_pos (by simpa using h3)]
    obtain ⟨b1, b2, b3, b4, b5⟩ := loseClaim_told z (putZone z { r with holds := 1, active := none
        } sv) c
    obtain ⟨c1, c2⟩ := loseClaim_claims z (putZone z { r with holds := 1, active := none } sv) c
    have key := pop_popped env z [.zoneLost c z] sv
      (loseClaim z (putZone z { r with holds := 1, active := none } sv) c)
      (OnZone.trans (b := putZone z { r with holds := 1, active := none } sv)
        (onZone_putZone z { r with holds := 1, active := none } sv rfl rfl) b5).only ?_ b2
    · rw [c2, b4] at key
      simpa [putZone] using key
    · rw [b1]
      congr 1
      have : c.isLowCall = true := by simpa using h3
      unfold Claim.isLowCall at this
      unfold toldLost
      cases hw : c.who <;> simp_all
  · intro h
    cases ha : r.active with
    | none => simp only [ha]; rfl
    | some c =>
      simp only [ha]
      by_cases hh : r.holds = 0
      · have := h c ha hh
        rw [heldOff_eq] at this
        rw [if_neg (by simp_all)]
        simp [putZone]
      · rw [if_neg (by simp [hh])]; simp [putZone]

/-- R12, R14: what an unhold does. -/
theorem unhold_unheld (env : Env) (z : ZoneId) (sv : Services) :
    ((look sv.zones z).holds = 1 → Released env z [] sv (unhold env z sv)
      ∧ OnlyClaims z sv (unhold env z sv)
      ∧ look (unhold env z sv).zones z = { look sv.zones z with holds := 0 })
    ∧ ((look sv.zones z).holds ≠ 1 → unhold env z sv = { sv with
        zones := put sv.zones z
          { look sv.zones z with holds := (look sv.zones z).holds - 1 } }) := by
  refine ⟨fun h => ?_, fun h => by unfold unhold; rw [if_neg h]; rfl⟩
  have e : unhold env z sv
      = sendZoneRelease env z (putZone z { look sv.zones z with holds := 0 } sv) := by
    unfold unhold; simp only [h, if_true]
  rw [e]
  refine ⟨zoneRelease_released env z [] sv _ (by simp [putZone]) rfl, ?_, ?_⟩
  · exact ((onZone_putZone z { look sv.zones z with holds := 0 } sv rfl rfl).trans
      (onZone_zoneRelease env z _)).only
  · rw [zone_zoneRelease]; simp [putZone]

/-- R6: how a claim is decided. -/
theorem claim_judged (env : Env) (z : ZoneId) (c : Claim) (sv : Services) :
    (mayClaim (look env.cfg.zones z) c.who = false → claim env z c sv = (.refuse .kindFault, sv))
    ∧ (mayClaim (look env.cfg.zones z) c.who = true →
      (env.run = false → claim env z c sv = (.refuse .state, sv))
      ∧ (env.run = true → (look sv.zones z).carries c.who = true → claim env z c sv = (.kept, sv))
      ∧ (env.run = true → (look sv.zones z).carries c.who = false →
        (heldOff (look sv.zones z).holds c = true → claim env z c sv = (.refuse .hold, sv))
        ∧ (heldOff (look sv.zones z).holds c = false → c.rank ≤ (look sv.zones z).rank →
            claim env z c sv = (.refuse .rank, sv))
        ∧ (heldOff (look sv.zones z).holds c = false → (look sv.zones z).rank < c.rank →
            claim env z c sv = (.grant, grant env z c sv)))) := by
  have hk : kindFault env z c = !mayClaim (look env.cfg.zones z) c.who := by
    unfold kindFault kindAllows mayClaim
    generalize look env.cfg.zones z = k
    obtain ⟨kind, _, _, _, _, _, flagged, _, _⟩ := k
    cases c.who <;> cases kind <;> cases flagged <;> rfl
  unfold claim
  rw [hk, heldOff_eq]
  refine ⟨fun h => by simp [h], fun h => ?_⟩
  simp only [h, Bool.not_true, Bool.false_eq_true, if_false, judgeClaim]
  refine ⟨fun h1 => by simp [h1], fun h1 h2 => by simp [h1, h2],
    fun h1 h2 => ⟨fun h3 => ?_, ?_, ?_⟩⟩
  · rw [Bool.and_comm] at h3; simp only [h1, h2, h3]; rfl
  · intro h3 h4; rw [Bool.and_comm] at h3; simp only [h1, h2, h3, h4, if_true]; rfl
  · intro h3 h4
    rw [Bool.and_comm] at h3
    have h5 : ¬ c.rank ≤ (look sv.zones z).rank := by omega
    simp only [h1, h2, h3, h5]
    rfl

/-! ## The entry to RUN and the override (R1, R17, R187) -/

/-- Work on the zones one after the other: what it makes of a zone's record, where each turn touches
its own zone only. -/
theorem foldl_zone {f : Services → ZoneId → Services} {z : ZoneId}
    (keep : ∀ s x, z ≠ x → look (f s x).zones z = look s.zones z) (r : ZoneRecord)
    (Q : ZoneRecord → Prop) (own : ∀ s, look s.zones z = r → Q (look (f s z).zones z)) :
    ∀ (l : List ZoneId) (s : Services), l.Nodup → z ∈ l → look s.zones z = r →
      Q (look (l.foldl f s).zones z) := by
  have same : ∀ (l : List ZoneId) (s : Services), z ∉ l →
      look (l.foldl f s).zones z = look s.zones z := by
    intro l
    induction l with
    | nil => exact fun _ _ => rfl
    | cons y l ih =>
      intro s h
      rw [List.foldl_cons, ih _ (fun e => h (List.mem_cons_of_mem _ e))]
      exact keep s y (fun e => h (e ▸ List.mem_cons_self))
  intro l
  induction l with
  | nil => exact fun _ _ h => absurd h (by simp)
  | cons x l ih =>
    intro s hn hz hr
    rw [List.foldl_cons]
    by_cases hx : z = x
    · subst hx
      rw [same l _ (List.nodup_cons.1 hn).1]
      exact own s hr
    · exact ih _ (List.nodup_cons.1 hn).2 ((List.mem_cons.1 hz).resolve_left hx)
        (by rw [keep s x hx, hr])

theorem allZones_nodup : allZones.Nodup := List.nodup_finRange 20

theorem mem_allZones (z : ZoneId) : z ∈ allZones := List.mem_finRange z

/-- R17: what the override's claims make of a zone. -/
theorem overrideClaim_zone (env : Env) (sv : Services) (z : ZoneId) (run : env.run = true) :
    let r := look sv.zones z
    let k := look env.cfg.zones z
    let u := look (overrideClaim env sv).zones z
    u.drive = r.drive ∧ u.backoff = r.backoff ∧ u.holds = r.holds
      ∧ (k.kind = .unused ∨ k.flagged = false → u.active = r.active ∧ u.stack = r.stack)
      ∧ (k.kind ≠ .unused → k.flagged = true → r.carries .override = false → r.rank < 7 →
          u.active = some ⟨7, .override⟩
            ∧ u.stack = match r.active with | none => r.stack | some old => old :: r.stack.take 3) := by
  intro r k u
  have may : mayClaim k .override = (k.flagged && decide (k.kind ≠ .unused)) := rfl
  refine foldl_zone (f := fun acc z => (claim env z ⟨7, .override⟩ acc).2) (z := z)
    (fun s x h => zone_claim h env _ s) r
    (fun u => u.drive = r.drive ∧ u.backoff = r.backoff ∧ u.holds = r.holds
      ∧ (k.kind = .unused ∨ k.flagged = false → u.active = r.active ∧ u.stack = r.stack)
      ∧ (k.kind ≠ .unused → k.flagged = true → r.carries .override = false → r.rank < 7 →
          u.active = some ⟨7, .override⟩
            ∧ u.stack = match r.active with | none => r.stack | some old => old :: r.stack.take 3))
    ?_ allZones sv allZones_nodup (mem_allZones z) rfl
  intro s hs
  obtain ⟨no, yes⟩ := claim_judged env z ⟨7, .override⟩ s
  cases hm : mayClaim k .override with
  | false =>
    rw [no hm]
    refine ⟨by rw [hs], by rw [hs], by rw [hs], fun _ => ⟨by rw [hs], by rw [hs]⟩, ?_⟩
    intro h1 h2
    simp [may, h1, h2] at hm
  | true =>
    obtain ⟨_, kept, judged⟩ := yes hm
    have unused : ¬ (k.kind = .unused ∨ k.flagged = false) := by
      rintro (e | e) <;> simp [may, e] at hm
    cases hc : (look s.zones z).carries .override with
    | true =>
      rw [kept run hc]
      refine ⟨by rw [hs], by rw [hs], by rw [hs], fun e => absurd e unused, ?_⟩
      intro _ _ h; rw [← hs, hc] at h; cases h
    | false =>
      obtain ⟨_, low, high⟩ := judged run hc
      have off : heldOff (look s.zones z).holds ⟨7, .override⟩ = false := by simp [heldOff]
      by_cases hr : (look s.zones z).rank < 7
      · rw [high off hr]
        obtain ⟨a, h, n, o, only⟩ := grant_granted env z ⟨7, .override⟩ s
        refine ⟨by rw [only.drive.1, hs], by rw [only.drive.2, hs], by rw [h, hs],
          fun e => absurd e unused, fun _ _ _ _ => ⟨a, ?_⟩⟩
        rw [hs] at n o
        cases ha : r.active with
        | none => exact (n ha).1
        | some old => exact (o old ha).1
      · rw [low off (Nat.le_of_not_lt hr)]
        refine ⟨by rw [hs], by rw [hs], by rw [hs], fun e => absurd e unused, ?_⟩
        intro _ _ _ h; rw [← hs] at h; exact absurd h hr

/-- R1, R17, R187: what the entry to RUN makes of a zone. -/
theorem routerEnterRun_zone (env : Env) (sv : Services) (z : ZoneId) (run : env.run = true) :
    let r := look sv.zones z
    let k := look env.cfg.zones z
    let u := look (routerEnterRun env sv).zones z
    let taken := sv.override = true ∧ k.kind ≠ .unused ∧ k.flagged = true
    u.drive = (if isLoopKind k.kind then r.drive else .good)
      ∧ u.backoff = (if isLoopKind k.kind then r.backoff else false) ∧ u.holds = r.holds
      ∧ (¬ taken → u.active = r.active ∧ u.stack = r.stack)
      ∧ (taken → r.carries .override = false → r.rank < 7 →
          u.active = some ⟨7, .override⟩
            ∧ u.stack = match r.active with | none => r.stack | some old => old :: r.stack.take 3) := by
  intro r k u taken
  let f : Services → ZoneId → Services := fun acc z =>
    if isLoopKind (look env.cfg.zones z).kind then acc
    else putZone z { look acc.zones z with drive := .good, backoff := false } acc
  have kept : (allZones.foldl f sv).override = sv.override :=
    foldl_inv (fun s => s.override = sv.override) f (fun s x h => by
      show (if _ then _ else _ : Services).override = _
      split
      · exact h
      · exact h) _ _ rfl
  have drives : look (allZones.foldl f sv).zones z = { r with
      drive := if isLoopKind k.kind then r.drive else .good
      backoff := if isLoopKind k.kind then r.backoff else false } := by
    refine foldl_zone (f := f) (z := z) ?_ r (fun u => u = { r with
      drive := if isLoopKind k.kind then r.drive else .good
      backoff := if isLoopKind k.kind then r.backoff else false }) ?_ allZones sv allZones_nodup
      (mem_allZones z) rfl
    · intro s x h
      show look (if _ then _ else _ : Services).zones z = _
      split
      · rfl
      · exact zone_putZone h _ _
    · intro s hs
      show look (if isLoopKind k.kind then s else _ : Services).zones z = _
      cases isLoopKind k.kind with
      | true => simp only [if_true]; exact hs
      | false => simp [putZone, hs]
  have e : u = look (if sv.override then overrideClaim env (allZones.foldl f sv)
      else allZones.foldl f sv).zones z := by
    show look (if (allZones.foldl f sv).override then _ else _ : Services).zones z = _
    rw [kept]; split <;> rfl
  rw [e]
  cases ho : sv.override with
  | false =>
    simp only [Bool.false_eq_true, if_false, drives]
    refine ⟨trivial, trivial, trivial, fun _ => ⟨trivial, trivial⟩, fun h => ?_⟩
    exact absurd (ho.symm.trans h.1) (by simp)
  | true =>
    simp only [if_true]
    obtain ⟨d, b, h, free, got⟩ := overrideClaim_zone env (allZones.foldl f sv) z run
    simp only [drives] at d b h free got
    refine ⟨d, b, h, fun nt => free ?_, fun t c rk => got t.2.1 t.2.2 c rk⟩
    by_contra hh
    simp only [not_or, Bool.not_eq_false] at hh
    exact nt ⟨ho, hh⟩

/-- R187: the entry to RUN changes the router only, and raises OVERRIDE when OVR is ASSERTED. -/
theorem routerEnterRun_on (env : Env) (sv : Services) :
    ∃ x : Services, OnRouter sv x
      ∧ routerEnterRun env sv = if sv.override then raise env .override x else x := by
  let f : Services → ZoneId → Services := fun acc z =>
    if isLoopKind (look env.cfg.zones z).kind then acc
    else putZone z { look acc.zones z with drive := .good, backoff := false } acc
  have h : OnRouter sv (allZones.foldl f sv) := OnRouter.foldl (fun s z => by
    show OnRouter s (if _ then _ else _ : Services)
    split
    · exact OnRouter.refl s
    · exact onRouter_putZone _ _ _) _ sv
  have e : routerEnterRun env sv = if (allZones.foldl f sv).override
      then raise env .override (overrideClaim env (allZones.foldl f sv)) else allZones.foldl f sv := rfl
  cases ho : sv.override with
  | true => exact ⟨_, h.trans (onRouter_overrideClaim env _), by rw [e, h.override, ho]; rfl⟩
  | false => exact ⟨_, h, by rw [e, h.override, ho]; rfl⟩

end Sys2Proof.Laws
end

