-- ==== Sys2Proof/Laws/Memory.lean ====
section
/-! SUPPORT. The settings memory: every write keeps its canonical form, what a byte reads as after a
write, and what a string of bytes reads back as. -/

namespace Sys2Proof.Laws

open Sys2Proof.Machine

theorem wfFrom_mono {lo hi : Nat} (h : lo ≤ hi) :
    ∀ {m : Memory}, Memory.wfFrom hi m = true → Memory.wfFrom lo m = true
  | [], _ => rfl
  | (k, v) :: rest, e => by
    simp only [Memory.wfFrom, Bool.and_eq_true, decide_eq_true_eq] at e ⊢
    exact ⟨⟨by omega, e.1.2⟩, e.2⟩

/-- A write at `lo` or above keeps the canonical form from `lo`. -/
theorem write_wfFrom (a : Nat) (b : Byte) :
    ∀ (m : Memory) (lo : Nat), lo ≤ a → Memory.wfFrom lo m = true →
      Memory.wfFrom lo (Memory.write m a b) = true
  | [], lo, ha, _ => by
    unfold Memory.write
    split
    · rfl
    · rename_i hb
      simp [Memory.wfFrom, ha, hb]
  | (k, v) :: rest, lo, ha, e => by
    simp only [Memory.wfFrom, Bool.and_eq_true, decide_eq_true_eq] at e
    obtain ⟨⟨hk, hv⟩, hr⟩ := e
    unfold Memory.write
    split
    · rename_i hlt
      simp only [Memory.wfFrom, Bool.and_eq_true, decide_eq_true_eq]
      exact ⟨⟨hk, hv⟩, write_wfFrom a b rest (k + 1) (by omega) hr⟩
    · split
      · rename_i heq
        subst heq
        split
        · exact wfFrom_mono (by omega) hr
        · rename_i hb
          simp only [Memory.wfFrom, Bool.and_eq_true, decide_eq_true_eq]
          exact ⟨⟨ha, hb⟩, hr⟩
      · split
        · simp only [Memory.wfFrom, Bool.and_eq_true, decide_eq_true_eq]
          exact ⟨⟨hk, hv⟩, hr⟩
        · rename_i hb
          simp only [Memory.wfFrom, Bool.and_eq_true, decide_eq_true_eq]
          exact ⟨⟨ha, hb⟩, ⟨by omega, hv⟩, hr⟩

/-- A write keeps the canonical form. -/
theorem write_wf (m : Memory) (a : Nat) (b : Byte) (h : Memory.wf m = true) :
    Memory.wf (Memory.write m a b) = true := write_wfFrom a b m 0 (Nat.zero_le a) h

/-- A string of writes keeps the canonical form. -/
theorem writeAll_wf : ∀ (bytes : List Byte) (m : Memory) (a : Nat), Memory.wf m = true →
    Memory.wf (Memory.writeAll m a bytes) = true
  | [], _, _, h => h
  | b :: rest, m, a, h => writeAll_wf rest (Memory.write m a b) (a + 1) (write_wf m a b h)

/-- The memory after reset is in canonical form. -/
theorem reset_wf : Memory.wf State.reset.control.memory = true := rfl

/-- An address below the first entry is unlisted. -/
theorem read_below : ∀ (m : Memory) (lo a : Nat), Memory.wfFrom lo m = true → a < lo →
    Memory.read m a = Config.unlistedByte
  | [], _, _, _, _ => rfl
  | (k, v) :: rest, lo, a, e, h => by
    simp only [Memory.wfFrom, Bool.and_eq_true, decide_eq_true_eq] at e
    rw [Memory.read, if_neg (by omega)]
    exact read_below rest (k + 1) a e.2 (by omega)

/-- What a byte reads as after a write: the byte written at its address, as before elsewhere. -/
theorem read_write (a : Nat) (b : Byte) :
    ∀ (m : Memory) (lo x : Nat), Memory.wfFrom lo m = true →
      Memory.read (Memory.write m a b) x = if x = a then b else Memory.read m x
  | [], lo, x, _ => by
    unfold Memory.write
    by_cases hx : x = a
    · subst hx
      split
      · rename_i hb
        simp [Memory.read, hb]
      · simp [Memory.read]
    · split
      · simp [Memory.read]
      · simp [Memory.read, Ne.symm hx]
  | (k, v) :: rest, lo, x, e => by
    simp only [Memory.wfFrom, Bool.and_eq_true, decide_eq_true_eq] at e
    obtain ⟨⟨_, _⟩, hr⟩ := e
    unfold Memory.write
    split
    · rename_i hlt
      rw [Memory.read, read_write a b rest (k + 1) x hr, Memory.read]
      by_cases hk : k = x
      · rw [if_pos hk, if_pos hk, if_neg (by omega)]
      · rw [if_neg hk, if_neg hk]
    · split
      · rename_i heq
        subst heq
        by_cases hx : x = k
        · subst hx
          split
          · rename_i hb
            rw [if_pos rfl, hb]
            exact read_below rest (x + 1) x hr (by omega)
          · simp [Memory.read]
        · split
          · simp [Memory.read, Ne.symm hx]
          · simp [Memory.read, Ne.symm hx]
      · by_cases hx : x = a
        · subst hx
          split
          · rename_i hb
            rw [if_pos rfl, Memory.read, if_neg (by assumption), hb]
            exact read_below rest (k + 1) x hr (by omega)
          · simp [Memory.read]
        · split
          · simp
          · exact if_neg (fun h : a = x => hx h.symm)

/-- What a byte reads as after a string of writes. -/
theorem read_writeAll : ∀ (bytes : List Byte) (m : Memory) (a x : Nat), Memory.wf m = true →
    Memory.read (Memory.writeAll m a bytes) x
      = if h : a ≤ x ∧ x < a + bytes.length then bytes[x - a]'(by omega) else Memory.read m x
  | [], m, a, x, _ => by
    have : ¬ (a ≤ x ∧ x < a + 0) := by omega
    simp [Memory.writeAll]
  | b :: rest, m, a, x, h => by
    rw [Memory.writeAll, read_writeAll rest _ (a + 1) x (write_wf m a b h), read_write a b m 0 x h]
    by_cases hx : x = a
    · subst hx
      simp
    · by_cases hr : a ≤ x ∧ x < a + (b :: rest).length
      · have h1 : a + 1 ≤ x ∧ x < a + 1 + rest.length := by
          simp only [List.length_cons] at hr
          omega
        rw [dif_pos h1, dif_pos hr]
        have : x - a = x - (a + 1) + 1 := by omega
        simp only [this, List.getElem_cons_succ]
      · have h1 : ¬ (a + 1 ≤ x ∧ x < a + 1 + rest.length) := by
          simp only [List.length_cons] at hr
          omega
        rw [dif_neg h1, dif_neg hr, if_neg hx]

/-- A string of bytes reads back as it was written. -/
theorem readAll_writeAll (bytes : List Byte) (m : Memory) (a : Nat) (h : Memory.wf m = true) :
    Memory.readAll (Memory.writeAll m a bytes) a bytes.length = bytes := by
  have key : ∀ (n k : Nat), n + k = bytes.length →
      Memory.readAll (Memory.writeAll m a bytes) (a + k) n = bytes.drop k := by
    intro n
    induction n with
    | zero =>
      intro k hk
      rw [Memory.readAll, List.drop_of_length_le (by omega)]
    | succ n ih =>
      intro k hk
      have hlt : k < bytes.length := by omega
      have hin : a ≤ a + k ∧ a + k < a + bytes.length := by omega
      rw [Memory.readAll, read_writeAll bytes m a (a + k) h, dif_pos hin, Nat.add_assoc a k 1,
        ih (k + 1) (by omega), List.drop_eq_getElem_cons hlt]
      simp
  have := key bytes.length 0 (by omega)
  simpa using this

/-- Bytes elsewhere read as before a string of writes. -/
theorem readAll_frame : ∀ (n c : Nat) (bytes : List Byte) (m : Memory) (a : Nat),
    Memory.wf m = true → (c + n ≤ a ∨ a + bytes.length ≤ c) →
    Memory.readAll (Memory.writeAll m a bytes) c n = Memory.readAll m c n
  | 0, _, _, _, _, _, _ => rfl
  | n + 1, c, bytes, m, a, h, e => by
    rw [Memory.readAll, Memory.readAll, read_writeAll bytes m a c h, dif_neg (by omega),
      readAll_frame n (c + 1) bytes m a h (by omega)]

end Sys2Proof.Laws
end

