-- ==== Sys2Proof/Laws/Image.lean ====
section
/-! SUPPORT. The settings image as a save that is cut short leaves it (R191). -/

namespace Sys2Proof.Laws

open Sys2Proof Sys2Proof.Machine

/-- A record area does not begin with ones: its first byte is a zone's kind. -/
theorem recordArea_head (cfg : Configuration) :
    ∃ b rest, recordArea cfg = b :: rest ∧ b ≠ 0xFF := by
  obtain ⟨r, rest, e⟩ : ∃ r rest, allRecords cfg = .zone r :: rest := ⟨_, _, rfl⟩
  refine ⟨_, _, by rw [recordArea, e]; rfl, ?_⟩
  cases r.kind <;> decide

/-- The memory as stages 1 and 2 leave it is judged MARKER. -/
theorem readImage_begunImage (m : Memory) (cfg : Configuration) (h : Memory.wf m = true)
    (c : PartControl) (memory : c.memory = begunImage m cfg) (fault : c.memoryFault = false) :
    (readImage c).1 = .marker := by
  have w : Memory.wf (invalidate m) = true := writeAll_wf _ _ _ h
  obtain ⟨b, rest, e, notOnes⟩ := recordArea_head cfg
  have first : Memory.read c.memory areaStart = b := by
    rw [memory, begunImage, read_writeAll _ _ _ _ w, dif_pos ⟨Nat.le_refl _, by rw [e]; simp⟩]
    simp [e]
  have low : Memory.readAll c.memory 0 4 = u32 0 := by
    rw [memory, begunImage, readAll_frame 4 0 _ _ _ w (Or.inl (by decide))]
    exact readAll_writeAll (u32 0) m 0 h
  obtain ⟨h0, h1, h2, h3⟩ : Memory.read c.memory 0 = 0 ∧ Memory.read c.memory 1 = 0
      ∧ Memory.read c.memory 2 = 0 ∧ Memory.read c.memory 3 = 0 := by
    simpa [Memory.readAll, u32, leBytes] using low
  have header : c.memory.readAll 0 11 = 0 :: 0 :: 0 :: 0 :: c.memory.readAll 4 7 := by
    show Memory.read _ 0 :: Memory.read _ 1 :: Memory.read _ 2 :: Memory.read _ 3 :: _ = _
    rw [h0, h1, h2, h3]
  have area : c.memory.readAll areaStart areaLength = b :: c.memory.readAll 17 419 := by
    show Memory.read _ areaStart :: _ = _
    rw [first]; rfl
  have unmarked : numAt (0 :: 0 :: 0 :: 0 :: c.memory.readAll 4 7) 0 4 ≠ validMarker := by
    show leNat _ ≠ _
    simp [leNat, validMarker]
  unfold readImage judgeImage
  rw [header, area, fault, if_neg (by simp [allOnes]; exact fun h => absurd h notOnes),
    if_pos (Or.inl unmarked)]

end Sys2Proof.Laws
end

