-- ==== Sys2Proof/Laws/StepKept.lean ====
section
/-! SUPPORT. What every step keeps of the services. `KeptAll P` asks of a property what `Kept` asks
and that it looks at sizes, slots and the free count only; `step_keeps` then carries it through every
command and the tick. The lemmas between say it of each operation over the whole state. -/

namespace Sys2Proof.Laws

open Sys2Proof.Machine

/-- `sv'` has the slots and the free count of `sv`, and no list of it has grown past its bound. -/
structure Same (sv sv' : Services) : Prop where
  zones : ∀ z, (look sv'.zones z).stack.length ≤ 4
    ∨ (look sv'.zones z).stack.length ≤ (look sv.zones z).stack.length
  free : sv'.free = sv.free
  slots : ∀ i, (look sv'.slots i).state = (look sv.slots i).state
    ∧ (look sv'.slots i).held = (look sv.slots i).held
    ∧ (look sv'.slots i).length = (look sv.slots i).length
  channels : ∀ d, (look sv'.channels d).queue.length ≤ 4
    ∨ (look sv'.channels d).queue.length ≤ (look sv.channels d).queue.length
  calls : sv'.calls.length ≤ 16 ∨ sv'.calls.length ≤ sv.calls.length
  finished : sv'.finished.length ≤ 8 ∨ sv'.finished.length ≤ sv.finished.length
  outstanding : sv'.link.outstanding.length ≤ 4
    ∨ sv'.link.outstanding.length ≤ sv.link.outstanding.length
  immediate : (sv'.link.tx.filter TxItem.isImmediate).length ≤ 4
    ∨ (sv'.link.tx.filter TxItem.isImmediate).length ≤ (sv.link.tx.filter TxItem.isImmediate).length

/-- A property of the services that every step keeps. -/
structure KeptAll (P : Services → Prop) : Prop extends Kept P where
  same : ∀ sv sv', Same sv sv' → P sv → P sv'
  fresh : P Services.fresh

variable {P : Services → Prop} (K : KeptAll P)

include K

/-- A change of what `Same` does not look at. -/
theorem kept_free (sv sv' : Services) (h1 : sv'.zones = sv.zones) (h2 : sv'.free = sv.free)
    (h3 : sv'.slots = sv.slots) (h4 : sv'.channels = sv.channels) (h5 : sv'.calls = sv.calls)
    (h6 : sv'.finished = sv.finished) (h7 : linkCore sv'.link = linkCore sv.link) (h : P sv) :
    P sv' :=
  K.same sv sv' ⟨fun z => Or.inr (by rw [h1]), h2, fun i => by rw [h3]; exact ⟨rfl, rfl, rfl⟩,
    fun d => Or.inr (by rw [h4]), Or.inr (by rw [h5]), Or.inr (by rw [h6]), Or.inr (le_of_eq (congrArg (·.2.1.length) h7)),
    Or.inr (le_of_eq (congrArg (·.2.2.1.length) h7))⟩ h

/-- A change of the link port in which neither its outstanding list nor its immediate replies grow past
their bounds. -/
theorem kept_link (l : LinkPort) (sv : Services)
    (h1 : l.outstanding.length ≤ sv.link.outstanding.length)
    (h2 : (l.tx.filter TxItem.isImmediate).length ≤ 4
      ∨ (l.tx.filter TxItem.isImmediate).length ≤ (sv.link.tx.filter TxItem.isImmediate).length)
    (h : P sv) : P { sv with link := l } :=
  K.same sv _ ⟨fun _ => Or.inr (le_refl _), rfl, fun _ => ⟨rfl, rfl, rfl⟩,
    fun _ => Or.inr (le_refl _), Or.inr (le_refl _), Or.inr (le_refl _), Or.inr h1, h2⟩ h

omit K in
/-- A branch that leaves the services as they are, or goes on. -/
theorem kept_ite {α : Type} {c : Prop} [Decidable c] {x y : α × Services} (hx : P x.2)
    (hy : ¬c → P y.2) : P (if c then x else y).2 := by
  split
  · exact hx
  · exact hy (by assumption)

/-! ## The entrance controller -/

theorem kept_putEntrance (e : EntranceId) (x : Entrance) (sv : Services) (h : P sv) :
    P (putEntrance e x sv) := kept_free K sv _ rfl rfl rfl rfl rfl rfl rfl h

theorem kept_anyHouse (a : Aud) (f : House → House) (sv : Services) (h : P sv) :
    P (updHouse a f sv) := kept_free K sv _ rfl rfl rfl rfl rfl rfl rfl h

theorem kept_updRecord (a : Aud) (f : WindowRecord → WindowRecord) (sv : Services) (h : P sv) :
    P (updRecord a f sv) := kept_anyHouse K a _ sv h

theorem kept_setLamps (env : Env) (a : Aud) (sv : Services) (h : P sv) : P (setLamps env a sv) :=
  foldl_inv P _ (fun b e hb => kept_putEntrance K e _ b hb) _ sv h

theorem kept_judgeHolding (env : Env) (sv : Services) (e : EntranceId) (h : P sv) :
    P (judgeHolding env sv e) := by
  unfold judgeHolding
  dsimp only
  split
  · exact foldl_inv P _ (fun b z hb => kept_hold K.toKept env z b hb) _ _ (kept_putEntrance K e _ sv h)
  · split
    · exact foldl_inv P _ (fun b z hb => kept_unhold K.toKept env z b hb) _ _
        (kept_putEntrance K e _ sv h)
    · exact h

theorem kept_judgeHoldings (env : Env) (a : Aud) (sv : Services) (h : P sv) :
    P (judgeHoldings env a sv) := foldl_inv P _ (fun b e hb => kept_judgeHolding K env b e hb) _ sv h

theorem kept_startAdmitChime (env : Env) (a : Aud) (reopened : Bool) (sv : Services) (h : P sv) :
    P (startAdmitChime env a reopened sv) := by
  unfold startAdmitChime
  split
  · exact h
  · split
    · exact h
    · exact kept_startChime K.toKept _ _ _ (kept_stopChime K.toKept _ _
        (kept_anyHouse K a _ _ (kept_setClaim K.toKept env _ _ _ sv h)))

theorem kept_openHouse (env : Env) (a : Aud) (sv : Services) (h : P sv) : P (openHouse env a sv) := by
  unfold openHouse
  extract_lets was sv1 sv2 sv3
  have h1 : P sv1 := kept_anyHouse K a _ sv h
  have h2 : P sv2 := by
    dsimp only [sv2]
    split
    · exact kept_finishAdmitChime K.toKept env a _ h1
    · exact h1
  have h3 : P sv3 := by
    dsimp only [sv3]
    generalize was = w
    cases w
    · exact h2
    · exact h2
    · exact kept_raise K.toKept env _ _ (kept_updRecord K a _ _ h2)
    · exact kept_updRecord K a _ _ h2
  exact kept_judgeHoldings K env a _ (kept_setLamps K env a _ h3)

theorem kept_openWindow (env : Env) (a : Aud) (n : Nat) (m : Bool) (o : WindowOrigin) (sv : Services)
    (h : P sv) : P (openWindow env a n m o sv) := by
  unfold openWindow
  extract_lets time reopened sv1 sv2 sounding sv3
  have h1 : P sv1 := kept_anyHouse K a _ sv h
  have h2 : P sv2 := kept_startAdmitChime K env a _ _
    (kept_judgeHoldings K env a _ (kept_setLamps K env a _ h1))
  exact kept_raise K.toKept env _ _ (kept_anyHouse K a _ _ h2)

theorem kept_restartWindow (env : Env) (a : Aud) (n : Nat) (m : Bool) (sv : Services) (h : P sv) :
    P (restartWindow env a n m sv) := kept_updRecord K a _ _ (kept_anyHouse K a _ sv h)

theorem kept_admitOpen (env : Env) (a : Aud) (n : Nat) (m : Bool) (o : WindowOrigin) (sv : Services)
    (h : P sv) : P (admitOpen env a n m o sv).2 := by
  unfold admitOpen
  split; · exact h
  split; · exact h
  split
  · exact h
  · exact kept_restartWindow K env a n m sv h
  · exact kept_openWindow K env a n m o sv h
  · exact kept_openWindow K env a n m o sv h

theorem kept_closeWindow (env : Env) (a : Aud) (r : CloseReason) (t : Nat) (sv : Services)
    (h : P sv) : P (closeWindow env a r t sv) := by
  unfold closeWindow
  extract_lets waits sv1 sv2
  have h1 : P sv1 := kept_anyHouse K a _ sv h
  have h2 : P sv2 := kept_updRecord K a _ _ (kept_setLamps K env a _ h1)
  exact kept_judgeHoldings K env a _ (kept_raise K.toKept env _ _ h2)

theorem kept_admitClose (env : Env) (a : Aud) (r : CloseReason) (sv : Services) (h : P sv) :
    P (admitClose env a r sv).2 := by
  unfold admitClose
  split
  · exact kept_closeWindow K env a r _ sv h
  · exact h

theorem kept_endClosing (env : Env) (a : Aud) (o : GraceOutcome) (l : List EntranceId)
    (sv : Services) (h : P sv) : P (endClosing env a o l sv) :=
  kept_judgeHoldings K env a _ (kept_setLamps K env a _ (kept_updRecord K a _ _
    (kept_anyHouse K a _ sv h)))

theorem kept_musicResumed (env : Env) (a : Aud) (n : Nat) (sv : Services) (h : P sv) :
    P (musicResumed env a n sv) := by
  unfold musicResumed
  dsimp only
  split
  · exact kept_closeWindow K env a _ _ sv h
  · exact h

theorem kept_windowExpired (env : Env) (a : Aud) (sv : Services) (h : P sv) :
    P (windowExpired env a sv) := by
  unfold windowExpired
  split
  · exact kept_closeWindow K env a _ _ sv h
  · exact h

theorem kept_graceExpired (env : Env) (a : Aud) (sv : Services) (h : P sv) :
    P (graceExpired env a sv) := by
  unfold graceExpired
  split
  · exact foldl_inv P _ (fun b e hb => kept_raise K.toKept env _ _ (kept_putEntrance K e _ b hb)) _ _
      (kept_endClosing K env a _ _ sv h)
  · exact h

theorem kept_latchOpened (env : Env) (a : Aud) (e : EntranceId) (b : Bool) (sv : Services) (h : P sv) :
    P (latchOpened env a e b sv) := by
  unfold latchOpened
  split
  · exact kept_raise K.toKept env _ _ (kept_putEntrance K e _ sv h)
  · exact h

theorem kept_sensorEvent (env : Env) (e : EntranceId) (b : Bool) (sv : Services) (h : P sv) :
    P (sensorEvent env e b sv) := by
  unfold sensorEvent
  extract_lets x sv1
  split
  · exact h
  · have h1 : P sv1 := kept_putEntrance K e _ sv h
    split
    · exact h1
    · rename_i a _
      extract_lets sv2
      have h2 : P sv2 := kept_judgeHolding K env _ e (kept_latchOpened K env a e b _ h1)
      split
      · exact kept_endClosing K env a _ _ _ h2
      · exact h2

theorem kept_takeEntranceConfig (e : EntranceId) (o n : EntranceConfig) (sv : Services) (h : P sv) :
    P (takeEntranceConfig e o n sv) := by
  unfold takeEntranceConfig
  split
  · exact h
  · exact kept_putEntrance K e _ sv h

/-! ## Requests of the engine and the scheduler that make a list longer -/

theorem kept_queue (d : ChannelId) (c : Channel) (sv : Services) (hc : c.queue.length ≤ 4) (h : P sv) :
    P (putChannel d c sv) :=
  K.same sv _ ⟨fun _ => Or.inr (le_refl _), rfl, fun _ => ⟨rfl, rfl, rfl⟩, fun y => by
    simp only [putChannel, look_put]
    split
    · exact Or.inl hc
    · exact Or.inr (le_refl _), Or.inr (le_refl _), Or.inr (le_refl _), Or.inr (le_refl _),
    Or.inr (le_refl _)⟩ h

theorem kept_clipArm (env : Env) (n id len : Nat) (c : Option StartCondition) (t : Nat)
    (sv : Services) (h : P sv) : P (clipArm env n id len c t sv).2 := by
  unfold clipArm
  split
  · rename_i d cond _
    refine kept_ite h fun _ => kept_ite h fun _ => kept_ite h fun _ => kept_ite h fun _ =>
      kept_ite h fun hl => ?_
    refine kept_loadHead K.toKept env d _ (kept_queue K d _ sv ?_ h)
    simp only [List.length_append, List.length_singleton]; omega
  · exact h

theorem kept_takeHead (env : Env) (d : ChannelId) (sv : Services) (h : P sv) :
    P (takeHead env d sv) := by
  unfold takeHead
  dsimp only
  split
  · rename_i e _
    exact kept_loadHead K.toKept env d _ (K.chan sv d _ (by rw [e]; simp) h)
  · exact h

theorem kept_clipStart (env : Env) (n : Nat) (sv : Services) (h : P sv) :
    P (clipStart env n sv).2 := by
  unfold clipStart
  split
  · exact h
  · rename_i d _
    extract_lets early sv1 before newId sv2 sv3
    have h1 : P sv1 := by
      dsimp only [sv1]
      split
      · exact kept_loadHead K.toKept env d sv h
      · exact h
    have h2 : P sv2 := kept_endClip K.toKept env d _ _ h1
    have h3 : P sv3 := kept_activate K.toKept env d _ (kept_takeHead K env d _ h2)
    split
    · exact h
    · split
      · exact kept_raise K.toKept env _ _ h1
      · exact h3

theorem kept_callPost (env : Env) (f : CallFields) (sv : Services) (h : P sv) :
    P (callPost env f sv).2 := by
  unfold callPost
  split
  · exact h
  · split; · exact h
    split; · exact h
    split; · exact h
    split; · exact h
    rename_i hl
    refine kept_oweWalk K.toKept _ (K.same sv _ ⟨fun _ => Or.inr (le_refl _), rfl,
      fun _ => ⟨rfl, rfl, rfl⟩, fun _ => Or.inr (le_refl _), Or.inl ?_, Or.inr (le_refl _),
      Or.inr (le_refl _), Or.inr (le_refl _)⟩ h)
    simp only [List.length_append, List.length_singleton]; omega

theorem kept_takeFinished (sv : Services) (h : P sv) : P (takeFinished sv).2 := by
  unfold takeFinished
  split
  · exact h
  · rename_i e
    exact K.same sv _ ⟨fun _ => Or.inr (le_refl _), rfl, fun _ => ⟨rfl, rfl, rfl⟩,
      fun _ => Or.inr (le_refl _), Or.inr (le_refl _), Or.inr (by rw [e]; simp), Or.inr (le_refl _),
      Or.inr (le_refl _)⟩ h

theorem kept_chimeEnded (o : ChimeOwner) (env : Env) (sv : Services) (h : P sv) :
    P (chimeEnded o env sv) := by
  unfold chimeEnded
  split
  · exact kept_callChimeEnded K.toKept env _ sv h
  · exact kept_admitChimeEnded K.toKept env _ sv h

theorem kept_clearLatches (n : Nat) (sv : Services) (h : P sv) : P (clearLatches n sv).2 := by
  unfold clearLatches
  split
  · exact foldl_inv P _ (fun b e hb => kept_putEntrance K e _ b hb) _ sv h
  · split
    · exact kept_putEntrance K _ _ sv h
    · exact h

/-! ## The whole state: what a block does to the services -/

omit K in
theorem kept_serve (f : Env → Services → Services) (s : State)
    (hf : ∀ env sv, P sv → P (f env sv)) (h : P s.svc) : P (s.serve f).svc := hf _ _ h

theorem kept_settled (s : State) (h : P s.svc) : P s.settled.svc := kept_settle K.toKept _ _ h

theorem kept_stateReply (tag : Byte) (kind : RequestKind) (ans : Answer) (s : State) (h : P s.svc) :
    P (s.reply tag kind ans).svc := kept_reply K.toKept tag kind ans _ h

theorem kept_answerWith (tag : Byte) (kind : RequestKind) (f : Env → Services → Answer × Services)
    (s : State) (hf : ∀ env sv, P sv → P (f env sv).2) (h : P s.svc) :
    P (answerWith tag kind f s).svc := kept_reply K.toKept tag kind _ _ (hf _ _ h)

/-- A change of the link port that leaves its outstanding list and its transmit queue. -/
theorem kept_updLink (f : LinkPort → LinkPort) (s : State)
    (hf : ∀ l, (f l).outstanding = l.outstanding ∧ (f l).tx = l.tx) (h : P s.svc) :
    P (s.updLink f).svc :=
  kept_link K (f s.svc.link) s.svc (by rw [(hf _).1]) (Or.inr (by rw [(hf _).2])) h

/-! ## The cue followers -/

theorem kept_outcome (s : State) (r : Answer × Services) (h : P r.2) : P (s.outcome r).2.svc :=
  kept_settled K _ h

theorem kept_doAction (a : Aud) (act : CueAction) (s : State) (h : P s.svc) :
    P (doAction a act s).2.svc := by
  unfold doAction
  split
  · split
    · exact kept_outcome K s _ (kept_clipStart K _ _ _ h)
    · exact h
  · split
    · exact kept_outcome K s _ (kept_clipStop K.toKept _ _ _ h)
    · exact h
  · exact kept_settled K _ (kept_admitOpen K _ a _ _ _ _ h)
  · exact kept_settled K _ (kept_admitClose K _ a _ _ h)
  · exact kept_outcome K s _ (kept_callRelease K.toKept _ _ h)
  · exact h

theorem kept_handOn (a : Aud) (s : State) (act : CueAction) (h : P s.svc) : P (handOn a s act).svc :=
  kept_doAction K a act s h

theorem kept_answerAdvance (k : CueAsker) (p n : Nat) (o : List ActionOutcome) (s : State)
    (h : P s.svc) : P (answerAdvance k p n o s).svc := by
  cases k with
  | line => exact h
  | link tag => exact kept_stateReply K tag _ _ s h
  | console => exact h

theorem kept_finishFiring (a : Aud) (s : State) (h : P s.svc) : P (finishFiring a s).svc := by
  unfold finishFiring
  extract_lets c
  split
  · exact h
  · exact kept_answerAdvance K _ _ _ _ _ (kept_raise K.toKept _ _ _ h)

theorem kept_fireRest (a : Aud) (s : State) (h : P s.svc) : P (fireRest a s).svc := by
  unfold fireRest
  split
  · exact h
  · exact kept_finishFiring K a _
      (foldl_inv (fun t : State => P t.svc) _ (fun b x hb => kept_handOn K a b x hb) _ s h)

theorem kept_takeAdvance (a : Aud) (k : CueAsker) (s : State) (h : P s.svc) :
    P (takeAdvance a k s).svc := by
  unfold takeAdvance
  extract_lets c p s1
  split
  · exact kept_answerAdvance K _ _ _ _ _ h
  · exact kept_fireRest K a _ h

theorem kept_takeCue (a : Aud) (w : WaitingCue) (s : State) (h : P s.svc) : P (takeCue a w s).svc := by
  cases w with
  | advance k => exact kept_takeAdvance K a k s h
  | jump tag p => exact kept_stateReply K tag _ _ _ h

theorem kept_refuseCue (w : WaitingCue) (st : Status) (s : State) (h : P s.svc) :
    P (refuseCue w st s).svc := by
  unfold refuseCue
  split
  · exact h
  · exact kept_stateReply K _ _ _ s h
  · exact h
  · exact kept_stateReply K _ _ _ s h

theorem kept_drainCues (n : Nat) (a : Aud) (s : State) (h : P s.svc) : P (drainCues n a s).svc := by
  induction n generalizing s with
  | zero => exact h
  | succ n ih =>
    unfold drainCues
    extract_lets c
    split
    · exact ih _ (kept_takeCue K a _ _ h)
    · exact h

theorem kept_arriveCue (a : Aud) (w : WaitingCue) (s : State) (h : P s.svc) :
    P (arriveCue a w s).svc := by
  unfold arriveCue
  extract_lets c
  split
  · split
    · exact kept_refuseCue K w _ s h
    · exact h
  · exact kept_takeCue K a w s h

theorem kept_resumeFiring (a : Aud) (s : State) (h : P s.svc) : P (resumeFiring a s).svc :=
  kept_drainCues K 8 a _ (kept_fireRest K a s h)

theorem kept_cueTeardown (a : Aud) (s : State) (h : P s.svc) : P (cueTeardown a s).svc :=
  kept_finishFiring K a _ (foldl_inv (fun t : State => P t.svc) _
    (fun b w hb => kept_refuseCue K w _ b hb) _ _ h)

/-! ## The loop supervisor -/

theorem kept_resolveZone (s : State) (z : ZoneId) (h : P s.svc) : P (resolveZone s z).svc := by
  have h1 := kept_writeDrive K.toKept z (resolvedDrive s z) (resolvedBackoff s z) s.svc h
  unfold resolveZone
  split
  · dsimp only
    split
    · exact h1
    · exact kept_raise K.toKept _ _ _ h1
  · exact h

theorem kept_resolveModule (s : State) (m : ModuleId) (h : P s.svc) : P (resolveModule s m).svc := by
  refine foldl_inv (fun t : State => P t.svc) _ (fun b z hb => ?_) _ s h
  split
  · exact kept_resolveZone K b z hb
  · exact hb

theorem kept_noticeModule (x y : ModuleState) (b : Bool) (s : State) (h : P s.svc) :
    P (noticeModule x y b s).svc := by
  unfold noticeModule
  split
  · exact kept_raise K.toKept _ _ _ h
  · exact h

theorem kept_answerPass (p : PassThrough) (st : Status) (v : Option Word16) (s : State)
    (h : P s.svc) : P (answerPass p st v s).svc := by
  unfold answerPass
  dsimp only
  split
  · exact kept_stateReply K _ _ _ s h
  · exact kept_stateReply K _ _ _ s h
  · exact h
  · exact h

omit K in
@[simp] theorem grantPoll_svc (s : State) : (grantPoll s).svc = s.svc := by
  unfold grantPoll; split <;> rfl

omit K in
@[simp] theorem beginRound_svc (s : State) : (beginRound s).svc = s.svc := by
  unfold beginRound; split <;> rfl

omit K in
@[simp] theorem nextVisit_svc (m : ModuleId) (s : State) : (nextVisit m s).svc = s.svc := by
  unfold nextVisit
  split
  · rfl
  · split <;> rfl

theorem kept_grantBus (s : State) (h : P s.svc) : P (grantBus s).svc := by
  unfold grantBus
  split
  · exact h
  · exact h
  · split
    · rw [grantPoll_svc]; exact kept_answerPass K _ _ _ _ h
    · exact h
  · rw [grantPoll_svc]; exact h

theorem kept_makeAbsent (m : ModuleId) (s : State) (h : P s.svc) : P (makeAbsent m s).svc :=
  kept_noticeModule K _ _ _ _ (kept_resolveModule K _ m h)

theorem kept_resolveVisit (v : Visit) (s : State) (h : P s.svc) : P (resolveVisit v s).svc := by
  unfold resolveVisit
  dsimp only
  rw [nextVisit_svc]
  refine kept_noticeModule K _ _ _ _ (kept_resolveModule K _ _ ?_)
  split <;> exact h

theorem kept_afterResistance (v : Visit) (s : State) (h : P s.svc) : P (afterResistance v s).svc := by
  unfold afterResistance
  split
  · split
    · exact h
    · exact kept_resolveVisit K v s h
  · exact kept_resolveVisit K v s h

theorem kept_visitIdentity (v : Visit) (w : Word16) (s : State) (h : P s.svc) :
    P (visitIdentity v w s).svc := by
  unfold visitIdentity
  extract_lets m r exchanged s1 s2
  split
  · rw [nextVisit_svc]; exact kept_makeAbsent K m s h
  · show P s2.svc
    dsimp only [s2]
    split
    · exact kept_resolveModule K _ m h
    · exact h

theorem kept_visitState (v : Visit) (w : Word16) (s : State) (h : P s.svc) :
    P (visitState v w s).svc := by
  unfold visitState
  extract_lets m s1 r s2
  have h2 : P s2.svc := by
    dsimp only [s2]
    split <;> exact h
  split
  · exact h2
  · rw [nextVisit_svc]; exact kept_resolveModule K _ m h2

theorem kept_visitResistance (v : Visit) (w : Word16) (s : State) (h : P s.svc) :
    P (visitResistance v w s).svc := kept_afterResistance K _ _ h

theorem kept_visitTemperature (v : Visit) (w : Word16) (s : State) (h : P s.svc) :
    P (visitTemperature v w s).svc := kept_resolveVisit K _ _ h

theorem kept_visitAnswer (v : Visit) (w : Word16) (s : State) (h : P s.svc) :
    P (visitAnswer v w s).svc := by
  unfold visitAnswer
  split
  · exact kept_visitIdentity K v w s h
  · exact kept_visitState K v w s h
  · exact h
  · exact h
  · exact kept_visitResistance K v w s h
  · exact kept_visitTemperature K v w s h

theorem kept_pollEnd (r : Option Word16) (s : State) (h : P s.svc) : P (pollEnd r s).svc := by
  unfold pollEnd
  split
  · split
    · rw [nextVisit_svc]; exact h
    · split
      · exact kept_visitAnswer K _ _ s h
      · rw [nextVisit_svc]; exact kept_makeAbsent K _ s h
  · exact h

theorem kept_passEnd (r : Option Word16) (s : State) (h : P s.svc) : P (passEnd r s).svc := by
  unfold passEnd
  split
  · exact h
  · extract_lets s1
    split
    · exact kept_answerPass K _ _ _ _ h
    · exact kept_answerPass K _ _ _ _ h
    · refine kept_answerPass K _ _ _ _ ?_
      split <;> exact h

theorem kept_protectiveEnd (m : ModuleId) (r : Option Word16) (s : State) (h : P s.svc) :
    P (protectiveEnd m r s).svc := by
  unfold protectiveEnd
  split
  · exact h
  · exact kept_makeAbsent K m s h

theorem kept_busEnd (r : Option Word16) (s : State) (h : P s.svc) : P (busEnd r s).svc := by
  unfold busEnd
  split
  · exact h
  · extract_lets s1
    refine kept_grantBus K _ ?_
    split
    · exact kept_protectiveEnd K _ _ _ h
    · exact kept_passEnd K _ _ h
    · exact kept_pollEnd K _ _ h

theorem kept_dropModule (s : State) (m : ModuleId) (h : P s.svc) : P (dropModule s m).svc := by
  unfold dropModule
  extract_lets s1
  have h1 : P s1.svc := kept_resolveModule K _ m h
  clear_value s1
  split
  · split
    · split
      · exact h1
      · rw [nextVisit_svc]; exact h1
    · exact h1
  · exact h1

omit K in
@[simp] theorem wakePoll_svc (s : State) : (wakePoll s).svc = s.svc := by
  unfold wakePoll
  split
  · simp
  · split
    · simp
    · rfl
  · rfl

theorem kept_applyPoll (w : Word16) (g : Nat) (s : State) (h : P s.svc) :
    P (applyPoll w g s).svc := by
  refine kept_grantBus K _ ?_
  rw [wakePoll_svc]
  exact foldl_inv (fun t : State => P t.svc) dropModule (fun b m hb => kept_dropModule K b m hb) _ _ h

/-! ## Part control -/

theorem kept_takeZone (z : ZoneId) (c : ZoneConfig) (s : State) (h : P s.svc) :
    P (takeZone z c s).svc :=
  foldl_inv (fun t : State => P t.svc) _ (fun b m hb => kept_resolveModule K b m hb) _ _
    (kept_resolveZone K _ z (kept_takeZoneKind K.toKept z _ _ _ h))

theorem kept_takeRecord (s : State) (i : Nat) (r : ConfigRecord) (h : P s.svc) :
    P (takeRecord s i r).svc := by
  cases r with
  | zone c =>
    show P (match zoneOf i with | some z => takeZone z c s | none => s).svc
    split
    · exact kept_takeZone K _ c s h
    · exact h
  | entrance c =>
    show P (match entranceOf (i - 20) with | some e => takeEntrance e c s | none => s).svc
    split
    · exact kept_takeEntranceConfig K _ _ _ _ h
    · exact h
  | channel c =>
    show P (match channelOf (i - 32) with
      | some d => s.setCfg { s.control.cfg with channels := put s.control.cfg.channels d c }
      | none => s).svc
    split <;> exact h
  | auditorium c => exact h
  | supervision c => exact kept_applyPoll K _ _ _ h
  | link c =>
    refine kept_free K s.svc (takeRecord s i (.link c)).svc rfl rfl rfl rfl rfl rfl ?_ h
    exact (linkCore_judgeNotice _ s.svc.link)

theorem kept_takeRecords (i : Nat) (l : List ConfigRecord) (s : State) (h : P s.svc) :
    P (takeRecords i l s).svc := by
  induction l generalizing i s with
  | nil => exact h
  | cons r l ih => exact ih _ _ (kept_takeRecord K s i r h)

omit K in
theorem startSilence_outstanding (n : Nat) (l : LinkPort) :
    (startSilence n l).outstanding = l.outstanding := rfl

theorem kept_blocksEnterRun (s : State) (h : P s.svc) : P (blocksEnterRun s).svc :=
  kept_updLink K _ _ (fun _ => ⟨rfl, rfl⟩) (kept_routerEnterRun K.toKept _ _ h)

theorem kept_routerEnterConfig (sv : Services) (h : P sv) : P (routerEnterConfig sv) :=
  K.same sv _ ⟨fun z => Or.inr (by
      simp only [routerEnterConfig, look_map]
      have key : ∀ r : ZoneRecord, r.onlyTests.stack.length ≤ r.stack.length := by
        intro r
        unfold ZoneRecord.onlyTests
        have e : ((r.active.toList ++ r.stack).filter (fun c => c.who.isTest)).length
            ≤ r.stack.length + 1 := by
          refine le_trans (List.length_filter_le _ _) ?_
          cases r.active <;> simp
        split
        · simp
        · rename_i c rest hc
          rw [hc, List.length_cons] at e
          exact Nat.le_of_succ_le_succ e
      exact key _), rfl, fun _ => ⟨rfl, rfl, rfl⟩, fun _ => Or.inr (le_refl _),
    Or.inr (le_refl _), Or.inr (le_refl _), Or.inr (le_refl _), Or.inr (le_refl _)⟩ h

theorem kept_keys (x y : LiveKey) (sv : Services) (h : P sv) : P { sv with keyA := x, keyB := y } :=
  kept_free K sv _ rfl rfl rfl rfl rfl rfl rfl h

theorem kept_engineTeardown (env : Env) (sv : Services) (h : P sv) : P (engineTeardown env sv) :=
  kept_keys K _ _ _ (foldl_inv P _ (fun b d hb => kept_channelTeardown K.toKept env d b hb) _ sv h)

theorem kept_servicesTeardown (env : Env) (sv : Services) (h : P sv) : P (servicesTeardown env sv) :=
  kept_abandonWhere K.toKept _ _ _ (kept_schedulerTeardown K.toKept env _ (kept_engineTeardown K env sv h))

theorem kept_blocksEnterConfig (s : State) (h : P s.svc) : P (blocksEnterConfig s).svc := by
  refine kept_updLink K (fun l => { l with silenceLeft := none }) _ (fun _ => ⟨rfl, rfl⟩)
    (kept_serve _ _ (kept_servicesTeardown K) ?_)
  exact kept_cueTeardown K .two _ (kept_cueTeardown K .one _ (kept_routerEnterConfig K _ h))

theorem kept_endSettings (r : SettingsResult) (s : State) (h : P s.svc) : P (endSettings r s).svc :=
  kept_raise K.toKept _ _ _ h

theorem kept_beginReset (c : ResetCause) (s : State) : P (beginReset c s).svc := K.fresh

omit K in
theorem kept_leaveReset (x y : Bool) (s : State) (h : P s.svc) : P (leaveReset x y s).svc := by
  unfold leaveReset
  extract_lets s1 s2
  split
  · exact h
  · rw [beginRound_svc]; exact h

/-! ## The works of the requests -/

/-- A work keeps the property. -/
def Keeps (P : Services → Prop) (f : State → State) : Prop := ∀ s, P s.svc → P (f s).svc

theorem keeps_reply (tag : Byte) (kind : RequestKind) (f : State → Answer) :
    Keeps P (fun s => s.reply tag kind (f s)) := fun s h => kept_stateReply K tag kind _ s h

theorem keeps_judgeGate : Keeps P judgeGate := fun s h => by
  refine kept_free K s.svc (judgeGate s).svc rfl rfl rfl rfl rfl rfl ?_ h
  exact (linkCore_judgeNotice _ s.svc.link)

theorem keeps_workReset (tag : Byte) : Keeps P (workReset tag) := fun s h =>
  kept_updLink K _ _ (fun _ => ⟨rfl, rfl⟩) (kept_stateReply K tag _ _ s h)

theorem keeps_workNoticeEnable (tag : Byte) (w : Word16) : Keeps P (workNoticeEnable tag w) := by
  intro s h
  unfold workNoticeEnable
  split
  · exact keeps_judgeGate K _ (kept_stateReply K tag _ _ _ h)
  · exact kept_stateReply K tag _ _ s h

theorem keeps_workNoticeResume (tag : Byte) : Keeps P (workNoticeResume tag) := fun s h =>
  keeps_judgeGate K _ (kept_updLink K _ _ (fun _ => ⟨rfl, rfl⟩) (kept_stateReply K tag _ _ s h))

theorem keeps_workNoticeClear (tag : Byte) (w : Word16) : Keeps P (workNoticeClear tag w) := by
  intro s h
  unfold workNoticeClear
  split
  · exact kept_stateReply K tag _ _ _ (kept_updLink K _ s (fun _ => ⟨rfl, rfl⟩) h)
  · exact kept_stateReply K tag _ _ s h

theorem keeps_workSilenceSet (tag : Byte) (n : Nat) : Keeps P (workSilenceSet tag n) := by
  intro s h
  unfold workSilenceSet
  split
  · exact kept_stateReply K tag _ _ s h
  · refine kept_stateReply K tag _ _ _ ?_
    split
    · exact kept_updLink K (startSilence n) _ (fun _ => ⟨rfl, rfl⟩) h
    · exact h

theorem keeps_workModeRun (tag : Byte) : Keeps P (workModeRun tag) := by
  intro s h
  unfold workModeRun
  split
  · exact kept_stateReply K tag _ _ s h
  · split
    · exact kept_stateReply K tag _ _ s h
    · split
      · exact kept_stateReply K tag _ _ s h
      · exact kept_blocksEnterRun K _ (kept_stateReply K tag _ _ _ h)

theorem keeps_workModeConfig (tag : Byte) : Keeps P (workModeConfig tag) := by
  intro s h
  unfold workModeConfig
  split
  · exact kept_stateReply K tag _ _ s h
  · split
    · exact kept_blocksEnterConfig K _ (kept_stateReply K tag _ _ _ h)
    · exact kept_stateReply K tag _ _ s h

theorem keeps_workConfigWrite (tag : Byte) (i : Nat) (r : Option ConfigRecord) :
    Keeps P (workConfigWrite tag i r) := by
  intro s h
  unfold workConfigWrite
  split
  · exact kept_stateReply K tag _ _ s h
  · exact kept_stateReply K tag _ _ _ (kept_takeRecord K s i _ h)
  · exact kept_stateReply K tag _ _ s h

theorem keeps_workSettingsSave (tag : Byte) : Keeps P (workSettingsSave tag) := by
  intro s h
  unfold workSettingsSave
  split
  · exact kept_stateReply K tag _ _ s h
  · exact h

theorem keeps_workSettingsLoad (tag : Byte) : Keeps P (workSettingsLoad tag) := by
  intro s h
  unfold workSettingsLoad
  split
  · exact kept_stateReply K tag _ _ s h
  · split
    · exact kept_stateReply K tag _ _ s h
    · exact h

theorem keeps_settingsSaveDone (b : List Byte) : Keeps P (settingsSaveDone b) := by
  intro s h
  unfold settingsSaveDone
  split
  · exact kept_endSettings K _ _ (kept_stateReply K _ _ _ _ h)
  · exact h

theorem keeps_settingsLoadDone : Keeps P settingsLoadDone := by
  intro s h
  unfold settingsLoadDone
  split
  · exact kept_endSettings K _ _ (kept_stateReply K _ _ _ _ (kept_takeRecords K 0 _ s h))
  · exact h

theorem keeps_startLoadDone : Keeps P startLoadDone := by
  intro s h
  unfold startLoadDone
  split
  · have h1 : ∀ t : State, P t.svc → P (enterLoaded t).svc := by
      intro t ht
      unfold enterLoaded
      split
      · exact kept_endSettings K _ _ (kept_blocksEnterRun K _ ht)
      · exact kept_endSettings K _ _ ht
    have h2 : ∀ t : State, P t.svc → P (firstRound t).svc := by
      intro t ht
      unfold firstRound
      split
      · exact kept_grantBus K _ (by rw [beginRound_svc]; exact ht)
      · exact ht
    refine h2 _ ?_
    split
    · exact h1 _ (kept_takeRecords K 0 _ s h)
    · exact kept_endSettings K _ _ h
  · exact h

theorem keeps_workZoneSet (tag : Byte) (z l : Nat) (m : Option Bool) :
    Keeps P (workZoneSet tag z l m) := by
  intro s h
  unfold workZoneSet
  split
  · split
    · exact kept_stateReply K tag _ _ s h
    · refine kept_stateReply K tag _ _ _ ?_
      unfold setLevel
      extract_lets c s1
      split
      · exact kept_zoneUnheard K.toKept _ _ h
      · exact h
  · exact kept_stateReply K tag _ _ s h

theorem keeps_workTestStart (tag : Byte) (z : Nat) : Keeps P (workTestStart tag z) := fun s h =>
  kept_answerWith K tag _ _ s (fun env sv k => kept_startTest K.toKept env _ _ sv k) h

theorem keeps_workTestStop (tag : Byte) (z : Nat) : Keeps P (workTestStop tag z) := fun s h =>
  kept_answerWith K tag _ _ s (fun env sv k => kept_stopTest K.toKept env _ _ sv k) h

theorem kept_override (b : Bool) (sv : Services) (h : P sv) : P { sv with override := b } :=
  kept_free K sv _ rfl rfl rfl rfl rfl rfl rfl h

theorem keeps_overrideAsserted : Keeps P overrideAsserted := by
  intro s h
  unfold overrideAsserted
  split
  · exact h
  · refine kept_serve _ _ (fun env sv k => ?_) h
    dsimp only
    split
    · exact kept_overrideClaim K.toKept env _ (kept_raise K.toKept env _ _ (kept_override K _ sv k))
    · exact kept_override K _ sv k

theorem keeps_overrideReleased : Keeps P overrideReleased := by
  intro s h
  unfold overrideReleased
  split
  · refine kept_serve _ _ (fun env sv k => ?_) h
    dsimp only
    split
    · exact kept_releaseAll K.toKept env _ _ (kept_raise K.toKept env _ _ (kept_override K _ sv k))
    · exact kept_override K _ sv k
  · exact h

theorem keeps_workPollSet (tag : Byte) (w : Word16) (g : Nat) : Keeps P (workPollSet tag w g) := by
  intro s h
  unfold workPollSet
  split
  · exact kept_stateReply K tag _ _ _ (kept_applyPoll K _ _ s h)
  · exact kept_stateReply K tag _ _ s h

theorem keeps_workModuleClear (tag : Byte) (m : Nat) : Keeps P (workModuleClear tag m) := by
  intro s h
  unfold workModuleClear
  split
  · exact kept_stateReply K tag _ _ _ h
  · split
    · exact kept_stateReply K tag _ _ _ h
    · exact kept_stateReply K tag _ _ s h

theorem keeps_restoreModule (m : ModuleId) : Keeps P (restoreModule m) := by
  intro s h
  unfold restoreModule
  extract_lets s1
  have h1 : P s1.svc := h
  clear_value s1
  exact kept_grantBus K _ (kept_resolveModule K _ _ h1)

theorem keeps_workModuleRestore (tag : Byte) (m : Nat) : Keeps P (workModuleRestore tag m) := by
  intro s h
  unfold workModuleRestore
  split
  · exact kept_stateReply K tag _ _ s h
  · split
    · exact kept_stateReply K tag _ _ _ (keeps_restoreModule K _ s h)
    · exact kept_stateReply K tag _ _ s h

theorem keeps_beginPass (p : PassThrough) : Keeps P (beginPass p) := fun _ h => kept_grantBus K _ h

theorem keeps_workAmpRead (tag : Byte) (m w : Nat) : Keeps P (workAmpRead tag m w) := by
  intro s h
  unfold workAmpRead
  split
  · exact kept_stateReply K tag _ _ s h
  · exact keeps_beginPass K _ s h

theorem keeps_workAmpWrite (tag : Byte) (m w : Nat) (v : Word16) :
    Keeps P (workAmpWrite tag m w v) := by
  intro s h
  unfold workAmpWrite
  split
  · exact kept_stateReply K tag _ _ s h
  · exact keeps_beginPass K _ s h

theorem keeps_workCueGo (tag : Byte) (a : Nat) : Keeps P (workCueGo tag a) := by
  intro s h
  unfold workCueGo
  split
  · exact kept_stateReply K tag _ _ s h
  · split
    · exact kept_arriveCue K _ _ s h
    · exact kept_stateReply K tag _ _ s h

theorem keeps_workCueSet (tag : Byte) (a p : Nat) : Keeps P (workCueSet tag a p) := by
  intro s h
  unfold workCueSet
  split
  · exact kept_stateReply K tag _ _ s h
  · split
    · exact kept_stateReply K tag _ _ s h
    · split
      · exact kept_arriveCue K _ _ s h
      · exact kept_stateReply K tag _ _ s h

theorem keeps_workCueWrite (tag : Byte) (a n : Nat) (l : List (Option CueAction)) :
    Keeps P (workCueWrite tag a n l) := by
  intro s h
  unfold workCueWrite
  split
  · exact kept_stateReply K tag _ _ s h
  · exact kept_stateReply K tag _ _ _ h

theorem keeps_workCueErase (tag : Byte) (a n : Nat) : Keeps P (workCueErase tag a n) := by
  intro s h
  unfold workCueErase
  split
  · exact kept_stateReply K tag _ _ s h
  · dsimp only
    split
    · exact kept_stateReply K tag _ _ s h
    · exact kept_stateReply K tag _ _ _ h

theorem keeps_workHouseClose (tag : Byte) (n : Nat) (f : Option Bool) :
    Keeps P (workHouseClose tag n f) := by
  intro s h
  unfold workHouseClose
  split
  · split
    · exact kept_stateReply K tag _ _ s h
    · refine kept_stateReply K tag _ _ _ ?_
      exact kept_judgeHoldings K _ _ _ (kept_engineHouseClosed K.toKept _ _ _
        (kept_setLamps K _ _ _ (kept_anyHouse K _ _ _ h)))
  · exact kept_stateReply K tag _ _ s h

theorem keeps_workHouseOpen (tag : Byte) (n : Nat) : Keeps P (workHouseOpen tag n) := by
  intro s h
  unfold workHouseOpen
  split
  · exact kept_stateReply K tag _ _ s h
  · split
    · exact kept_stateReply K tag _ _ s h
    · exact kept_stateReply K tag _ _ _ (kept_openHouse K _ _ _ h)

theorem keeps_workAdmitOpen (tag : Byte) (n sec : Nat) (m : Option Bool) :
    Keeps P (workAdmitOpen tag n sec m) := by
  intro s h
  unfold workAdmitOpen
  split
  · refine kept_answerWith K tag _ _ s (fun env sv k => ?_) h
    have k1 := kept_admitOpen K env ‹Aud› sec ‹Bool› .request sv k
    unfold admitOpenAnswer
    split <;> exact k1
  · exact kept_stateReply K tag _ _ s h

theorem keeps_workAdmitClose (tag : Byte) (n : Nat) : Keeps P (workAdmitClose tag n) := by
  intro s h
  unfold workAdmitClose
  split
  · refine kept_answerWith K tag _ _ s (fun env sv k => ?_) h
    have k1 := kept_admitClose K env ‹Aud› .request sv k
    unfold admitCloseAnswer
    split <;> exact k1
  · exact kept_stateReply K tag _ _ s h

/-! ## The bodies of frames -/

omit K in
theorem ofLength_some {n : Nat} {b : List Byte} {f w : State → State} (e : ofLength n b f = some w) :
    f = w := by
  unfold ofLength at e
  split at e <;> simp_all

theorem keeps_lowWork (kind : RequestKind) (tag : Byte) (b : List Byte) (w : State → State)
    (e : lowWork kind tag b = some w) : Keeps P w := by
  unfold lowWork at e
  split at e
  case h_7 =>
    rw [← ofLength_some e]
    unfold workMode
    split
    · exact keeps_workModeConfig K tag
    · exact keeps_workModeRun K tag
    · exact keeps_reply K tag _ _
  case h_8 =>
    unfold configBody at e
    split at e
    · cases e
    · split at e
      · rw [← ofLength_some e]; exact keeps_workConfigWrite K tag _ _
      · split at e
        · cases e; exact keeps_workConfigWrite K tag _ _
        · cases e
  case h_14 =>
    rw [← ofLength_some e]
    unfold workTest
    split
    · exact keeps_workTestStop K tag _
    · exact keeps_workTestStart K tag _
    · exact keeps_reply K tag _ _
  case h_21 => cases e
  all_goals rw [← ofLength_some e]
  · exact keeps_reply K tag _ _
  · exact keeps_workReset K tag
  · exact keeps_workNoticeEnable K tag _
  · exact keeps_workNoticeResume K tag
  · exact keeps_workNoticeClear K tag _
  · exact keeps_workSilenceSet K tag _
  · exact keeps_reply K tag _ _
  · exact keeps_workSettingsSave K tag
  · exact keeps_workSettingsLoad K tag
  · exact keeps_workZoneSet K tag _ _ _
  · exact keeps_reply K tag _ _
  · exact keeps_workPollSet K tag _ _
  · exact keeps_reply K tag _ _
  · exact keeps_workModuleClear K tag _
  · exact keeps_workModuleRestore K tag _
  · exact keeps_workAmpRead K tag _ _
  · exact keeps_workAmpWrite K tag _ _ _

theorem keeps_answer (tag : Byte) (kind : RequestKind) (f : Env → Services → Answer × Services)
    (hf : ∀ env sv, P sv → P (f env sv).2) : Keeps P (answerWith tag kind f) :=
  fun s h => kept_answerWith K tag kind f s hf h

theorem keeps_midWork (kind : RequestKind) (tag : Byte) (b : List Byte) (w : State → State)
    (e : midWork kind tag b = some w) : Keeps P w := by
  unfold midWork at e
  split at e
  case h_1 =>
    unfold cueWriteBody at e
    split at e
    · cases e
    · dsimp only at e
      split at e
      · cases hl : actionsOf (byteAt b 3) (b.drop 4) with
        | none => rw [hl] at e; cases e
        | some l => rw [hl] at e; cases e; exact keeps_workCueWrite K tag _ _ _
      · cases e; exact keeps_workCueWrite K tag _ _ _
  case h_15 =>
    unfold channelModeBody at e
    split at e <;> cases e
    · exact keeps_answer K tag _ _ (fun env sv k => kept_modeScripted K.toKept env _ sv k)
    · exact keeps_answer K tag _ _ (fun env sv k => kept_modeStanding K.toKept env _ _ _ sv k)
    · exact keeps_reply K tag _ _
    · exact keeps_reply K tag _ _
  case h_17 => cases e
  all_goals rw [← ofLength_some e]
  · exact keeps_workCueErase K tag _ _
  · exact keeps_reply K tag _ _
  · exact keeps_workCueGo K tag _
  · exact keeps_workCueSet K tag _ _
  · exact keeps_reply K tag _ _
  · exact keeps_reply K tag _ _
  · exact keeps_reply K tag _ _
  · exact keeps_answer K tag _ _ (fun env sv k => kept_feedSlot K.toKept env _ _ _ _ sv k)
  · exact keeps_reply K tag _ _
  · exact keeps_answer K tag _ _ (fun env sv k => kept_clipArm K env _ _ _ _ _ sv k)
  · exact keeps_answer K tag _ _ (fun env sv k => kept_clipStart K env _ sv k)
  · exact keeps_answer K tag _ _ (fun env sv k => kept_clipStop K.toKept env _ sv k)
  · exact keeps_answer K tag _ _ (fun env sv k => kept_clipDisarm K.toKept env _ _ sv k)
  · exact keeps_reply K tag _ _

theorem keeps_highWork (kind : RequestKind) (tag : Byte) (b : List Byte) (w : State → State)
    (e : highWork kind tag b = some w) : Keeps P w := by
  unfold highWork at e
  split at e
  case h_1 =>
    unfold callPostBody at e
    split at e
    · rw [← ofLength_some e]
      exact keeps_answer K tag _ _ (fun env sv k => kept_callPost K env _ sv k)
    · split at e
      · cases e; exact keeps_reply K tag _ _
      · cases e
  case h_13 => cases e
  all_goals rw [← ofLength_some e]
  · exact keeps_answer K tag _ _ (fun _ sv k => kept_callRelease K.toKept _ sv k)
  · exact keeps_answer K tag _ _ (fun env sv k => kept_callEnd K.toKept env _ sv k)
  · exact keeps_answer K tag _ _ (fun env sv k => kept_callCancel K.toKept env _ sv k)
  · exact keeps_reply K tag _ _
  · exact keeps_answer K tag _ _ (fun _ sv k => kept_takeFinished K sv k)
  · exact keeps_workHouseOpen K tag _
  · exact keeps_workHouseClose K tag _ _
  · exact keeps_workAdmitOpen K tag _ _ _
  · exact keeps_workAdmitClose K tag _
  · exact keeps_reply K tag _ _
  · exact keeps_answer K tag _ _ (fun _ sv k => kept_clearLatches K _ sv k)

theorem keeps_bodyWork (kind : RequestKind) (tag : Byte) (b : List Byte) (w : State → State)
    (e : bodyWork kind tag b = some w) : Keeps P w := by
  unfold bodyWork at e
  split at e
  · exact keeps_lowWork K kind tag b w e
  · split at e
    · exact keeps_midWork K kind tag b w e
    · exact keeps_highWork K kind tag b w e

/-! ## Acceptance, the receiver, the transmitter -/

theorem kept_validFrame (s : State) (h : P s.svc) : P (validFrame s).svc :=
  kept_updLink K _ s (fun l => by split <;> exact ⟨rfl, rfl⟩) h

theorem kept_sendImmediate (tag kind : Byte) (b : List Byte) (s : State) (h : P s.svc) :
    P (sendImmediate tag kind b s).svc := by
  unfold sendImmediate State.updLink
  dsimp only
  split
  · exact h
  · refine kept_link K _ s.svc (le_refl _) (Or.inl ?_) h
    rename_i room
    rw [List.filter_append, List.length_append]
    show _ + 1 ≤ 4
    omega

theorem kept_accept (tag : Byte) (kind : RequestKind) (w : State → State) (hw : Keeps P w) (s : State)
    (h : P s.svc) : P (accept tag kind w s).svc := by
  unfold accept
  split
  · exact kept_sendImmediate K _ _ _ s h
  · rename_i hl
    refine kept_settled K _ (hw _ (K.same s.svc _ ⟨fun _ => Or.inr (le_refl _), rfl,
      fun _ => ⟨rfl, rfl, rfl⟩, fun _ => Or.inr (le_refl _), Or.inr (le_refl _), Or.inr (le_refl _),
      Or.inl ?_, Or.inr (le_refl _)⟩ h))
    simp only [joinList, State.updLink, Services.setLink, List.length_append, List.length_singleton]
    omega

theorem kept_request {tag : Byte} {kind : RequestKind} {w : State → State} {s t : State}
    (e : request tag kind w s = .next t) (h : P s.svc) (hw : Keeps P w) : P t.svc := by
  unfold request at e
  cases e
  split
  · exact h
  · split
    · exact kept_accept K tag kind w hw _ (kept_validFrame K s h)
    · exact kept_validFrame K s h

theorem kept_event {w : State → State} {s t : State} (e : event w s = .next t) (h : P s.svc)
    (hw : Keeps P w) : P t.svc := by
  unfold event at e
  cases e
  split
  · exact h
  · exact kept_settled K _ (hw s h)

theorem keeps_takeFrame (f : List Byte) : Keeps P (takeFrame f) := by
  intro s h
  have h1 := kept_validFrame K s h
  unfold takeFrame
  dsimp only
  split
  · unfold acceptFrame
    split
    · exact kept_sendImmediate K _ _ _ _ h1
    · split
      · exact kept_sendImmediate K _ _ _ _ h1
      · exact kept_accept K _ _ _ (keeps_bodyWork K _ _ _ _ (by assumption)) _ h1
  · exact h1

theorem kept_hunt (n : Nat) (kept : List KeptByte) (s : State) (h : P s.svc) :
    P (hunt n kept s).svc := by
  induction n generalizing kept s with
  | zero => exact kept_updLink K _ s (fun _ => ⟨rfl, rfl⟩) h
  | succ n ih =>
    cases kept with
    | nil => exact kept_updLink K _ s (fun _ => ⟨rfl, rfl⟩) h
    | cons first rest =>
      unfold hunt
      split
      · exact ih _ s h
      · exact kept_updLink K _ s (fun _ => ⟨rfl, rfl⟩) h
      · exact ih _ _ (keeps_takeFrame K _ s h)

theorem keeps_linkByte (b : Byte) (f : Bool) : Keeps P (linkByte b f) := by
  intro s h
  unfold linkByte
  extract_lets kept
  split
  · exact kept_hunt K _ _ s h
  · exact kept_hunt K _ _ s h

theorem keeps_frameSent : Keeps P frameSent := by
  intro s h
  unfold frameSent
  split
  · exact h
  · rename_i e
    exact kept_link K _ s.svc (le_refl _) (Or.inr (by rw [e]; exact le_refl _)) h
  · rename_i tag kind _ rest _ e
    have h1 : P (s.updLink (fun l =>
        { l with tx := rest, outstanding := leaveList tag kind l.outstanding })).svc :=
      kept_link K _ s.svc List.length_erase_le (Or.inr (by rw [e]; exact le_refl _)) h
    dsimp only
    split
    · exact kept_beginReset K _ _
    · exact h1
  · rename_i e
    exact kept_link K _ s.svc (le_refl _) (Or.inr (by rw [e]; exact Nat.le_succ _)) h
  · rename_i rest e
    have c := linkCore_judgeNotice s.env { s.svc.link with tx := rest }
    exact kept_link K _ s.svc (le_of_eq (congrArg (·.2.1.length) c)) (Or.inr (by
      rw [e]; exact le_of_eq (congrArg (·.2.2.1.length) c))) h

theorem keeps_silenceExpired : Keeps P silenceExpired := by
  intro s h
  unfold silenceExpired
  split
  · exact kept_serve _ _ (fun env sv k => kept_abandonWhere K.toKept _ _ _ (kept_raise K.toKept env _ _ k))
      (kept_updLink K _ s (fun _ => ⟨rfl, rfl⟩) h)
  · exact h

/-! ## Events and the console -/

omit K in
theorem keeps_serve (f : Env → Services → Services) (hf : ∀ env sv, P sv → P (f env sv)) :
    Keeps P (fun s => s.serve f) := fun s h => kept_serve f s hf h

theorem keeps_cuePressed (a : Aud) : Keeps P (cuePressed a) := by
  intro s h
  unfold cuePressed
  extract_lets c s1
  split
  · split
    · exact h
    · exact kept_arriveCue K _ _ _ h
  · exact h

omit K in
theorem keeps_cueReleased (a : Aud) : Keeps P (cueReleased a) := by
  intro s h
  unfold cueReleased
  split <;> exact h

omit K in
theorem keeps_cueSettled (a : Aud) (b : Bool) : Keeps P (cueSettled a b) := by
  intro s h
  unfold cueSettled
  split <;> exact h

theorem keeps_levelUpdated (a : Aud) (l : List (Option Int)) : Keeps P (levelUpdated a l) := by
  intro s h
  unfold levelUpdated
  extract_lets s1 k clock q
  split
  · split
    · exact kept_serve _ _ (fun env sv k => kept_musicResumed K env a _ sv k) h
    · exact h
  · exact h

theorem keeps_openTimerExpired (a : Aud) : Keeps P (openTimerExpired a) := by
  intro s h
  unfold openTimerExpired
  split
  · exact kept_serve _ _ (fun env sv k => kept_gapOpened K.toKept env a sv k) h
  · exact h

theorem kept_setLiveKey (k : LiveInput) (f : FilterState) (b : Bool) (s : State) (h : P s.svc) :
    P (setLiveKey k f b s).svc := by
  cases k <;> exact kept_free K s.svc _ rfl rfl rfl rfl rfl rfl rfl h

theorem keeps_liveKeyPressed (k : LiveInput) : Keeps P (liveKeyPressed k) := by
  intro s h
  unfold liveKeyPressed
  split
  · exact kept_serve _ _ (fun env sv x => kept_livePress K.toKept env k sv x)
      (kept_setLiveKey K k _ _ s h)
  · exact h

theorem keeps_liveKeyReleased (k : LiveInput) : Keeps P (liveKeyReleased k) := by
  intro s h
  unfold liveKeyReleased
  split
  · exact kept_serve _ _ (fun env sv x => kept_liveRelease K.toKept env k sv x)
      (kept_setLiveKey K k _ _ s h)
  · exact h

theorem keeps_liveKeySettled (k : LiveInput) : Keeps P (liveKeySettled k) := by
  intro s h
  unfold liveKeySettled
  split
  · exact kept_setLiveKey K k _ _ s h
  · exact h

theorem keeps_entranceEvent (e : EntranceId) (b : Bool) : Keeps P (entranceEvent e b) := by
  intro s h
  unfold entranceEvent
  split
  · exact h
  · exact kept_serve _ _ (fun env sv x => kept_sensorEvent K env e b sv x) (kept_putEntrance K e _ _ h)

theorem keeps_testExpired (z : ZoneId) (src : TestSource) : Keeps P (testExpired z src) := by
  intro s h
  unfold testExpired
  split
  · exact kept_serve _ _ (fun env sv x => kept_endTest K.toKept env src z sv x) h
  · exact h

theorem keeps_pollGapExpired : Keeps P pollGapExpired := by
  intro s h
  unfold pollGapExpired
  split
  · exact kept_grantBus K _ (by rw [beginRound_svc]; exact h)
  · exact h

omit K in
theorem keeps_pageWriteTimeout : Keeps P pageWriteTimeout := by
  intro s h
  unfold pageWriteTimeout
  split <;> exact h

theorem keeps_runCommand (c : ConsoleCommand) : Keeps P (runCommand c) := by
  intro s h
  cases c with
  | status => exact h
  | zone n =>
    show P (runZone n s).svc
    unfold runZone
    split <;> exact h
  | module_ n =>
    show P (runModule n s).svc
    unfold runModule
    split <;> exact h
  | test n b =>
    cases b
    · exact kept_stopTest K.toKept _ _ _ _ h
    · exact kept_startTest K.toKept _ _ _ _ h
  | go n =>
    show P (runGo n s).svc
    unfold runGo
    split
    · exact h
    · split
      · exact kept_arriveCue K _ _ s h
      · exact h
  | read m w =>
    show P (runRead m w s).svc
    unfold runRead
    split
    · exact h
    · exact keeps_beginPass K _ s h

theorem keeps_endLine (c : Option ConsoleCommand) : Keeps P (endLine c) := by
  intro s h
  unfold endLine
  extract_lets s1
  split
  · split
    · exact keeps_runCommand K _ _ h
    · exact h
  · exact h

theorem keeps_takeCharacter (c : Byte) (f : Bool) : Keeps P (takeCharacter c f) := by
  intro s h
  unfold takeCharacter
  split
  · exact h
  · split <;> exact h
  · split
    · exact h
    · unfold editCharacter
      extract_lets k
      split
      · split
        · exact h
        · split <;> exact h
      · split
        · split <;> exact h
        · split
          · split <;> exact h
          · split
            · split
              · exact h
              · exact keeps_endLine K _ s h
            · exact h
  · split <;> exact h
  · exact h

theorem keeps_consoleCharacter (c : Byte) (f : Bool) : Keeps P (consoleCharacter c f) :=
  fun _ h => keeps_takeCharacter K c f _ h

/-! ## Every step -/

theorem kept_entrances (v : Vector Entrance 12) (sv : Services) (h : P sv) :
    P { sv with entrances := v } := kept_free K sv _ rfl rfl rfl rfl rfl rfl rfl h

theorem keeps_tick : Keeps P tick := by
  intro s h
  unfold tick
  split
  · exact h
  · extract_lets s1 s2
    have h0 : P (finishWork s).svc :=
      kept_settled K _ (kept_resumeFiring K _ _ (kept_resumeFiring K _ s h))
    have h1 : P s1.svc := by
      refine K.same (finishWork s).svc _ ⟨fun z => Or.inr ?_, rfl, fun i => ?_, fun d => Or.inr ?_,
        Or.inr ?_, Or.inr (le_refl _), Or.inr (le_refl _), Or.inr (le_refl _)⟩ h0
      · show (look ((finishWork s).svc.zones.map ZoneRecord.tick) z).stack.length ≤ _
        rw [look_map]; exact le_refl _
      · show (look ((finishWork s).svc.slots.map Slot.tick) i).state = _
          ∧ (look ((finishWork s).svc.slots.map Slot.tick) i).held = _
          ∧ (look ((finishWork s).svc.slots.map Slot.tick) i).length = _
        rw [look_map]; exact ⟨rfl, rfl, rfl⟩
      · show (look ((finishWork s).svc.channels.map Channel.tick) d).queue.length ≤ _
        rw [look_map]; exact le_refl _
      · show ((finishWork s).svc.calls.map Call.tick).length ≤ _
        simp
    clear_value s1
    show P (sampleSlow (sampleFast s1)).svc
    have h2 : P (sampleFast s1).svc := by
      unfold sampleFast
      split
      · exact kept_keys K _ _ _ h1
      · exact h1
    unfold sampleSlow
    split
    · exact kept_entrances K _ _ h2
    · exact h2

set_option maxHeartbeats 4000000 in
theorem exec_keeps (c : Instr) (s t : State) (h : P s.svc) (e : exec c s = .next t) : P t.svc := by
  have rep : ∀ tag kind (f : State → Answer), Keeps P (fun s : State => s.reply tag kind (f s)) :=
    fun tag kind f => keeps_reply K tag kind f
  have row : ∀ c, commandRow c s = .next t → P t.svc := fun c e =>
    kept_event K e h (fun s h => by
      split
      · exact keeps_endLine K _ s h
      · exact h)
  cases c with
  | powerOn => cases e; exact K.fresh
  | supplyDip => cases e; exact K.fresh
  | resetLine => cases e; exact K.fresh
  | resetEnd x y =>
    cases e
    split
    · exact kept_settled K _ (kept_leaveReset x y _ h)
    · exact h
  | startLoadDone =>
    simp only [exec, execStartLoadDone] at e
    exact kept_event K e h (keeps_startLoadDone K)
  | linkByteReceived b f =>
    simp only [exec, execLinkByteReceived] at e
    exact kept_event K e h (keeps_linkByte K b f)
  | frameTimeout =>
    simp only [exec, execFrameTimeout] at e
    exact kept_event K e h (fun s h => by
      split
      · exact h
      · exact kept_hunt K _ _ s h)
  | frameSent =>
    cases e
    split
    · exact h
    · exact keeps_frameSent K s h
  | silenceTimerExpiry =>
    simp only [exec, execSilenceTimerExpiry] at e
    exact kept_event K e h (keeps_silenceExpired K)
  | ident tag =>
    simp only [exec, execIdent] at e
    exact kept_request K e h (rep _ _ _)
  | reset tag =>
    simp only [exec, execReset] at e
    exact kept_request K e h (keeps_workReset K _)
  | noticeEnable tag w =>
    simp only [exec, execNoticeEnable] at e
    exact kept_request K e h (keeps_workNoticeEnable K _ _)
  | noticeResume tag =>
    simp only [exec, execNoticeResume] at e
    exact kept_request K e h (keeps_workNoticeResume K _)
  | noticeClear tag w =>
    simp only [exec, execNoticeClear] at e
    exact kept_request K e h (keeps_workNoticeClear K _ _)
  | silenceSet tag n =>
    simp only [exec, execSilenceSet] at e
    exact kept_request K e h (keeps_workSilenceSet K _ _)
  | modeRun tag =>
    simp only [exec, execModeRun] at e
    exact kept_request K e h (keeps_workModeRun K _)
  | modeConfig tag =>
    simp only [exec, execModeConfig] at e
    exact kept_request K e h (keeps_workModeConfig K _)
  | configWrite tag i r =>
    simp only [exec, execConfigWrite] at e
    exact kept_request K e h (keeps_workConfigWrite K _ _ _)
  | configRead tag i =>
    simp only [exec, execConfigRead] at e
    exact kept_request K e h (rep _ _ _)
  | settingsSave tag =>
    simp only [exec, execSettingsSave] at e
    exact kept_request K e h (keeps_workSettingsSave K _)
  | settingsSaveDone b =>
    simp only [exec, execSettingsSaveDone] at e
    exact kept_event K e h (keeps_settingsSaveDone K b)
  | settingsLoad tag =>
    simp only [exec, execSettingsLoad] at e
    exact kept_request K e h (keeps_workSettingsLoad K _)
  | settingsLoadDone =>
    simp only [exec, execSettingsLoadDone] at e
    exact kept_event K e h (keeps_settingsLoadDone K)
  | settingsPageWriteTimeout =>
    simp only [exec, execSettingsPageWriteTimeout] at e
    exact kept_event K e h keeps_pageWriteTimeout
  | zoneSet tag z l m =>
    simp only [exec, execZoneSet] at e
    exact kept_request K e h (keeps_workZoneSet K _ _ _ _)
  | zoneStatus tag z =>
    simp only [exec, execZoneStatus] at e
    exact kept_request K e h (rep _ _ _)
  | testToneStart tag z =>
    simp only [exec, execTestToneStart] at e
    exact kept_request K e h (keeps_workTestStart K _ _)
  | testToneStop tag z =>
    simp only [exec, execTestToneStop] at e
    exact kept_request K e h (keeps_workTestStop K _ _)
  | testLimitExpiry z src =>
    simp only [exec, execTestLimitExpiry] at e
    exact kept_event K e h (keeps_testExpired K z src)
  | overrideAsserted =>
    simp only [exec, execOverrideAsserted] at e
    exact kept_event K e h (keeps_overrideAsserted K)
  | overrideReleased =>
    simp only [exec, execOverrideReleased] at e
    exact kept_event K e h (keeps_overrideReleased K)
  | pollSet tag w g =>
    simp only [exec, execPollSet] at e
    exact kept_request K e h (keeps_workPollSet K _ _ _)
  | moduleStatus tag m =>
    simp only [exec, execModuleStatus] at e
    exact kept_request K e h (rep _ _ _)
  | moduleClear tag m =>
    simp only [exec, execModuleClear] at e
    exact kept_request K e h (keeps_workModuleClear K _ _)
  | moduleRestore tag m =>
    simp only [exec, execModuleRestore] at e
    exact kept_request K e h (keeps_workModuleRestore K _ _)
  | ampRead tag m w =>
    simp only [exec, execAmpRead] at e
    exact kept_request K e h (keeps_workAmpRead K _ _ _)
  | ampWrite tag m w v =>
    simp only [exec, execAmpWrite] at e
    exact kept_request K e h (keeps_workAmpWrite K _ _ _ _)
  | busTransactionEnd w =>
    simp only [exec, execBusTransactionEnd] at e
    exact kept_event K e h (fun s h => kept_busEnd K _ s h)
  | busAnswerTimeout =>
    simp only [exec, execBusAnswerTimeout] at e
    exact kept_event K e h (fun s h => kept_busEnd K _ s h)
  | pollGapExpiry =>
    simp only [exec, execPollGapExpiry] at e
    exact kept_event K e h (keeps_pollGapExpired K)
  | cuePress a =>
    simp only [exec, execCuePress] at e
    exact kept_event K e h (keeps_cuePressed K a)
  | cueLineRelease a =>
    simp only [exec, execCueLineRelease] at e
    exact kept_event K e h (keeps_cueReleased a)
  | lockoutExpiry a =>
    simp only [exec, execLockoutExpiry] at e
    exact kept_event K e h (fun _ h => h)
  | cueGo tag a =>
    simp only [exec, execCueGo] at e
    exact kept_request K e h (keeps_workCueGo K _ _)
  | cueSet tag a p =>
    simp only [exec, execCueSet] at e
    exact kept_request K e h (keeps_workCueSet K _ _ _)
  | cueWrite tag a n l =>
    simp only [exec, execCueWrite] at e
    exact kept_request K e h (keeps_workCueWrite K _ _ _ _)
  | cueErase tag a n =>
    simp only [exec, execCueErase] at e
    exact kept_request K e h (keeps_workCueErase K _ _ _)
  | cueRead tag a n =>
    simp only [exec, execCueRead] at e
    exact kept_request K e h (rep _ _ _)
  | cueStatus tag a =>
    simp only [exec, execCueStatus] at e
    exact kept_request K e h (rep _ _ _)
  | captureRead tag a =>
    simp only [exec, execCaptureRead] at e
    exact kept_request K e h (rep _ _ _)
  | levelUpdate a l =>
    simp only [exec, execLevelUpdate] at e
    exact kept_event K e h (keeps_levelUpdated K a l)
  | openTimerExpiry a =>
    simp only [exec, execOpenTimerExpiry] at e
    exact kept_event K e h (keeps_openTimerExpired K a)
  | gapStatus tag a =>
    simp only [exec, execGapStatus] at e
    exact kept_request K e h (rep _ _ _)
  | feed tag sl o f b =>
    simp only [exec, execFeed] at e
    exact kept_request K e h (keeps_answer K _ _ _ fun env sv k => kept_feedSlot K.toKept env _ _ _ _ sv k)
  | streamStatus tag =>
    simp only [exec, execStreamStatus] at e
    exact kept_request K e h (rep _ _ _)
  | blockPlayed i =>
    simp only [exec, execBlockPlayed] at e
    exact kept_event K e h (keeps_serve _ fun env sv k => kept_blockPlayed K.toKept env i sv k)
  | starveTimerExpiry i =>
    simp only [exec, execStarveTimerExpiry] at e
    exact kept_event K e h (keeps_serve _ fun _ sv k => kept_starveExpired K.toKept i sv k)
  | liveKeyPress k =>
    simp only [exec, execLiveKeyPress] at e
    exact kept_event K e h (keeps_liveKeyPressed K k)
  | liveKeyRelease k =>
    simp only [exec, execLiveKeyRelease] at e
    exact kept_event K e h (keeps_liveKeyReleased K k)
  | liveKeySettled k =>
    simp only [exec, execLiveKeySettled] at e
    exact kept_event K e h (keeps_liveKeySettled K k)
  | clipArm tag d i n c l =>
    simp only [exec, execClipArm] at e
    exact kept_request K e h (keeps_answer K _ _ _ fun env sv k => kept_clipArm K env _ _ _ _ _ sv k)
  | clipDisarm tag d i =>
    simp only [exec, execClipDisarm] at e
    exact kept_request K e h (keeps_answer K _ _ _ fun env sv k => kept_clipDisarm K.toKept env _ _ sv k)
  | clipStart tag d =>
    simp only [exec, execClipStart] at e
    exact kept_request K e h (keeps_answer K _ _ _ fun env sv k => kept_clipStart K env _ sv k)
  | clipStop tag d =>
    simp only [exec, execClipStop] at e
    exact kept_request K e h (keeps_answer K _ _ _ fun env sv k => kept_clipStop K.toKept env _ sv k)
  | channelModeScripted tag d =>
    simp only [exec, execChannelModeScripted] at e
    exact kept_request K e h (keeps_answer K _ _ _ fun env sv k => kept_modeScripted K.toKept env _ sv k)
  | channelModeStanding tag d i n =>
    simp only [exec, execChannelModeStanding] at e
    exact kept_request K e h (keeps_answer K _ _ _ fun env sv k => kept_modeStanding K.toKept env _ _ _ sv k)
  | channelStatus tag d =>
    simp only [exec, execChannelStatus] at e
    exact kept_request K e h (rep _ _ _)
  | latestStartPassed d =>
    simp only [exec, execLatestStartPassed] at e
    exact kept_event K e h (fun s h => by
      split
      · exact kept_latestPassed K.toKept _ d _ h
      · exact h)
  | resumeLimitExpiry d =>
    simp only [exec, execResumeLimitExpiry] at e
    exact kept_event K e h (keeps_serve _ fun env sv k => kept_resumeLimitExpired K.toKept env d sv k)
  | callPost tag f =>
    simp only [exec, execCallPost] at e
    exact kept_request K e h (keeps_answer K _ _ _ fun env sv k => kept_callPost K env _ sv k)
  | callRelease tag i =>
    simp only [exec, execCallRelease] at e
    exact kept_request K e h (keeps_answer K _ _ _ fun _ sv k => kept_callRelease K.toKept _ sv k)
  | callEnd tag i =>
    simp only [exec, execCallEnd] at e
    exact kept_request K e h (keeps_answer K _ _ _ fun env sv k => kept_callEnd K.toKept env _ sv k)
  | callCancel tag i =>
    simp only [exec, execCallCancel] at e
    exact kept_request K e h (keeps_answer K _ _ _ fun env sv k => kept_callCancel K.toKept env _ sv k)
  | callStatus tag i =>
    simp only [exec, execCallStatus] at e
    exact kept_request K e h (rep _ _ _)
  | callFinished tag =>
    simp only [exec, execCallFinished] at e
    exact kept_request K e h (keeps_answer K _ _ _ fun _ sv k => kept_takeFinished K sv k)
  | callExpiry i =>
    simp only [exec, execCallExpiry] at e
    exact kept_event K e h (keeps_serve _ fun env sv k => kept_callExpired K.toKept env i sv k)
  | spacingExpiry i =>
    simp only [exec, execSpacingExpiry] at e
    exact kept_event K e h (keeps_serve _ fun _ sv k => kept_spacingExpired K.toKept i sv k)
  | breakExpiry i =>
    simp only [exec, execBreakExpiry] at e
    exact kept_event K e h (keeps_serve _ fun env sv k => kept_breakExpired K.toKept env i sv k)
  | micTimerExpiry i =>
    simp only [exec, execMicTimerExpiry] at e
    exact kept_event K e h (keeps_serve _ fun env sv k => kept_micExpired K.toKept env i sv k)
  | chimeEnd o =>
    simp only [exec, execChimeEnd] at e
    exact kept_event K e h (keeps_serve _ fun env sv k => kept_chimeEnded K o env sv k)
  | entranceSensorEvent x b =>
    simp only [exec, execEntranceSensorEvent] at e
    exact kept_event K e h (keeps_entranceEvent K x b)
  | houseClose tag a f =>
    simp only [exec, execHouseClose] at e
    exact kept_request K e h (keeps_workHouseClose K _ _ _)
  | houseOpen tag a =>
    simp only [exec, execHouseOpen] at e
    exact kept_request K e h (keeps_workHouseOpen K _ _)
  | admitOpen tag a n m =>
    simp only [exec, execAdmitOpen] at e
    exact kept_request K e h (keeps_workAdmitOpen K _ _ _ _)
  | admitClose tag a =>
    simp only [exec, execAdmitClose] at e
    exact kept_request K e h (keeps_workAdmitClose K _ _)
  | windowExpiry a =>
    simp only [exec, execWindowExpiry] at e
    exact kept_event K e h (keeps_serve _ fun env sv k => kept_windowExpired K env a sv k)
  | graceExpiry a =>
    simp only [exec, execGraceExpiry] at e
    exact kept_event K e h (keeps_serve _ fun env sv k => kept_graceExpired K env a sv k)
  | entranceStatus tag a =>
    simp only [exec, execEntranceStatus] at e
    exact kept_request K e h (rep _ _ _)
  | entranceClear tag x =>
    simp only [exec, execEntranceClear] at e
    exact kept_request K e h (keeps_answer K _ _ _ fun _ sv k => kept_clearLatches K _ sv k)
  | consoleIdleExpiry =>
    simp only [exec, execConsoleIdleExpiry] at e
    exact kept_event K e h (fun s h => by split <;> exact h)
  | consoleCharacter c f =>
    simp only [exec, execConsoleCharacter] at e
    exact kept_event K e h (keeps_consoleCharacter K c f)
  | consoleStatus =>
    simp only [exec, execConsoleStatus] at e
    exact row _ e
  | consoleZoneStatus z =>
    simp only [exec, execConsoleZoneStatus] at e
    exact row _ e
  | consoleModuleStatus m =>
    simp only [exec, execConsoleModuleStatus] at e
    exact row _ e
  | consoleTestStart z =>
    simp only [exec, execConsoleTestStart] at e
    exact row _ e
  | consoleTestStop z =>
    simp only [exec, execConsoleTestStop] at e
    exact row _ e
  | softCue a =>
    simp only [exec, execSoftCue] at e
    exact row _ e
  | consoleAmpRead m w =>
    simp only [exec, execConsoleAmpRead] at e
    exact row _ e
  | cueLineSettled a b =>
    simp only [exec, execCueLineSettled] at e
    exact kept_event K e h (keeps_cueSettled a b)

/-- What a step keeps of the services. -/
theorem step_keeps (s t : State) (h : P s.svc) (e : step s = .next t) : P t.svc := by
  unfold step at e
  split at e
  · cases e; exact keeps_tick K s h
  · refine exec_keeps K _ _ t ?_ e
    exact h

end Sys2Proof.Laws
end

