-- ==== Sys2Proof/Laws/Lengths.lean ====
section
/-! SUPPORT. What every step keeps of the lists of the cue followers and of the console line: each
operation over the state leaves them within their bounds (`Keeps`), the services' work untouched. -/

namespace Sys2Proof.Laws.Lengths

open Sys2Proof Sys2Proof.Machine

/-- The lists are within their bounds. -/
abbrev Short (s : State) : Prop := Machine.Lengths s.cue s.console

/-- A work leaves the lists within their bounds. -/
def Keeps (f : State → State) : Prop := ∀ s, Short s → Short (f s)

theorem of_eq {s t : State} (h1 : t.cue = s.cue) (h2 : t.console = s.console) (h : Short s) : Short t := by
  unfold Short; rw [h1, h2]; exact h

theorem on_drive {s t : State} (d : OnDrive s t) (h : Short s) : Short t := of_eq d.cue d.console h

/-- A cue follower's lists are within their bounds. -/
structure Fits (c : CueFollower) : Prop where
  ascending : c.list.Pairwise (fun x y => x.number < y.number)
  entries : c.list.length ≤ 64
  captures : c.log.length ≤ 16
  waiting : c.waiting.length ≤ 8

theorem fits {s : State} (h : Short s) (a : Aud) : Fits (s.cue.get a) :=
  ⟨h.ascending a, h.entries a, h.captures a, h.waiting a⟩

/-- The bounds look at a follower's lists only. -/
theorem Fits.same {c d : CueFollower} (h : Fits c) (h1 : d.list = c.list) (h2 : d.log = c.log)
    (h3 : d.waiting = c.waiting) : Fits d :=
  ⟨by rw [h1]; exact h.ascending, by rw [h1]; exact h.entries, by rw [h2]; exact h.captures,
    by rw [h3]; exact h.waiting⟩

theorem of_fits {s : State} (h : ∀ a, Fits (s.cue.get a)) (l : s.console.line.length ≤ 40) : Short s :=
  ⟨fun a => (h a).ascending, fun a => (h a).entries, fun a => (h a).captures, fun a => (h a).waiting, l⟩

theorem short_updCue (a : Aud) (f : CueFollower → CueFollower) (s : State) (h : Short s)
    (hf : Fits (f (s.cue.get a))) : Short (s.updCue a f) := by
  refine of_fits (fun b => ?_) h.line
  show Fits ((updTwo s.cue a f).get b)
  cases a <;> cases b
  · exact hf
  · exact fits h .two
  · exact fits h .one
  · exact hf

theorem short_console (k : Console) (s : State) (h : Short s) (l : k.line.length ≤ 40) :
    Short { s with console := k } := ⟨h.ascending, h.entries, h.captures, h.waiting, l⟩

theorem short_show (lines : List (List TextField)) (s : State) (h : Short s) :
    Short (s.show lines) := short_console _ s h (Nat.zero_le _)

/-! ## Changes of what the bounds do not look at -/

theorem short_svc (v : Services) (s : State) (h : Short s) : Short { s with svc := v } := of_eq rfl rfl h

theorem short_serve (f : Env → Services → Services) (s : State) (h : Short s) : Short (s.serve f) :=
  of_eq rfl rfl h

theorem short_reply (tag : Byte) (kind : RequestKind) (ans : Answer) (s : State) (h : Short s) :
    Short (s.reply tag kind ans) := of_eq rfl rfl h

theorem short_settled (s : State) (h : Short s) : Short s.settled := of_eq rfl rfl h

theorem short_updLink (f : LinkPort → LinkPort) (s : State) (h : Short s) : Short (s.updLink f) :=
  of_eq rfl rfl h

theorem short_setSup (x : Supervisor) (s : State) (h : Short s) : Short (s.setSup x) := of_eq rfl rfl h

theorem short_updModule (m : ModuleId) (f : ModuleRecord → ModuleRecord) (s : State) (h : Short s) :
    Short (s.updModule m f) := of_eq rfl rfl h

theorem short_setVisit (v : Visit) (s : State) (h : Short s) : Short (s.setVisit v) := of_eq rfl rfl h

theorem short_protect (m : ModuleId) (b : Bool) (s : State) (h : Short s) : Short (s.protect m b) :=
  of_eq rfl rfl h

theorem short_setCfg (c : Configuration) (s : State) (h : Short s) : Short (s.setCfg c) :=
  of_eq rfl rfl h

theorem short_updControl (f : PartControl → PartControl) (s : State) (h : Short s) :
    Short (s.updControl f) := of_eq rfl rfl h

theorem short_updQuiet (a : Aud) (f : QuietDetector → QuietDetector) (s : State) (h : Short s) :
    Short (s.updQuiet a f) := of_eq rfl rfl h

/-! ## The cue followers -/

theorem short_doAction (a : Aud) (act : CueAction) (s : State) (h : Short s) :
    Short (doAction a act s).2 := by
  unfold doAction
  split
  · split <;> exact h
  · split <;> exact h
  all_goals exact h

theorem short_handOn (a : Aud) (s : State) (act : CueAction) (h : Short s) : Short (handOn a s act) :=
  short_updCue a _ _ (short_doAction a act s h) ((fits (short_doAction a act s h) a).same rfl rfl rfl)

theorem short_answerAdvance (k : CueAsker) (p n : Nat) (o : List ActionOutcome) (s : State)
    (h : Short s) : Short (answerAdvance k p n o s) := by
  unfold answerAdvance
  split
  · exact h
  · exact h
  · exact short_show _ s h

theorem short_finishFiring (a : Aud) (s : State) (h : Short s) : Short (finishFiring a s) := by
  unfold finishFiring
  dsimp only
  split
  · exact h
  · exact short_answerAdvance _ _ _ _ _ (short_serve _ _ (short_updCue a _ s h
      ((fits h a).same rfl rfl rfl)))

theorem short_fireRest (a : Aud) (s : State) (h : Short s) : Short (fireRest a s) := by
  unfold fireRest
  split
  · exact h
  · exact short_finishFiring a _ (foldl_inv Short _ (fun b x hb => short_handOn a b x hb) _ s h)

theorem appendCapture_length (r : Capture) (l : List Capture) (h : l.length ≤ 16) :
    (appendCapture r l).length ≤ 16 := by
  unfold appendCapture
  split <;> simp <;> omega

theorem short_takeAdvance (a : Aud) (k : CueAsker) (s : State) (h : Short s) :
    Short (takeAdvance a k s) := by
  unfold takeAdvance
  extract_lets c p s1
  have h1 : Short s1 := short_updCue a _ s h
    ⟨h.ascending a, h.entries a, appendCapture_length _ _ (h.captures a), h.waiting a⟩
  split
  · exact short_answerAdvance _ _ _ _ _ h1
  · exact short_fireRest a _ (short_updCue a _ s1 h1 ((fits h1 a).same rfl rfl rfl))

theorem short_takeCue (a : Aud) (w : WaitingCue) (s : State) (h : Short s) : Short (takeCue a w s) := by
  unfold takeCue
  split
  · exact short_takeAdvance a _ s h
  · exact short_reply _ _ _ _ (short_updCue a _ s h
      ⟨h.ascending a, h.entries a, appendCapture_length _ _ (h.captures a), h.waiting a⟩)

theorem short_refuseCue (w : WaitingCue) (st : Status) (s : State) (h : Short s) :
    Short (refuseCue w st s) := by
  unfold refuseCue
  split
  · exact h
  · exact h
  · exact short_show _ s h
  · exact h

theorem short_drainCues (n : Nat) (a : Aud) (s : State) (h : Short s) : Short (drainCues n a s) := by
  induction n generalizing s with
  | zero => exact h
  | succ n ih =>
    unfold drainCues
    dsimp only
    split
    · rename_i w rest _ e
      refine ih _ (short_takeCue a w _ (short_updCue a _ s h ⟨h.ascending a, h.entries a, h.captures a, ?_⟩))
      have := h.waiting a
      rw [e] at this
      exact Nat.le_of_succ_le this
    · exact h

theorem short_arriveCue (a : Aud) (w : WaitingCue) (s : State) (h : Short s) :
    Short (arriveCue a w s) := by
  unfold arriveCue
  dsimp only
  split
  · split
    · exact short_refuseCue w _ s h
    · refine short_updCue a _ s h ⟨h.ascending a, h.entries a, h.captures a, ?_⟩
      simp only [List.length_append, List.length_singleton]; omega
  · exact short_takeCue a w s h

theorem short_resumeFiring (a : Aud) (s : State) (h : Short s) : Short (resumeFiring a s) :=
  short_drainCues 8 a _ (short_fireRest a s h)

theorem short_cueTeardown (a : Aud) (s : State) (h : Short s) : Short (cueTeardown a s) :=
  short_finishFiring a _ (foldl_inv Short _ (fun b w hb => short_refuseCue w _ b hb) _ _
    (short_updCue a _ s h ⟨h.ascending a, h.entries a, h.captures a, Nat.zero_le _⟩))

/-! ## The loop supervisor -/

theorem short_answerPass (p : PassThrough) (st : Status) (v : Option Word16) (s : State)
    (h : Short s) : Short (answerPass p st v s) := by
  unfold answerPass
  dsimp only
  split
  · exact of_eq rfl rfl h
  · exact of_eq rfl rfl h
  · exact short_show _ s h
  · exact short_show _ s h

theorem short_grantPoll (s : State) (h : Short s) : Short (grantPoll s) := by
  unfold grantPoll; split <;> exact of_eq rfl rfl h

theorem short_grantBus (s : State) (h : Short s) : Short (grantBus s) := by
  unfold grantBus
  split
  · exact of_eq rfl rfl h
  · exact of_eq rfl rfl h
  · split
    · exact short_grantPoll _ (short_answerPass _ _ _ _ (of_eq rfl rfl h))
    · exact of_eq rfl rfl h
  · exact short_grantPoll s h

theorem short_beginRound (s : State) (h : Short s) : Short (beginRound s) := by
  unfold beginRound; split <;> exact of_eq rfl rfl h

theorem short_nextVisit (m : ModuleId) (s : State) (h : Short s) : Short (nextVisit m s) := by
  unfold nextVisit
  split
  · exact of_eq rfl rfl h
  · split <;> exact of_eq rfl rfl h

theorem short_resolveModule (s : State) (m : ModuleId) (h : Short s) : Short (resolveModule s m) :=
  on_drive (resolveModule_onDrive s m) h

theorem short_makeAbsent (m : ModuleId) (s : State) (h : Short s) : Short (makeAbsent m s) :=
  on_drive (makeAbsent_onDrive m s) h

theorem short_resolveVisit (v : Visit) (s : State) (h : Short s) : Short (resolveVisit v s) := by
  unfold resolveVisit
  dsimp only
  refine short_nextVisit _ _ (on_drive (noticeModule_onDrive _ _ _ _) (short_resolveModule _ _ ?_))
  split
  · exact short_protect _ _ _ (short_updModule _ _ _ h)
  · exact short_updModule _ _ _ h

theorem short_afterResistance (v : Visit) (s : State) (h : Short s) : Short (afterResistance v s) := by
  unfold afterResistance
  split
  · split
    · exact short_setVisit _ s h
    · exact short_resolveVisit v s h
  · exact short_resolveVisit v s h

theorem short_visitIdentity (v : Visit) (w : Word16) (s : State) (h : Short s) :
    Short (visitIdentity v w s) := by
  unfold visitIdentity
  extract_lets m r exchanged s1 s2
  have h1 : Short s1 := short_updModule _ _ _ h
  clear_value s1
  have h2 : Short s2 := by
    show Short (if _ then _ else _ : State)
    split
    · exact short_resolveModule _ _ h1
    · exact h1
  clear_value s2
  split
  · exact short_nextVisit _ _ (short_makeAbsent _ s h)
  · exact short_setVisit _ _ h2

theorem short_visitState (v : Visit) (w : Word16) (s : State) (h : Short s) :
    Short (visitState v w s) := by
  unfold visitState
  extract_lets m s1 r s2
  have h1 : Short s1 := short_updModule _ _ _ h
  clear_value s1
  have h2 : Short s2 := by
    show Short (if _ then _ else _ : State)
    split
    · exact short_protect _ _ _ h1
    · exact h1
  clear_value s2
  split
  · exact short_setVisit _ _ h2
  · exact short_nextVisit _ _ (short_resolveModule _ _ (short_updModule _ _ _ h2))

theorem short_visitAnswer (v : Visit) (w : Word16) (s : State) (h : Short s) :
    Short (visitAnswer v w s) := by
  unfold visitAnswer
  split
  · exact short_visitIdentity v w s h
  · exact short_visitState v w s h
  · exact short_setVisit _ _ (short_updModule _ _ _ h)
  · exact short_setVisit _ _ (short_updModule _ _ _ h)
  · exact short_afterResistance _ _ (short_updModule _ _ _ h)
  · exact short_resolveVisit _ _ (short_updModule _ _ _ h)

theorem short_pollEnd (r : Option Word16) (s : State) (h : Short s) : Short (pollEnd r s) := by
  unfold pollEnd
  split
  · split
    · exact short_nextVisit _ s h
    · split
      · exact short_visitAnswer _ _ s h
      · exact short_nextVisit _ _ (short_makeAbsent _ s h)
  · exact of_eq rfl rfl h

theorem short_passEnd (r : Option Word16) (s : State) (h : Short s) : Short (passEnd r s) := by
  unfold passEnd
  split
  · exact of_eq rfl rfl h
  · dsimp only
    split
    · exact short_answerPass _ _ _ _ (of_eq rfl rfl h)
    · exact short_answerPass _ _ _ _ (of_eq rfl rfl h)
    · refine short_answerPass _ _ _ _ ?_
      split <;> exact of_eq rfl rfl h

theorem short_busEnd (r : Option Word16) (s : State) (h : Short s) : Short (busEnd r s) := by
  unfold busEnd
  split
  · exact of_eq rfl rfl h
  · refine short_grantBus _ ?_
    split
    · unfold protectiveEnd
      split
      · exact of_eq rfl rfl h
      · exact short_makeAbsent _ _ (of_eq rfl rfl h)
    · exact short_passEnd r _ (of_eq rfl rfl h)
    · exact short_pollEnd r _ (of_eq rfl rfl h)

theorem short_dropModule (s : State) (m : ModuleId) (h : Short s) : Short (dropModule s m) := by
  unfold dropModule
  extract_lets s1
  have h1 : Short s1 := short_resolveModule _ _ (short_updModule _ _ _ h)
  clear_value s1
  split
  · split
    · split
      · exact short_setVisit _ _ h1
      · exact short_nextVisit _ _ h1
    · exact h1
  · exact h1

theorem short_wakePoll (s : State) (h : Short s) : Short (wakePoll s) := by
  unfold wakePoll
  split
  · exact short_beginRound s h
  · split
    · exact short_beginRound s h
    · exact of_eq rfl rfl h
  · exact of_eq rfl rfl h

theorem short_applyPoll (w : Word16) (g : Nat) (s : State) (h : Short s) : Short (applyPoll w g s) :=
  short_grantBus _ (short_wakePoll _ (foldl_inv Short _ (fun b m hb => short_dropModule b m hb) _ _
    (short_setCfg _ _ h)))

/-! ## Configuration, settings and resets -/

theorem short_takeZone (z : ZoneId) (c : ZoneConfig) (s : State) (h : Short s) :
    Short (takeZone z c s) := by
  unfold takeZone
  exact foldl_inv Short _ (fun b m hb => short_resolveModule b m hb) _ _
    (on_drive (resolveZone_onDrive _ _) (short_svc _ _ (short_setCfg _ _ h)))

theorem short_takeRecord (s : State) (i : Nat) (r : ConfigRecord) (h : Short s) :
    Short (takeRecord s i r) := by
  unfold takeRecord
  split
  · split
    · exact short_takeZone _ _ s h
    · exact h
  · split
    · exact short_svc _ _ (short_setCfg _ _ h)
    · exact h
  · split
    · exact short_setCfg _ _ h
    · exact h
  · exact short_setCfg _ _ h
  · exact short_applyPoll _ _ _ (short_setSup _ _ (short_setCfg _ _ h))
  · exact short_serve _ _ (short_setCfg _ _ h)

theorem short_takeRecords (i : Nat) (l : List ConfigRecord) (s : State) (h : Short s) :
    Short (takeRecords i l s) := by
  induction l generalizing i s with
  | nil => exact h
  | cons r rest ih => exact ih _ _ (short_takeRecord s i r h)

theorem short_quiet (q : Two QuietDetector) (s : State) (h : Short s) : Short { s with quiet := q } :=
  of_eq rfl rfl h

theorem short_blocksEnterConfig (s : State) (h : Short s) : Short (blocksEnterConfig s) := by
  unfold blocksEnterConfig
  exact short_updLink _ _ (short_serve _ _ (short_quiet _ _ (short_cueTeardown .two _
    (short_cueTeardown .one _ (short_svc _ _ h)))))

theorem short_reset (cause : ResetCause) (s : State) : Short (beginReset cause s) :=
  of_fits (fun a => by cases a <;> exact ⟨.nil, Nat.zero_le _, Nat.zero_le _, Nat.zero_le _⟩) (Nat.zero_le _)

theorem short_leaveReset (x y : Bool) (s : State) (h : Short s) : Short (leaveReset x y s) := by
  unfold leaveReset
  extract_lets s1 s2
  split
  · exact of_eq rfl rfl h
  · exact short_beginRound _ (of_eq rfl rfl h)

theorem short_endSettings (r : SettingsResult) (s : State) (h : Short s) : Short (endSettings r s) :=
  short_serve _ _ (short_updControl _ _ h)

theorem short_blocksEnterRun (s : State) (h : Short s) : Short (blocksEnterRun s) :=
  short_updLink _ _ (short_serve _ _ h)

theorem short_setRunning (b : Bool) (s : State) (h : Short s) : Short (s.setRunning b) :=
  of_eq rfl rfl h

theorem short_enterLoaded (s : State) (h : Short s) : Short (enterLoaded s) := by
  unfold enterLoaded
  split
  · exact short_endSettings _ _ (short_blocksEnterRun _ (short_setRunning _ _ h))
  · exact short_endSettings _ _ h

theorem short_firstRound (s : State) (h : Short s) : Short (firstRound s) := by
  unfold firstRound
  split
  · exact short_grantBus _ (short_beginRound _ h)
  · exact h

theorem short_startLoadDone : Keeps startLoadDone := by
  intro s h
  unfold startLoadDone
  split
  · dsimp only
    refine short_firstRound _ ?_
    split
    · exact short_enterLoaded _ (short_takeRecords 0 _ s h)
    · exact short_endSettings _ _ h
  · exact h

theorem short_settingsLoadDone : Keeps settingsLoadDone := by
  intro s h
  unfold settingsLoadDone
  split
  · exact short_endSettings _ _ (short_reply _ _ _ _ (short_takeRecords 0 _ s h))
  · exact of_eq rfl rfl h

/-! ## The requests -/

theorem short_workConfigWrite (tag : Byte) (i : Nat) (r : Option ConfigRecord) :
    Keeps (workConfigWrite tag i r) := by
  intro s h
  unfold workConfigWrite
  split
  · exact of_eq rfl rfl h
  · exact short_reply _ _ _ _ (short_takeRecord s _ _ h)
  · exact of_eq rfl rfl h

theorem mem_insertEntry (e x : CueEntry) (l : List CueEntry) (h : x ∈ insertEntry e l) :
    x = e ∨ x ∈ l := by
  induction l with
  | nil => exact Or.inl (List.mem_singleton.1 h)
  | cons y rest ih =>
    unfold insertEntry at h
    split at h
    · rcases List.mem_cons.1 h with rfl | h
      · exact Or.inr List.mem_cons_self
      · exact (ih h).imp id (List.mem_cons_of_mem _)
    · split at h
      · rcases List.mem_cons.1 h with rfl | h
        · exact Or.inl rfl
        · exact Or.inr (List.mem_cons_of_mem _ h)
      · exact (List.mem_cons.1 h)

/-- R61: an entry's place keeps the order of the list. -/
theorem insertEntry_ascending (e : CueEntry) (l : List CueEntry)
    (h : l.Pairwise (fun x y => x.number < y.number)) :
    (insertEntry e l).Pairwise (fun x y => x.number < y.number) := by
  induction l with
  | nil => exact List.pairwise_singleton _ _
  | cons y rest ih =>
    obtain ⟨hy, hr⟩ := List.pairwise_cons.1 h
    unfold insertEntry
    split
    · rename_i lt
      refine List.pairwise_cons.2 ⟨fun x hx => ?_, ih hr⟩
      rcases mem_insertEntry e x rest hx with rfl | hx
      · exact lt
      · exact hy x hx
    · split
      · rename_i eq
        exact List.pairwise_cons.2 ⟨fun x hx => eq ▸ hy x hx, hr⟩
      · refine List.pairwise_cons.2 ⟨fun x hx => ?_, h⟩
        rcases List.mem_cons.1 hx with rfl | hx
        · omega
        · have := hy x hx; omega

theorem insertEntry_length (e : CueEntry) (l : List CueEntry) :
    (insertEntry e l).length ≤ l.length + 1 := by
  induction l with
  | nil => exact le_refl _
  | cons x rest ih =>
    unfold insertEntry
    split
    · simpa using ih
    · split <;> simp

/-- R61: an entry that replaces one adds none. -/
theorem insertEntry_same (e : CueEntry) (l : List CueEntry)
    (sorted : l.Pairwise (fun x y => x.number < y.number))
    (h : ∃ x ∈ l, x.number = e.number) : (insertEntry e l).length = l.length := by
  induction l with
  | nil => obtain ⟨x, hx, _⟩ := h; cases hx
  | cons y rest ih =>
    obtain ⟨hy, hr⟩ := List.pairwise_cons.1 sorted
    obtain ⟨x, hx, hn⟩ := h
    unfold insertEntry
    split
    · rename_i lt
      have hx : x ∈ rest := by
        rcases List.mem_cons.1 hx with rfl | hx
        · omega
        · exact hx
      simp [ih hr ⟨x, hx, hn⟩]
    · split
      · simp
      · rcases List.mem_cons.1 hx with rfl | hx
        · omega
        · have := hy x hx; omega

theorem short_workCueWrite (tag : Byte) (n k : Nat) (l : List (Option CueAction)) :
    Keeps (workCueWrite tag n k l) := by
  intro s h
  unfold workCueWrite
  split
  · exact short_reply _ _ _ s h
  · rename_i a e hc
    dsimp only
    refine short_reply _ _ _ _ (short_updCue a _ s h
      ⟨insertEntry_ascending e _ (h.ascending a), ?_, h.captures a, h.waiting a⟩)
    show (insertEntry e (s.cue.get a).list).length ≤ 64
    have hl := insertEntry_length e (s.cue.get a).list
    have he := h.entries a
    by_cases full : 64 ≤ (s.cue.get a).list.length
    · rw [insertEntry_same e _ (h.ascending a)]
      · exact he
      · unfold cueWriteCheck at hc
        split at hc
        · split at hc
          · cases hc
          · split at hc
            · cases hc
            · split at hc
              · cases hc
              · dsimp only at hc
                split at hc
                · cases hc
                · rename_i hf
                  cases hc
                  simp only [full, decide_true, Bool.true_and, Bool.not_eq_true,
                    Bool.not_eq_false'] at hf
                  simpa using hf
        · cases hc
    · omega

theorem short_workCueErase (tag : Byte) (n k : Nat) : Keeps (workCueErase tag n k) := by
  intro s h
  unfold workCueErase
  split
  · exact short_reply _ _ _ s h
  · rename_i a _
    dsimp only
    split
    · exact short_reply _ _ _ s h
    · refine short_reply _ _ _ _ (short_updCue a _ s h ?_)
      split
      · exact ⟨.nil, Nat.zero_le _, h.captures a, h.waiting a⟩
      · exact ⟨(h.ascending a).filter _, le_trans (List.length_filter_le _ _) (h.entries a),
          h.captures a, h.waiting a⟩

theorem short_workCueGo (tag : Byte) (n : Nat) : Keeps (workCueGo tag n) := by
  intro s h
  unfold workCueGo
  split
  · exact short_reply _ _ _ s h
  · split
    · exact short_arriveCue _ _ s h
    · exact short_reply _ _ _ s h

theorem short_workCueSet (tag : Byte) (n p : Nat) : Keeps (workCueSet tag n p) := by
  intro s h
  unfold workCueSet
  split
  · exact short_reply _ _ _ s h
  · split
    · exact short_reply _ _ _ s h
    · split
      · exact short_arriveCue _ _ s h
      · exact short_reply _ _ _ s h

theorem short_workModeRun (tag : Byte) : Keeps (workModeRun tag) := by
  intro s h
  unfold workModeRun
  split
  · exact short_reply _ _ _ s h
  · split
    · exact short_reply _ _ _ s h
    · split
      · exact short_reply _ _ _ s h
      · exact short_blocksEnterRun _ (short_reply _ _ _ _ (short_setRunning _ s h))

theorem short_workModeConfig (tag : Byte) : Keeps (workModeConfig tag) := by
  intro s h
  unfold workModeConfig
  split
  · exact short_reply _ _ _ s h
  · split
    · exact short_blocksEnterConfig _ (short_reply _ _ _ _ (short_setRunning _ s h))
    · exact short_reply _ _ _ s h

theorem short_beginPass (p : PassThrough) : Keeps (beginPass p) :=
  fun _ h => short_grantBus _ (short_setSup _ _ h)

theorem short_workAmpRead (tag : Byte) (m w : Nat) : Keeps (workAmpRead tag m w) := by
  intro s h
  unfold workAmpRead
  split
  · exact short_reply _ _ _ s h
  · exact short_beginPass _ s h

theorem short_workAmpWrite (tag : Byte) (m w : Nat) (v : Word16) : Keeps (workAmpWrite tag m w v) := by
  intro s h
  unfold workAmpWrite
  split
  · exact short_reply _ _ _ s h
  · exact short_beginPass _ s h

theorem short_workPollSet (tag : Byte) (w : Word16) (g : Nat) : Keeps (workPollSet tag w g) := by
  intro s h
  unfold workPollSet
  split
  · exact short_reply _ _ _ _ (short_applyPoll _ _ s h)
  · exact short_reply _ _ _ s h

theorem short_restoreModule (m : ModuleId) : Keeps (restoreModule m) := by
  intro s h
  unfold restoreModule
  extract_lets s1
  have h1 : Short s1 := short_protect _ _ _ (short_updModule _ _ s h)
  clear_value s1
  exact short_grantBus _ (short_resolveModule _ _ h1)

theorem short_workModuleRestore (tag : Byte) (n : Nat) : Keeps (workModuleRestore tag n) := by
  intro s h
  unfold workModuleRestore
  split
  · exact short_reply _ _ _ s h
  · split
    · exact short_reply _ _ _ _ (short_restoreModule _ s h)
    · exact short_reply _ _ _ s h

theorem short_workHouseClose (tag : Byte) (n : Nat) (f : Option Bool) :
    Keeps (workHouseClose tag n f) := by
  intro s h
  unfold workHouseClose
  split
  · rename_i a flag _
    split
    · exact short_reply _ _ _ s h
    · unfold closeHouse
      exact short_reply _ _ _ _ (short_serve _ _ (short_serve _ _ (short_updQuiet _ _ _
        (short_updCue a _ _ (short_serve _ _ h) ((fits h a).same rfl rfl rfl)))))
  · exact short_reply _ _ _ s h

theorem short_workHouseOpen (tag : Byte) (n : Nat) : Keeps (workHouseOpen tag n) := by
  intro s h
  unfold workHouseOpen
  split
  · exact short_reply _ _ _ s h
  · rename_i a _
    split
    · exact short_reply _ _ _ s h
    · exact short_reply _ _ _ _ (short_updCue a _ _ (short_serve _ _ h)
        ((fits h a).same rfl rfl rfl))

/-! ## Works that touch neither a cue follower nor the console -/

theorem keeps_reply (tag : Byte) (kind : RequestKind) (f : State → Answer) :
    Keeps (fun s => s.reply tag kind (f s)) := fun s h => short_reply tag kind _ s h

theorem keeps_answer (tag : Byte) (kind : RequestKind) (f : Env → Services → Answer × Services) :
    Keeps (answerWith tag kind f) := fun _ h => of_eq rfl rfl h

theorem keeps_serve (f : Env → Services → Services) : Keeps (fun s => s.serve f) :=
  fun s h => short_serve f s h

theorem short_workReset (tag : Byte) : Keeps (workReset tag) := fun _ h => of_eq rfl rfl h

theorem short_workNoticeEnable (tag : Byte) (w : Word16) : Keeps (workNoticeEnable tag w) := by
  intro s h; unfold workNoticeEnable; split <;> exact of_eq rfl rfl h

theorem short_workNoticeResume (tag : Byte) : Keeps (workNoticeResume tag) :=
  fun _ h => of_eq rfl rfl h

theorem short_workNoticeClear (tag : Byte) (w : Word16) : Keeps (workNoticeClear tag w) := by
  intro s h; unfold workNoticeClear; split <;> exact of_eq rfl rfl h

theorem short_workSilenceSet (tag : Byte) (n : Nat) : Keeps (workSilenceSet tag n) := by
  intro s h
  unfold workSilenceSet
  split
  · exact of_eq rfl rfl h
  · refine short_reply _ _ _ _ ?_
    split <;> exact of_eq rfl rfl h

theorem short_workSettingsSave (tag : Byte) : Keeps (workSettingsSave tag) := by
  intro s h; unfold workSettingsSave; split <;> exact of_eq rfl rfl h

theorem short_workSettingsLoad (tag : Byte) : Keeps (workSettingsLoad tag) := by
  intro s h
  unfold workSettingsLoad
  split
  · exact of_eq rfl rfl h
  · split <;> exact of_eq rfl rfl h

theorem short_settingsSaveDone (b : List Byte) : Keeps (settingsSaveDone b) := by
  intro s h; unfold settingsSaveDone; split <;> exact of_eq rfl rfl h

theorem short_pageWriteTimeout : Keeps pageWriteTimeout := by
  intro s h; unfold pageWriteTimeout; split <;> exact of_eq rfl rfl h

theorem short_setLevel (z : ZoneId) (l : Nat) (m : Bool) (s : State) (h : Short s) :
    Short (setLevel z l m s) := by
  unfold setLevel
  extract_lets
  split <;> exact of_eq rfl rfl h

theorem short_workZoneSet (tag : Byte) (z l : Nat) (m : Option Bool) : Keeps (workZoneSet tag z l m) := by
  intro s h
  unfold workZoneSet
  repeat' split
  all_goals first | exact of_eq rfl rfl h | exact short_reply _ _ _ _ (short_setLevel _ _ _ s h)

theorem short_testExpired (z : ZoneId) (src : TestSource) : Keeps (testExpired z src) := by
  intro s h; unfold testExpired; split <;> exact of_eq rfl rfl h

theorem short_overrideAsserted : Keeps overrideAsserted := by
  intro s h
  unfold overrideAsserted
  repeat' split
  all_goals exact of_eq rfl rfl h

theorem short_overrideReleased : Keeps overrideReleased := by
  intro s h
  unfold overrideReleased
  repeat' split
  all_goals exact of_eq rfl rfl h

theorem short_workModuleClear (tag : Byte) (n : Nat) : Keeps (workModuleClear tag n) := by
  intro s h
  unfold workModuleClear
  repeat' split
  all_goals exact of_eq rfl rfl h

theorem short_levelUpdated (a : Aud) (l : List (Option Int)) : Keeps (levelUpdated a l) := by
  intro s h
  unfold levelUpdated
  dsimp only
  repeat' split
  all_goals exact of_eq rfl rfl h

theorem short_openTimerExpired (a : Aud) : Keeps (openTimerExpired a) := by
  intro s h; unfold openTimerExpired; split <;> exact of_eq rfl rfl h

theorem short_liveKeyPressed (k : LiveInput) : Keeps (liveKeyPressed k) := by
  intro s h; cases k <;> (unfold liveKeyPressed; split <;> exact of_eq rfl rfl h)

theorem short_liveKeyReleased (k : LiveInput) : Keeps (liveKeyReleased k) := by
  intro s h; cases k <;> (unfold liveKeyReleased; split <;> exact of_eq rfl rfl h)

theorem short_liveKeySettled (k : LiveInput) : Keeps (liveKeySettled k) := by
  intro s h; cases k <;> (unfold liveKeySettled; split <;> exact of_eq rfl rfl h)

theorem short_entranceEvent (e : EntranceId) (b : Bool) : Keeps (entranceEvent e b) := by
  intro s h; unfold entranceEvent; split <;> exact of_eq rfl rfl h

theorem short_workAdmitOpen (tag : Byte) (n sec : Nat) (m : Option Bool) :
    Keeps (workAdmitOpen tag n sec m) := by
  intro s h; unfold workAdmitOpen; split <;> exact of_eq rfl rfl h

theorem short_workAdmitClose (tag : Byte) (n : Nat) : Keeps (workAdmitClose tag n) := by
  intro s h; unfold workAdmitClose; split <;> exact of_eq rfl rfl h

theorem short_silenceExpired : Keeps silenceExpired := by
  intro s h
  unfold silenceExpired
  split
  · exact short_serve _ _ (short_updLink _ s h)
  · exact h

theorem short_pollGapExpired : Keeps pollGapExpired := by
  intro s h
  unfold pollGapExpired
  split
  · exact short_grantBus _ (short_beginRound s h)
  · exact h

/-! ## The cue line -/

theorem short_pins (p : Pins) (s : State) (h : Short s) : Short { s with pins := p } := of_eq rfl rfl h

theorem short_setCueLine (a : Aud) (b : Bool) (f : FilterState) : Keeps (setCueLine a b f) := by
  intro s h
  unfold setCueLine
  extract_lets level
  refine short_updCue a _ _ (short_pins _ s h) ?_
  exact ⟨h.ascending a, h.entries a, h.captures a, h.waiting a⟩

theorem short_cuePressed (a : Aud) : Keeps (cuePressed a) := by
  intro s h
  unfold cuePressed
  dsimp only
  split
  · have h1 := short_setCueLine a true .pressed s h
    split
    · exact h1
    · refine short_arriveCue _ _ _ (short_updCue a _ _ h1 ?_)
      unfold startLockout
      split
      · exact fits h1 a
      · exact (fits h1 a).same rfl rfl rfl
  · exact h

theorem short_cueReleased (a : Aud) : Keeps (cueReleased a) := by
  intro s h
  unfold cueReleased
  split
  · exact short_setCueLine _ _ _ s h
  · exact h

theorem short_cueSettled (a : Aud) (b : Bool) : Keeps (cueSettled a b) := by
  intro s h
  unfold cueSettled
  split
  · exact short_setCueLine _ _ _ s h
  · exact h

/-! ## The console -/

theorem short_runCommand (c : ConsoleCommand) : Keeps (runCommand c) := by
  intro s h
  cases c with
  | status => exact short_show _ s h
  | zone n =>
    show Short (runZone n s)
    unfold runZone
    split <;> exact short_show _ s h
  | module_ n =>
    show Short (runModule n s)
    unfold runModule
    split <;> exact short_show _ s h
  | test n b =>
    cases b <;> exact short_show _ _ (short_svc _ s h)
  | go n =>
    show Short (runGo n s)
    unfold runGo
    split
    · exact short_show _ s h
    · split
      · exact short_arriveCue _ _ s h
      · exact short_show _ s h
  | read m w =>
    show Short (runRead m w s)
    unfold runRead
    split
    · exact short_show _ s h
    · exact short_beginPass _ s h

theorem short_endLine (c : Option ConsoleCommand) : Keeps (endLine c) := by
  intro s h
  unfold endLine
  extract_lets s1
  have h1 : Short s1 := short_console _ s h (Nat.zero_le _)
  clear_value s1
  split
  · split
    · exact short_runCommand _ _ h1
    · exact short_show _ _ h1
  · exact short_show _ _ h1

theorem short_editCharacter (c : Byte) : Keeps (editCharacter c) := by
  intro s h
  unfold editCharacter
  extract_lets k
  have hk : k.line.length ≤ 40 := h.line
  split
  · split
    · exact short_console _ s h hk
    · split
      · rename_i room
        refine short_console _ s h ?_
        simp only [List.length_append, List.length_singleton]; omega
      · exact h
  · split
    · split
      · exact h
      · refine short_console _ s h ?_
        simp only [List.length_dropLast]; omega
    · split
      · split
        · exact h
        · exact short_console _ s h (Nat.zero_le _)
      · split
        · split
          · exact short_console _ s h hk
          · exact short_endLine _ s h
        · exact h

theorem short_consoleCharacter (c : Byte) (f : Bool) : Keeps (consoleCharacter c f) := by
  intro s0 h0
  unfold consoleCharacter
  have h : Short (lineAfter c f s0) := of_eq rfl rfl h0
  generalize lineAfter c f s0 = s at h
  unfold takeCharacter
  split
  · exact short_console _ s h h.line
  · split
    · exact h
    · exact short_console _ s h (Nat.zero_le _)
  · split
    · exact h
    · exact short_editCharacter c s h
  · split
    · exact h
    · refine short_console _ s h ?_
      unfold commentCharacter
      split <;> exact h.line
  · exact h

/-! ## The frames of the control link -/

theorem short_lowWork (kind : RequestKind) (tag : Byte) (b : List Byte) (w : State → State)
    (e : lowWork kind tag b = some w) : Keeps w := by
  unfold lowWork at e
  split at e
  case h_7 =>
    rw [← ofLength_some e]
    unfold workMode
    split
    · exact short_workModeConfig tag
    · exact short_workModeRun tag
    · exact keeps_reply tag _ _
  case h_8 =>
    unfold configBody at e
    split at e
    · cases e
    · split at e
      · rw [← ofLength_some e]; exact short_workConfigWrite tag _ _
      · split at e
        · cases e; exact short_workConfigWrite tag _ _
        · cases e
  case h_14 =>
    rw [← ofLength_some e]
    unfold workTest
    split
    · exact keeps_answer tag _ _
    · exact keeps_answer tag _ _
    · exact keeps_reply tag _ _
  case h_21 => cases e
  all_goals rw [← ofLength_some e]
  · exact keeps_reply tag _ _
  · exact short_workReset tag
  · exact short_workNoticeEnable tag _
  · exact short_workNoticeResume tag
  · exact short_workNoticeClear tag _
  · exact short_workSilenceSet tag _
  · exact keeps_reply tag _ _
  · exact short_workSettingsSave tag
  · exact short_workSettingsLoad tag
  · exact short_workZoneSet tag _ _ _
  · exact keeps_reply tag _ _
  · exact short_workPollSet tag _ _
  · exact keeps_reply tag _ _
  · exact short_workModuleClear tag _
  · exact short_workModuleRestore tag _
  · exact short_workAmpRead tag _ _
  · exact short_workAmpWrite tag _ _ _

theorem short_midWork (kind : RequestKind) (tag : Byte) (b : List Byte) (w : State → State)
    (e : midWork kind tag b = some w) : Keeps w := by
  unfold midWork at e
  split at e
  case h_1 =>
    unfold cueWriteBody at e
    split at e
    · cases e
    · dsimp only at e
      split at e
      · cases hl : actionsOf (byteAt b 3) (b.drop 4) with
        | none => rw [hl] at e; cases e
        | some l => rw [hl] at e; cases e; exact short_workCueWrite tag _ _ _
      · cases e; exact short_workCueWrite tag _ _ _
  case h_15 =>
    unfold channelModeBody at e
    split at e <;> cases e
    · exact keeps_answer tag _ _
    · exact keeps_answer tag _ _
    · exact keeps_reply tag _ _
    · exact keeps_reply tag _ _
  case h_17 => cases e
  all_goals rw [← ofLength_some e]
  · exact short_workCueErase tag _ _
  · exact keeps_reply tag _ _
  · exact short_workCueGo tag _
  · exact short_workCueSet tag _ _
  all_goals first | exact keeps_reply tag _ _ | exact keeps_answer tag _ _

theorem short_highWork (kind : RequestKind) (tag : Byte) (b : List Byte) (w : State → State)
    (e : highWork kind tag b = some w) : Keeps w := by
  unfold highWork at e
  split at e
  case h_1 =>
    unfold callPostBody at e
    split at e
    · rw [← ofLength_some e]
      exact keeps_answer tag _ _
    · split at e
      · cases e; exact keeps_reply tag _ _
      · cases e
  case h_13 => cases e
  all_goals rw [← ofLength_some e]
  · exact keeps_answer tag _ _
  · exact keeps_answer tag _ _
  · exact keeps_answer tag _ _
  · exact keeps_reply tag _ _
  · exact keeps_answer tag _ _
  · exact short_workHouseOpen tag _
  · exact short_workHouseClose tag _ _
  · exact short_workAdmitOpen tag _ _ _
  · exact short_workAdmitClose tag _
  · exact keeps_reply tag _ _
  · exact keeps_answer tag _ _

theorem short_bodyWork (kind : RequestKind) (tag : Byte) (b : List Byte) (w : State → State)
    (e : bodyWork kind tag b = some w) : Keeps w := by
  unfold bodyWork at e
  split at e
  · exact short_lowWork kind tag b w e
  · split at e
    · exact short_midWork kind tag b w e
    · exact short_highWork kind tag b w e

theorem short_sendImmediate (tag kind : Byte) (b : List Byte) (s : State) (h : Short s) :
    Short (sendImmediate tag kind b s) := of_eq rfl rfl h

theorem short_validFrame (s : State) (h : Short s) : Short (validFrame s) := of_eq rfl rfl h

theorem short_accept (tag : Byte) (kind : RequestKind) (w : State → State) (hw : Keeps w) (s : State)
    (h : Short s) : Short (accept tag kind w s) := by
  unfold accept
  split
  · exact short_sendImmediate _ _ _ s h
  · exact short_settled _ (hw _ (short_updLink _ s h))

theorem short_request {tag : Byte} {kind : RequestKind} {w : State → State} {s t : State}
    (e : request tag kind w s = .next t) (h : Short s) (hw : Keeps w) : Short t := by
  unfold request at e
  cases e
  split
  · exact h
  · split
    · exact short_accept tag kind w hw _ (short_validFrame s h)
    · exact short_validFrame s h

theorem short_event {w : State → State} {s t : State} (e : event w s = .next t) (h : Short s)
    (hw : Keeps w) : Short t := by
  unfold event at e
  cases e
  split
  · exact h
  · exact short_settled _ (hw s h)

theorem short_takeFrame (f : List Byte) : Keeps (takeFrame f) := by
  intro s h
  have h1 := short_validFrame s h
  unfold takeFrame
  dsimp only
  split
  · unfold acceptFrame
    split
    · exact short_sendImmediate _ _ _ _ h1
    · split
      · exact short_sendImmediate _ _ _ _ h1
      · exact short_accept _ _ _ (short_bodyWork _ _ _ _ (by assumption)) _ h1
  · exact h1

theorem short_hunt (n : Nat) (kept : List KeptByte) (s : State) (h : Short s) :
    Short (hunt n kept s) := by
  induction n generalizing kept s with
  | zero => exact short_updLink _ s h
  | succ n ih =>
    cases kept with
    | nil => exact short_updLink _ s h
    | cons first rest =>
      unfold hunt
      split
      · exact ih _ s h
      · exact short_updLink _ s h
      · exact ih _ _ (short_takeFrame _ s h)

theorem short_linkByte (b : Byte) (f : Bool) : Keeps (linkByte b f) := by
  intro s h
  unfold linkByte
  extract_lets kept
  split
  · exact short_hunt _ _ s h
  · exact short_hunt _ _ s h

theorem short_frameSent : Keeps frameSent := by
  intro s h
  unfold frameSent
  split
  · exact h
  · exact short_updLink _ s h
  · dsimp only
    split
    · exact short_reset _ _
    · exact short_updLink _ s h
  · exact short_updLink _ s h
  · exact short_serve _ s h


/-! ## Every step -/

theorem short_tick : Keeps tick := by
  intro s h
  unfold tick
  split
  · exact h
  · have h0 : Short (finishWork s) :=
      short_settled _ (short_resumeFiring _ _ (short_resumeFiring _ s h))
    extract_lets s1 s2
    have h1 : Short s1 := by
      refine of_fits (fun a => ?_) ?_
      · cases a
        · exact ⟨h0.ascending .one, h0.entries .one, h0.captures .one, h0.waiting .one⟩
        · exact ⟨h0.ascending .two, h0.entries .two, h0.captures .two, h0.waiting .two⟩
      · show (Console.tick _ (finishWork s).console).line.length ≤ 40
        unfold Console.tick
        split <;> exact h0.line
    clear_value s1
    have h2 : Short (sampleFast s1) := by
      unfold sampleFast
      split
      · refine of_fits (fun a => ?_) h1.line
        cases a
        · exact ⟨h1.ascending .one, h1.entries .one, h1.captures .one, h1.waiting .one⟩
        · exact ⟨h1.ascending .two, h1.entries .two, h1.captures .two, h1.waiting .two⟩
      · exact h1
    have h3 : Short (sampleSlow (sampleFast s1)) := by
      unfold sampleSlow
      split <;> exact of_eq rfl rfl h2
    exact of_eq rfl rfl h3

set_option maxHeartbeats 4000000 in
theorem exec_short (c : Instr) (s t : State) (h : Short s) (e : exec c s = .next t) : Short t := by
  have row : ∀ c, commandRow c s = .next t → Short t := fun c e =>
    short_event e h (fun s h => by
      split
      · exact short_endLine _ s h
      · exact h)
  cases c with
  | powerOn => cases e; exact short_reset _ _
  | supplyDip => cases e; exact short_reset _ _
  | resetLine => cases e; exact short_reset _ _
  | resetEnd x y =>
    cases e
    split
    · exact short_settled _ (short_leaveReset x y _ (short_pins _ s h))
    · exact h
  | startLoadDone =>
    simp only [exec, execStartLoadDone] at e
    exact short_event e h (short_startLoadDone)
  | linkByteReceived b f =>
    simp only [exec, execLinkByteReceived] at e
    exact short_event e h (short_linkByte b f)
  | frameTimeout =>
    simp only [exec, execFrameTimeout] at e
    exact short_event e h (fun s h => by
      split
      · exact h
      · exact short_hunt _ _ s h)
  | frameSent =>
    cases e
    split
    · exact h
    · exact short_frameSent s h
  | silenceTimerExpiry =>
    simp only [exec, execSilenceTimerExpiry] at e
    exact short_event e h (short_silenceExpired)
  | ident tag =>
    simp only [exec, execIdent] at e
    exact short_request e h (keeps_reply _ _ _)
  | reset tag =>
    simp only [exec, execReset] at e
    exact short_request e h (short_workReset _)
  | noticeEnable tag w =>
    simp only [exec, execNoticeEnable] at e
    exact short_request e h (short_workNoticeEnable _ _)
  | noticeResume tag =>
    simp only [exec, execNoticeResume] at e
    exact short_request e h (short_workNoticeResume _)
  | noticeClear tag w =>
    simp only [exec, execNoticeClear] at e
    exact short_request e h (short_workNoticeClear _ _)
  | silenceSet tag n =>
    simp only [exec, execSilenceSet] at e
    exact short_request e h (short_workSilenceSet _ _)
  | modeRun tag =>
    simp only [exec, execModeRun] at e
    exact short_request e h (short_workModeRun _)
  | modeConfig tag =>
    simp only [exec, execModeConfig] at e
    exact short_request e h (short_workModeConfig _)
  | configWrite tag i r =>
    simp only [exec, execConfigWrite] at e
    exact short_request e h (short_workConfigWrite _ _ _)
  | configRead tag i =>
    simp only [exec, execConfigRead] at e
    exact short_request e h (keeps_reply _ _ _)
  | settingsSave tag =>
    simp only [exec, execSettingsSave] at e
    exact short_request e h (short_workSettingsSave _)
  | settingsSaveDone b =>
    simp only [exec, execSettingsSaveDone] at e
    exact short_event e h (short_settingsSaveDone b)
  | settingsLoad tag =>
    simp only [exec, execSettingsLoad] at e
    exact short_request e h (short_workSettingsLoad _)
  | settingsLoadDone =>
    simp only [exec, execSettingsLoadDone] at e
    exact short_event e h (short_settingsLoadDone)
  | settingsPageWriteTimeout =>
    simp only [exec, execSettingsPageWriteTimeout] at e
    exact short_event e h short_pageWriteTimeout
  | zoneSet tag z l m =>
    simp only [exec, execZoneSet] at e
    exact short_request e h (short_workZoneSet _ _ _ _)
  | zoneStatus tag z =>
    simp only [exec, execZoneStatus] at e
    exact short_request e h (keeps_reply _ _ _)
  | testToneStart tag z =>
    simp only [exec, execTestToneStart] at e
    exact short_request e h (keeps_answer _ _ _)
  | testToneStop tag z =>
    simp only [exec, execTestToneStop] at e
    exact short_request e h (keeps_answer _ _ _)
  | testLimitExpiry z src =>
    simp only [exec, execTestLimitExpiry] at e
    exact short_event e h (short_testExpired z src)
  | overrideAsserted =>
    simp only [exec, execOverrideAsserted] at e
    exact short_event e h (short_overrideAsserted)
  | overrideReleased =>
    simp only [exec, execOverrideReleased] at e
    exact short_event e h (short_overrideReleased)
  | pollSet tag w g =>
    simp only [exec, execPollSet] at e
    exact short_request e h (short_workPollSet _ _ _)
  | moduleStatus tag m =>
    simp only [exec, execModuleStatus] at e
    exact short_request e h (keeps_reply _ _ _)
  | moduleClear tag m =>
    simp only [exec, execModuleClear] at e
    exact short_request e h (short_workModuleClear _ _)
  | moduleRestore tag m =>
    simp only [exec, execModuleRestore] at e
    exact short_request e h (short_workModuleRestore _ _)
  | ampRead tag m w =>
    simp only [exec, execAmpRead] at e
    exact short_request e h (short_workAmpRead _ _ _)
  | ampWrite tag m w v =>
    simp only [exec, execAmpWrite] at e
    exact short_request e h (short_workAmpWrite _ _ _ _)
  | busTransactionEnd w =>
    simp only [exec, execBusTransactionEnd] at e
    exact short_event e h (fun s h => short_busEnd _ s h)
  | busAnswerTimeout =>
    simp only [exec, execBusAnswerTimeout] at e
    exact short_event e h (fun s h => short_busEnd _ s h)
  | pollGapExpiry =>
    simp only [exec, execPollGapExpiry] at e
    exact short_event e h (short_pollGapExpired)
  | cuePress a =>
    simp only [exec, execCuePress] at e
    exact short_event e h (short_cuePressed a)
  | cueLineRelease a =>
    simp only [exec, execCueLineRelease] at e
    exact short_event e h (short_cueReleased a)
  | lockoutExpiry a =>
    simp only [exec, execLockoutExpiry] at e
    exact short_event e h (fun s h => short_updCue a _ s h ((fits h a).same rfl rfl rfl))
  | cueGo tag a =>
    simp only [exec, execCueGo] at e
    exact short_request e h (short_workCueGo _ _)
  | cueSet tag a p =>
    simp only [exec, execCueSet] at e
    exact short_request e h (short_workCueSet _ _ _)
  | cueWrite tag a n l =>
    simp only [exec, execCueWrite] at e
    exact short_request e h (short_workCueWrite _ _ _ _)
  | cueErase tag a n =>
    simp only [exec, execCueErase] at e
    exact short_request e h (short_workCueErase _ _ _)
  | cueRead tag a n =>
    simp only [exec, execCueRead] at e
    exact short_request e h (keeps_reply _ _ _)
  | cueStatus tag a =>
    simp only [exec, execCueStatus] at e
    exact short_request e h (keeps_reply _ _ _)
  | captureRead tag a =>
    simp only [exec, execCaptureRead] at e
    exact short_request e h (keeps_reply _ _ _)
  | levelUpdate a l =>
    simp only [exec, execLevelUpdate] at e
    exact short_event e h (short_levelUpdated a l)
  | openTimerExpiry a =>
    simp only [exec, execOpenTimerExpiry] at e
    exact short_event e h (short_openTimerExpired a)
  | gapStatus tag a =>
    simp only [exec, execGapStatus] at e
    exact short_request e h (keeps_reply _ _ _)
  | feed tag sl o f b =>
    simp only [exec, execFeed] at e
    exact short_request e h (keeps_answer _ _ _)
  | streamStatus tag =>
    simp only [exec, execStreamStatus] at e
    exact short_request e h (keeps_reply _ _ _)
  | blockPlayed i =>
    simp only [exec, execBlockPlayed] at e
    exact short_event e h (keeps_serve _)
  | starveTimerExpiry i =>
    simp only [exec, execStarveTimerExpiry] at e
    exact short_event e h (keeps_serve _)
  | liveKeyPress k =>
    simp only [exec, execLiveKeyPress] at e
    exact short_event e h (short_liveKeyPressed k)
  | liveKeyRelease k =>
    simp only [exec, execLiveKeyRelease] at e
    exact short_event e h (short_liveKeyReleased k)
  | liveKeySettled k =>
    simp only [exec, execLiveKeySettled] at e
    exact short_event e h (short_liveKeySettled k)
  | clipArm tag d i n c l =>
    simp only [exec, execClipArm] at e
    exact short_request e h (keeps_answer _ _ _)
  | clipDisarm tag d i =>
    simp only [exec, execClipDisarm] at e
    exact short_request e h (keeps_answer _ _ _)
  | clipStart tag d =>
    simp only [exec, execClipStart] at e
    exact short_request e h (keeps_answer _ _ _)
  | clipStop tag d =>
    simp only [exec, execClipStop] at e
    exact short_request e h (keeps_answer _ _ _)
  | channelModeScripted tag d =>
    simp only [exec, execChannelModeScripted] at e
    exact short_request e h (keeps_answer _ _ _)
  | channelModeStanding tag d i n =>
    simp only [exec, execChannelModeStanding] at e
    exact short_request e h (keeps_answer _ _ _)
  | channelStatus tag d =>
    simp only [exec, execChannelStatus] at e
    exact short_request e h (keeps_reply _ _ _)
  | latestStartPassed d =>
    simp only [exec, execLatestStartPassed] at e
    exact short_event e h (fun s h => by
      split
      · exact of_eq rfl rfl h
      · exact h)
  | resumeLimitExpiry d =>
    simp only [exec, execResumeLimitExpiry] at e
    exact short_event e h (keeps_serve _)
  | callPost tag f =>
    simp only [exec, execCallPost] at e
    exact short_request e h (keeps_answer _ _ _)
  | callRelease tag i =>
    simp only [exec, execCallRelease] at e
    exact short_request e h (keeps_answer _ _ _)
  | callEnd tag i =>
    simp only [exec, execCallEnd] at e
    exact short_request e h (keeps_answer _ _ _)
  | callCancel tag i =>
    simp only [exec, execCallCancel] at e
    exact short_request e h (keeps_answer _ _ _)
  | callStatus tag i =>
    simp only [exec, execCallStatus] at e
    exact short_request e h (keeps_reply _ _ _)
  | callFinished tag =>
    simp only [exec, execCallFinished] at e
    exact short_request e h (keeps_answer _ _ _)
  | callExpiry i =>
    simp only [exec, execCallExpiry] at e
    exact short_event e h (keeps_serve _)
  | spacingExpiry i =>
    simp only [exec, execSpacingExpiry] at e
    exact short_event e h (keeps_serve _)
  | breakExpiry i =>
    simp only [exec, execBreakExpiry] at e
    exact short_event e h (keeps_serve _)
  | micTimerExpiry i =>
    simp only [exec, execMicTimerExpiry] at e
    exact short_event e h (keeps_serve _)
  | chimeEnd o =>
    simp only [exec, execChimeEnd] at e
    exact short_event e h (keeps_serve _)
  | entranceSensorEvent x b =>
    simp only [exec, execEntranceSensorEvent] at e
    exact short_event e h (short_entranceEvent x b)
  | houseClose tag a f =>
    simp only [exec, execHouseClose] at e
    exact short_request e h (short_workHouseClose _ _ _)
  | houseOpen tag a =>
    simp only [exec, execHouseOpen] at e
    exact short_request e h (short_workHouseOpen _ _)
  | admitOpen tag a n m =>
    simp only [exec, execAdmitOpen] at e
    exact short_request e h (short_workAdmitOpen _ _ _ _)
  | admitClose tag a =>
    simp only [exec, execAdmitClose] at e
    exact short_request e h (short_workAdmitClose _ _)
  | windowExpiry a =>
    simp only [exec, execWindowExpiry] at e
    exact short_event e h (keeps_serve _)
  | graceExpiry a =>
    simp only [exec, execGraceExpiry] at e
    exact short_event e h (keeps_serve _)
  | entranceStatus tag a =>
    simp only [exec, execEntranceStatus] at e
    exact short_request e h (keeps_reply _ _ _)
  | entranceClear tag x =>
    simp only [exec, execEntranceClear] at e
    exact short_request e h (keeps_answer _ _ _)
  | consoleIdleExpiry =>
    simp only [exec, execConsoleIdleExpiry] at e
    exact short_event e h (fun s h => by
      split
      · exact of_eq (s := { s with console := { s.console with state := .waking, idle := 0 } }) rfl rfl
          (short_console _ s h h.line)
      · exact h)
  | consoleCharacter c f =>
    simp only [exec, execConsoleCharacter] at e
    exact short_event e h (short_consoleCharacter c f)
  | consoleStatus =>
    simp only [exec, execConsoleStatus] at e
    exact row _ e
  | consoleZoneStatus z =>
    simp only [exec, execConsoleZoneStatus] at e
    exact row _ e
  | consoleModuleStatus m =>
    simp only [exec, execConsoleModuleStatus] at e
    exact row _ e
  | consoleTestStart z =>
    simp only [exec, execConsoleTestStart] at e
    exact row _ e
  | consoleTestStop z =>
    simp only [exec, execConsoleTestStop] at e
    exact row _ e
  | softCue a =>
    simp only [exec, execSoftCue] at e
    exact row _ e
  | consoleAmpRead m w =>
    simp only [exec, execConsoleAmpRead] at e
    exact row _ e
  | cueLineSettled a b =>
    simp only [exec, execCueLineSettled] at e
    exact short_event e h (short_cueSettled a b)

end Sys2Proof.Laws.Lengths
end

