-- ==== Sys2Proof/Laws/Words.lean ====
section
/-! SUPPORT. The words and the arguments of a console line (R183). -/

namespace Sys2Proof.Laws.Words

open Sys2Proof Sys2Proof.Machine

/-- The words read so far join the first word of the rest. -/
theorem wordsOf_eq (line word : List Byte) :
    wordsOf line word
      = ((line.splitOn 0x20).modifyHead (word.reverse ++ ·)).filter (fun w => !w.isEmpty) := by
  induction line generalizing word with
  | nil => by_cases h : word = [] <;> simp [wordsOf, List.splitOn, List.splitOnP_nil, h]
  | cons c rest ih =>
    have split : (c :: rest).splitOn 0x20 = if c = 0x20 then [] :: rest.splitOn 0x20
        else (rest.splitOn 0x20).modifyHead (c :: ·) := by
      simp only [List.splitOn, List.splitOnP_cons_eq_if_modifyHead, beq_iff_eq]
    rw [wordsOf, ih, ih, split]
    by_cases hc : c = 0x20
    · by_cases h : word = [] <;> cases rest.splitOn 0x20 <;> simp [hc, h]
    · rw [if_neg hc, if_neg hc]
      cases rest.splitOn 0x20 <;> simp

/-- The words of a line are what stands between its spaces. -/
theorem wordsOf_line (line : List Byte) :
    wordsOf line [] = (line.splitOn 0x20).filter (fun w => !w.isEmpty) := by
  rw [wordsOf_eq]
  cases line.splitOn 0x20 <;> simp

/-- Digits are read from the left. -/
theorem foldl_digits (word : List Byte) :
    word.foldl (fun acc c => acc * 10 + (c.toNat - 0x30)) 0
      = Nat.ofDigits 10 (word.reverse.map (fun c => c.toNat - 0x30)) := by
  induction word using List.reverseRecOn with
  | nil => rfl
  | append_singleton xs c ih =>
    simp only [List.foldl_append, List.foldl_cons, List.foldl_nil, ih, List.reverse_append,
      List.reverse_cons, List.reverse_nil, List.nil_append, List.singleton_append, List.map_cons,
      Nat.ofDigits_cons]
    omega

/-- A word is an argument when it is written as one. -/
theorem argOf_eq_some (word : List Byte) (n : Nat) : argOf word = some n ↔ Written word n := by
  simp only [argOf, foldl_digits, argLegal, between]
  constructor
  · intro h
    split at h
    · next hh =>
      simp only [isDigit, Bool.and_eq_true, List.all_eq_true, decide_eq_true_eq] at hh
      cases h
      exact ⟨fun c hc => hh.1.1 c hc, hh.1.2, rfl, hh.2⟩
    · cases h
  · rintro ⟨h1, h2, rfl, h4⟩
    rw [if_pos]
    simp only [isDigit, Bool.and_eq_true, List.all_eq_true, decide_eq_true_eq]
    exact ⟨⟨fun c hc => h1 c hc, h2⟩, h4⟩

/-- The arguments of a line are those its words are written as. -/
theorem argsOf_eq_some (words : List (List Byte)) (ns : List Nat) :
    argsOf words = some ns ↔ List.Forall₂ Written words ns := by
  induction words generalizing ns with
  | nil => cases ns <;> simp [argsOf]
  | cons w rest ih =>
    simp only [argsOf]
    cases hw : argOf w with
    | none =>
      simp only [reduceCtorEq, false_iff]
      rintro (_ | ⟨h, _⟩)
      rw [(argOf_eq_some w _).mpr h] at hw
      cases hw
    | some n =>
      have written := (argOf_eq_some w n).mp hw
      have only : ∀ m, Written w m → m = n := fun m h => h.value.trans written.value.symm
      cases hr : argsOf rest with
      | none =>
        simp only [reduceCtorEq, false_iff]
        rintro (_ | ⟨_, h⟩)
        rw [(ih _).mpr h] at hr
        cases hr
      | some ms =>
        simp only [Option.some.injEq]
        constructor
        · rintro rfl
          exact .cons written ((ih ms).mp hr)
        · rintro (_ | ⟨h, t⟩)
          have := (ih _).mpr t
          rw [hr] at this
          cases this
          rw [only _ h]

end Sys2Proof.Laws.Words
end

