-- ==== Sys2Proof/Tests/Slice0.lean ====
section
/-! SUPPORT. The model's own tests: terms the well-formedness check refuses, check codes, commands on
small states, and for every statement states and operands that meet its hypotheses. -/

namespace Sys2Proof.Tests

open Sys2Proof.Machine

set_option Elab.async false

/-! ## What the well-formedness check refuses -/

theorem test_wf_silence : (Instr.silenceSet 1 256).wellFormed = false := by decide
theorem test_wf_configIndex : (Instr.configWrite 1 256 none).wellFormed = false := by decide
theorem test_wf_configRead : (Instr.configRead 1 256).wellFormed = false := by decide
theorem test_wf_zoneRecord : (Instr.configWrite 1 0
    (some (.zone { ZoneConfig.default with windowHigh := 65536 }))).wellFormed = false := by decide
theorem test_wf_channelRecord : (Instr.configWrite 1 32
    (some (.channel { ChannelConfig.default with duck := 256 }))).wellFormed = false := by decide
theorem test_wf_auditoriumRecord : (Instr.configWrite 1 36
    (some (.auditorium { AuditoriumConfig.default with quietThreshold := 128 }))).wellFormed
      = false := by decide
theorem test_wf_supervisionRecord : (Instr.configWrite 1 38
    (some (.supervision { SupervisionConfig.default with gap := 65536 }))).wellFormed
      = false := by decide
theorem test_wf_linkRecord : (Instr.configWrite 1 39
    (some (.link { LinkConfig.default with silence := 256 }))).wellFormed = false := by decide
theorem test_wf_readBack : (Instr.settingsSaveDone [0]).wellFormed = false := by decide
theorem test_wf_zoneSet : (Instr.zoneSet 1 0 256 (some true)).wellFormed = false := by decide
theorem test_wf_zone : (Instr.zoneStatus 1 256).wellFormed = false
    ∧ (Instr.testToneStart 1 256).wellFormed = false
    ∧ (Instr.testToneStop 1 256).wellFormed = false := by decide
theorem test_wf_pollSet : (Instr.pollSet 1 0 256).wellFormed = false := by decide
theorem test_wf_module : (Instr.moduleStatus 1 256).wellFormed = false
    ∧ (Instr.moduleClear 1 256).wellFormed = false ∧ (Instr.moduleRestore 1 256).wellFormed = false
    ∧ (Instr.ampRead 1 1 256).wellFormed = false
    ∧ (Instr.ampWrite 1 256 1 0).wellFormed = false := by decide
theorem test_wf_cue : (Instr.cueGo 1 256).wellFormed = false
    ∧ (Instr.cueSet 1 1 65536).wellFormed = false ∧ (Instr.cueErase 1 1 65536).wellFormed = false
    ∧ (Instr.cueRead 1 256 1).wellFormed = false ∧ (Instr.cueStatus 1 256).wellFormed = false
    ∧ (Instr.captureRead 1 256).wellFormed = false := by decide
theorem test_wf_actions : (Instr.cueWrite 1 1 1 [some (.startClip 256)]).wellFormed = false
    ∧ (Instr.cueWrite 1 1 1 [some (.stopClip 256)]).wellFormed = false
    ∧ (Instr.cueWrite 1 1 1 [some (.openAdmit 65536 true)]).wellFormed = false
    ∧ (Instr.cueWrite 1 1 1 [some (.releaseCall 256)]).wellFormed = false := by decide
theorem test_wf_samples : (Instr.levelUpdate .one (List.replicate 481 none)).wellFormed = false
    ∧ (Instr.levelUpdate .one [some 2147483648]).wellFormed = false := by decide +kernel
theorem test_wf_gapStatus : (Instr.gapStatus 1 256).wellFormed = false := by decide
theorem test_wf_feed : (Instr.feed 1 0 1 256 (Vector.replicate 128 0)).wellFormed = false := by decide
theorem test_wf_clips : (Instr.clipArm 1 0 1 1 none 4294967296).wellFormed = false
    ∧ (Instr.clipDisarm 1 0 256).wellFormed = false ∧ (Instr.clipStart 1 256).wellFormed = false
    ∧ (Instr.clipStop 1 256).wellFormed = false
    ∧ (Instr.channelModeScripted 1 256).wellFormed = false
    ∧ (Instr.channelModeStanding 1 0 1 65536).wellFormed = false
    ∧ (Instr.channelStatus 1 256).wellFormed = false := by decide

/-- A call descriptor in range. -/
def demoCall : CallFields :=
  { callId := 1, priority := 1, targets := [3], chime := some .single, message := some .noMessage
    repetitions := 2, spacing := 0, whole := some false, parked := some false, expiry := 0 }

theorem test_wf_callPost : (Instr.callPost 1 { demoCall with targets := [32] }).wellFormed = false
    ∧ (Instr.callPost 1 { demoCall with message := some (.stream 65536) }).wellFormed = false
    ∧ (Instr.callPost 1 { demoCall with message := some (.liveMic 256) }).wellFormed = false
    ∧ (Instr.callPost 1 { demoCall with expiry := 65536 }).wellFormed = false := by decide
theorem test_wf_calls : (Instr.callRelease 1 256).wellFormed = false
    ∧ (Instr.callEnd 1 256).wellFormed = false ∧ (Instr.callCancel 1 256).wellFormed = false
    ∧ (Instr.callStatus 1 256).wellFormed = false ∧ (Instr.callExpiry 256).wellFormed = false
    ∧ (Instr.spacingExpiry 256).wellFormed = false ∧ (Instr.breakExpiry 256).wellFormed = false
    ∧ (Instr.micTimerExpiry 256).wellFormed = false
    ∧ (Instr.chimeEnd (.call 256)).wellFormed = false := by decide
theorem test_wf_houses : (Instr.houseClose 1 256 none).wellFormed = false
    ∧ (Instr.houseOpen 1 256).wellFormed = false
    ∧ (Instr.admitOpen 1 1 65536 none).wellFormed = false
    ∧ (Instr.admitClose 1 256).wellFormed = false ∧ (Instr.entranceStatus 1 256).wellFormed = false
    ∧ (Instr.entranceClear 1 256).wellFormed = false := by decide
theorem test_wf_console : (Instr.consoleZoneStatus 65536).wellFormed = false
    ∧ (Instr.consoleModuleStatus 65536).wellFormed = false
    ∧ (Instr.consoleTestStart 65536).wellFormed = false
    ∧ (Instr.consoleTestStop 65536).wellFormed = false ∧ (Instr.softCue 65536).wellFormed = false
    ∧ (Instr.consoleAmpRead 1 65536).wellFormed = false := by decide

/-! ## Bytes and lines -/

/-- R167: the check value of the CRC-16 over the characters 1 to 9. -/
theorem test_crc16_check :
    crc16 [0x31, 0x32, 0x33, 0x34, 0x35, 0x36, 0x37, 0x38, 0x39] = 0x29B1 := by decide +kernel

/-- spec/11 section 11.3: the check value of the CRC-32 over the characters 1 to 9. -/
theorem test_crc32_check :
    crc32 [0x31, 0x32, 0x33, 0x34, 0x35, 0x36, 0x37, 0x38, 0x39] = 0xCBF43926 := by decide +kernel

/-- R92: the largest companded value, and the two zeros. -/
theorem test_companded : decodeSample 0x7F = 8031 ∧ decodeSample 0xFF = -8031 ∧ decodeSample 0 = 0 := by
  decide

/-- R183: a line, and lines that are malformed. -/
theorem test_parse :
    parseLine [0x7A, 0x20, 0x31, 0x39] = some (.zone 19) ∧ parseLine [0x73] = some .status
      ∧ parseLine [0x7A, 0x31, 0x39] = none ∧ parseLine [0x74, 0x20, 0x31, 0x20, 0x32] = none := by
  decide

/-- The record area of the defaults has the length of format 1. -/
theorem test_areaLength : (recordArea Configuration.default).length = areaLength := by decide +kernel

/-! ## States -/

/-- A configuration that passes validation: one zone of four kinds, a channel and an entrance. -/
def demoCfg : Configuration :=
  { Configuration.default with
    zones := put (put (put (put Configuration.default.zones 0
        { ZoneConfig.default with kind := .hallLoop, auditorium := some .one, modules := [0]
                                  windowLow := 10, windowHigh := 20 })
        1 { ZoneConfig.default with kind := .lobby, auditorium := some .one })
        2 { ZoneConfig.default with kind := .description, auditorium := some .one })
        3 { ZoneConfig.default with kind := .foyerSpeaker, flagged := true }
    entrances := put Configuration.default.entrances 0
      { EntranceConfig.default with auditorium := some .one, admission := true, adjacent := [3] }
    channels := put Configuration.default.channels 0
      { ChannelConfig.default with auditorium := some .one, zone := some 2, liveInput := some .liveA } }

theorem test_demoCfg_valid : firstFailure demoCfg = none := by decide +kernel

/-- In CONFIG, right after reset. -/
def idle : State := State.reset

/-- In RUN with the demonstration configuration. -/
def run : State :=
  { State.reset with control := { State.reset.control with running := true, cfg := demoCfg } }

/-- The control record changed. -/
def onControl (f : PartControl → PartControl) (s : State) : State := { s with control := f s.control }
/-- The services changed. -/
def onSvc (f : Services → Services) (s : State) : State := { s with svc := f s.svc }
/-- The link port changed. -/
def onLink (f : LinkPort → LinkPort) (s : State) : State := onSvc (fun v => { v with link := f v.link }) s
/-- A zone's record changed. -/
def onZone (z : ZoneId) (f : ZoneRecord → ZoneRecord) (s : State) : State :=
  onSvc (fun v => { v with zones := put v.zones z (f (look v.zones z)) }) s
/-- A slot replaced. -/
def onSlot (i : SlotId) (x : Slot) (s : State) : State :=
  onSvc (fun v => { v with slots := put v.slots i x }) s
/-- A channel changed. -/
def onChannel (d : ChannelId) (f : Channel → Channel) (s : State) : State :=
  onSvc (fun v => { v with channels := put v.channels d (f (look v.channels d)) }) s
/-- The call table replaced. -/
def withCalls (l : List Call) (s : State) : State := onSvc (fun v => { v with calls := l }) s
/-- Auditorium 1's house changed. -/
def onHouse (f : House → House) (s : State) : State :=
  onSvc (fun v => { v with houses := v.houses.set .one (f v.houses.one) }) s
/-- Auditorium 1's cue follower changed. -/
def onCue (f : CueFollower → CueFollower) (s : State) : State := { s with cue := s.cue.set .one (f s.cue.one) }
/-- Auditorium 1's detector changed. -/
def onQuiet (f : QuietDetector → QuietDetector) (s : State) : State :=
  { s with quiet := s.quiet.set .one (f s.quiet.one) }
/-- The supervisor changed. -/
def onSup (f : Supervisor → Supervisor) (s : State) : State := { s with sup := f s.sup }
/-- M1's record changed. -/
def onM1 (f : ModuleRecord → ModuleRecord) (s : State) : State :=
  onSup (fun p => { p with modules := put p.modules 0 (f (look p.modules 0)) }) s
/-- The console in a state with a line. -/
def onConsole (st : ConsoleState) (line : List Byte) (s : State) : State :=
  { s with console := { s.console with state := st, line := line } }

/-- The state a command leaves. -/
def after (c : Instr) (s : State) : State :=
  match exec c s with
  | .next t => t
  | _ => s

/-- `Still` as a check. -/
def stillB (s : State) : Bool := !s.control.holding && decide (s.svc.reports = []) && !s.svc.walkDue

/-- `Ready` as a check. -/
def readyB (s : State) : Bool :=
  stillB s && s.svc.link.accepting && decide (s.svc.link.outstanding.length < 4)

theorem still_of {s : State} (h : stillB s = true) : Still s := by
  simp only [stillB, Bool.and_eq_true, Bool.not_eq_true', decide_eq_true_eq] at h
  exact ⟨h.1.1, h.1.2, h.2⟩

theorem ready_of {s : State} (h : readyB s = true) : Ready s := by
  simp only [readyB, Bool.and_eq_true, decide_eq_true_eq] at h
  exact ⟨still_of h.1.1, h.1.2, h.2⟩

/-- A still state that meets what can be decided. -/
theorem meetsStill {s : State} {p : Prop} [Decidable p] (h : stillB s = true) (k : decide p = true) :
    Still s ∧ p := ⟨still_of h, of_decide_eq_true k⟩

/-- A ready state that meets what can be decided. -/
theorem meets {s : State} {p : Prop} [Decidable p] (h : readyB s = true) (k : decide p = true) :
    Ready s ∧ p := ⟨ready_of h, of_decide_eq_true k⟩

/-! ## Parts of states -/

/-- A call in a state. -/
def aCall (st : CallState) : Call :=
  { desc :=
      { callId := 1, priority := 1, targets := [3], chime := .single, message := .noMessage
        repetitions := 2, spacing := 0, whole := false, parked := false, expiry := 0 }
    state := st, phase := none, unbroken := [], heard := [], done := 0, slot := none, filled := false
    posted := 0, firstStart := none, expiryLeft := none, spacingLeft := none, micLeft := none
    breakLeft := none, dropMessage := false }
/-- A playing call of a live microphone, in a phase. -/
def aMicCall (p : CallPhase) : Call :=
  { aCall .playing with
    desc := { (aCall .playing).desc with message := .liveMic 120 }
    phase := some p, micLeft := some 120000 }
/-- A playing call of a stream in the slot S8, in the break before its message. -/
def aStreamCall : Call :=
  { aCall .playing with
    desc := { (aCall .playing).desc with message := .stream 10 }
    phase := some .pause, slot := some 8, filled := true, breakLeft := some 400 }
/-- A clip descriptor. -/
def aDesc : ClipDesc := { clipId := 255, length := 10, condition := .gap, latestStart := 0 }
/-- An active clip in a state. -/
def aClip (st : ClipState) : ActiveClip :=
  { desc := aDesc, slot := 0, state := st, filled := true, standing := false, finishing := false
    resumeLeft := none }
/-- A slot of ten blocks in a state, holding some of them. -/
def aSlot (st : SlotState) (blocks toReceive : Nat) : Slot :=
  { Slot.idle with
    state := st, owner := some 1, length := 10, toReceive := toReceive
    held := List.replicate blocks (Vector.replicate 128 0) }
/-- A capture record. -/
def aFinished : FinishedRecord :=
  { callId := 1, targets := [3], heard := [], done := 0, firstStart := none, endTime := 0
    outcome := .done }
/-- A window record. -/
def aWindow : WindowRecord :=
  { number := 1, opened := 0, openedBy := .request, windowTime := 60, closeOnMusic := false
    closed := none, closeReason := none, grace := .pending, leftOpen := [], chimes := none }
/-- A request waiting for its answer. -/
def anEntry : Outstanding := { tag := 7, kind := .ident }
/-- A visit at a step. -/
def aVisit (n : Nat) : Visit := { module_ := 0, step := n, faulty := false, warm := false, dropped := false }
/-- A poll read of M1's word in flight. -/
def aRead (w : Nat) : Transaction := { user := .poll, module_ := 0, word := w, value := none }
/-- M1's visit at a step, its read in flight. -/
def visiting (n w : Nat) (s : State) : State :=
  onSup (fun p => { p with poll := .visit (aVisit n), bus := some (aRead w) }) s
/-- A firing in progress. -/
def aFiring : Firing := { number := 1, clock := 0, asker := .line, outcomes := [], rest := [.mark] }
/-- Auditorium 1's house in a state, with a window record. -/
def houseIn (st : HouseState) (s : State) : State :=
  onHouse (fun h => { h with state := st, record := some aWindow }) s
/-- A request on the transmit queue. -/
def sending (x : TxItem) (s : State) : State := onLink (fun l => { l with tx := [x] }) s
/-- Both keys pressed. -/
def keysIn (f : FilterState) (s : State) : State :=
  onSvc (fun v => { v with keyA := { v.keyA with filter := f }, keyB := { v.keyB with filter := f } }) s
/-- The receiver has kept bytes of an age. -/
def buffered (bytes : List Byte) (age : Nat) (s : State) : State :=
  onLink (fun l => { l with buffer := bytes.map (fun b => { byte := b, age := age }) }) s
/-- A chime sounding. -/
def chiming (o : ChimeOwner) (s : State) : State :=
  onSvc (fun v => { v with chimes := [{ owner := o, chime := .single, left := 1 }] }) s
/-- The longest body: a length byte of 251, a tag, a kind and 249 bytes of zeros. -/
def longBody : List Byte := 251 :: List.replicate 251 0
/-- A memory that holds the image of the defaults. -/
def savedMemory : Memory :=
  Memory.writeAll (Memory.writeAll [] 0 (headerOf (recordArea Configuration.default))) areaStart
    (recordArea Configuration.default)

/-- The header of the defaults' image has eleven bytes. -/
theorem test_headerLength : (headerOf (recordArea Configuration.default)).length = 11 := by
  decide +kernel

/-- Four bytes read back. -/
theorem test_fourBytes (n : Nat) (h : n < 4294967296) : leNat (leBytes 4 n) = n := by
  simp only [leBytes, leNat, BitVec.toNat_ofNat]; omega

/-- Every record of the image of the defaults passes. -/
theorem test_cut : (((cutRecords 40 0 (recordArea Configuration.default)).find? (fun p => !readPasses p.2)).isNone
   && !allOnes (recordArea Configuration.default)) = true := by decide +kernel

/-- The image of the defaults, as a save writes it, is judged LOADED. -/
theorem test_judged : (judgeImage false (headerOf (recordArea Configuration.default))
    (recordArea Configuration.default)).1 = .loaded := by
  have hc := test_cut
  have hl := test_areaLength
  generalize recordArea Configuration.default = area at hc hl
  simp only [Bool.and_eq_true, Bool.not_eq_true', Option.isNone_iff_eq_none] at hc
  have hn : numAt (headerOf area) 7 4 = (crc32 area).toNat := test_fourBytes _ (crc32 area).isLt
  have h5 : numAt (headerOf area) 5 2 = areaLength := by
    unfold headerOf; rw [hl]; rfl
  have h0 : numAt (headerOf area) 0 4 = validMarker := rfl
  have h4 : byteAt (headerOf area) 4 = 1 := rfl
  have ha : allOnes (headerOf area) = false := rfl
  unfold judgeImage
  simp [hn, h5, h0, h4, ha, hc.1, hc.2]

/-- A part whose memory holds the image of the defaults reads a LOADED image. -/
theorem test_savedImage (c : PartControl) (hm : c.memory = savedMemory) (hf : c.memoryFault = false) :
    (readImage c).1 = .loaded := by
  have w0 : Memory.wf (Memory.writeAll [] 0 (headerOf (recordArea Configuration.default))) = true :=
    Laws.writeAll_wf _ _ _ rfl
  have lo : Memory.readAll savedMemory 0 11 = headerOf (recordArea Configuration.default) := by
    unfold savedMemory
    rw [Laws.readAll_frame 11 0 _ _ _ w0 (Or.inl (by decide)), ← test_headerLength]
    exact Laws.readAll_writeAll _ _ _ rfl
  have hi : Memory.readAll savedMemory areaStart areaLength = recordArea Configuration.default := by
    unfold savedMemory
    rw [← test_areaLength]
    exact Laws.readAll_writeAll _ _ _ w0
  unfold readImage
  rw [hm, hf, lo, hi]
  exact test_judged

/-- R167: the CRC-16 goes on over a string of zeros. -/
theorem test_crcZeros : (List.replicate 50 0).foldl crc16Byte 0xbf84 = 0xc3f1
    ∧ (List.replicate 50 0).foldl crc16Byte 0xc3f1 = 0xd018
    ∧ (List.replicate 50 0).foldl crc16Byte 0xd018 = 0x9cc2
    ∧ (List.replicate 50 0).foldl crc16Byte 0x9cc2 = 0xa85f
    ∧ (List.replicate 50 0).foldl crc16Byte 0xa85f = 0x567
    ∧ (List.replicate 1 0).foldl crc16Byte 0x567 = 0x37a5 := by decide +kernel

/-- The check value of the longest frame of zeros. -/
theorem test_longFrame : crcRight (0xE7 :: longBody ++ [0xa5, 0x37]) = true := by
  have cut : ∀ n m : Nat, (List.replicate (n + m) (0 : Byte))
      = List.replicate n 0 ++ List.replicate m 0 := fun n m => by rw [List.replicate_append_replicate]
  have all : crc16 longBody = 0x37a5 := by
    unfold crc16 longBody
    rw [List.foldl_cons, show crc16Byte 0xFFFF 251 = 0xbf84 from by decide,
      show (251 : Nat) = 50 + (50 + (50 + (50 + (50 + 1)))) from rfl]
    simp only [cut, List.foldl_append]
    obtain ⟨h1, h2, h3, h4, h5, h6⟩ := test_crcZeros
    rw [h1, h2, h3, h4, h5, h6]
  have covered : ((0xE7 :: longBody ++ [0xa5, 0x37]).drop 1).take
      ((0xE7 :: longBody ++ [0xa5, (0x37 : Byte)]).length - 3) = longBody := by decide +kernel
  unfold crcRight
  simp only []
  rw [covered, all]
  decide +kernel

/-- A memory with a header and an area of zeros. -/
def imageOf (header : List Byte) : Memory :=
  Memory.writeAll (Memory.writeAll [] 0 header) areaStart (List.replicate 420 0)

/-- Such a memory reads as it was written. -/
theorem test_image (header : List Byte) (h : header.length = 11) :
    (imageOf header).readAll 0 11 = header
      ∧ (imageOf header).readAll 16 420 = List.replicate 420 0 := by
  have w0 : Memory.wf (Memory.writeAll [] 0 header) = true := Laws.writeAll_wf _ _ _ rfl
  have lo : Memory.readAll (Memory.writeAll [] 0 header) 0 header.length = header :=
    Laws.readAll_writeAll _ _ _ rfl
  refine ⟨?_, ?_⟩
  · rw [h] at lo
    unfold imageOf
    rw [Laws.readAll_frame 11 0 _ _ _ w0 (Or.inl (by decide))]
    exact lo
  · have hi := Laws.readAll_writeAll (List.replicate 420 0) (Memory.writeAll [] 0 header) areaStart w0
    rwa [List.length_replicate] at hi

/-- A header whose check value is one off. -/
theorem test_badCheck : ∃ m : Memory, m.readAll 16 420 = List.replicate 420 0
    ∧ ((m.readAll 0 11).drop 5).take 2 = u16 420
    ∧ (m.readAll 0 11).drop 7 ≠ u32 (crc32 (List.replicate 420 0)).toNat := by
  generalize u32 (crc32 (List.replicate 420 0)).toNat = right
  by_cases h : right = List.replicate 4 0
  · refine ⟨imageOf (u32 0xA5243C5A ++ u8 1 ++ u16 420 ++ List.replicate 4 1), (test_image _ rfl).2, ?_, ?_⟩
      <;> rw [(test_image _ rfl).1]
    · decide
    · rw [h]; decide
  · refine ⟨imageOf (u32 0xA5243C5A ++ u8 1 ++ u16 420 ++ List.replicate 4 0), (test_image _ rfl).2, ?_, ?_⟩
      <;> rw [(test_image _ rfl).1]
    · decide
    · exact fun e => h e.symm

/-- R168: a frame of a KIND that names no request. -/
def unknownFrame : List Byte := [0xE7, 2, 7, 7, 0x8c, 0x4b]
/-- R168: an IDENT with a BODY of one byte. -/
def longIdent : List Byte := [0xE7, 3, 7, 1, 0, 0xbd, 0xa9]

/-! ## Commands on small states -/

/-- R169, R178: the six bytes of an IDENT request queue its reply. -/
theorem test_identFrame :
    ([0xE7, 2, 7, 1, 0x4A, 0x2B].foldl (fun s b => after (.linkByteReceived b false) s) idle).svc.link.tx
      = [.reply 7 .ident [[0, 0x24, 0x48, 1, 0, 0, 1, 0, 1, 0]]] := by decide +kernel

/-- R168: a frame with a wrong CRC is dropped. -/
theorem test_wrongCrc :
    ([0xE7, 2, 7, 1, 0x4A, 0x2C].foldl (fun s b => after (.linkByteReceived b false) s) idle).svc.link
      = idle.svc.link := by decide +kernel

/-- R53: an advance moves the position and appends a capture record. -/
theorem test_cueGo : ((after (.cueGo 7 1) run).cue.get .one).position = 1
    ∧ ((after (.cueGo 7 1) run).cue.get .one).log = [{ position := 1, clock := 0, origin := .link }]
    ∧ (after (.cueGo 7 1) run).svc.link.tx = [.reply 7 .cueGo [[0, 1, 0, 0, 0]]] := by decide +kernel

/-- R105, R107: an armed head takes its slot. -/
theorem test_clipArm : (after (.clipArm 7 0 1 10 (some .gap) 0) run).svc.link.tx
    = [.reply 7 .clipArm [[0, 1, 1, 0]]] := by decide +kernel

/-- R130, R134, R137: a call posted to a free zone plays its chime there. -/
theorem test_callPost : ((after (.callPost 7 demoCall) run).svc.chimes.map (·.owner)) = [.call 1]
    ∧ (look (after (.callPost 7 demoCall) run).svc.zones 3).active = some ⟨3, .call 1⟩
    ∧ (after (.callPost 7 demoCall) run).svc.calls.map (·.state) = [.playing] := by decide +kernel

/-- R152, R155, R158: a house closed and a window opened. -/
theorem test_window :
    (look (after (.houseClose 7 1 (some true)) run).svc.entrances 0).lamp = .red
    ∧ (look (after (.admitOpen 7 1 0 (some false)) (houseIn .sealed run)).svc.entrances 0).lamp = .green
    ∧ (look (after (.admitOpen 7 1 0 (some false)) (houseIn .sealed run)).svc.zones 1).active
        = some ⟨4, .window .one⟩ := by decide +kernel

/-- R16, R17: the override takes a flagged zone. -/
theorem test_override :
    (look (after .overrideAsserted run).svc.zones 3).active = some ⟨7, .override⟩ := by decide +kernel

/-- R117: CLIP-START with a filled head makes it speak in the open. -/
theorem test_clipStart : (look (after (.clipStart 7 0)
      (onSlot 0 (aSlot .loading 8 2)
        (onChannel 0 (fun c =>
          { c with queue := [{ aDesc with condition := .atCue }], headSlot := some 0, headFilled := true })
        run))).svc.channels 0).active.map (·.state) = some .speaking := by decide +kernel

/-- R34, R35: the third fault in a row trips a module. -/
theorem test_trip :
    (look (after (.busTransactionEnd 90) (visiting 6 5 (onM1 (fun r => { r with run := 2 }) run))).sup.modules
      0).tripped = true := by decide +kernel

/-- R191: a page write that is not reported done is a memory fault of the save. -/
theorem test_pageWrite :
    (after .settingsPageWriteTimeout (onControl (fun c => { c with settings := some (.save 7 c.cfg) })
      run)).control.memoryFault = true := by decide +kernel

/-- R191: a reset during a save on a memory never written leaves an image judged MARKER. -/
theorem test_saveCutShort :
    (readImage (after .resetLine (after (.settingsSave 7) idle)).control).1 = .marker := by decide +kernel

/-- R87, R92: the bytes of a block after its fill are not played. -/
theorem test_partBlock :
    slotSample { aSlot .playing 1 0 with lastFill := some 64, offset := 64 } = none
      ∧ (slotSample { aSlot .playing 1 0 with lastFill := some 64, offset := 63 }).isSome := by
  decide +kernel

/-- R167, R170: the bytes of the frames sent. -/
theorem test_sentFrames : frameBytes 7 1 [] = [0xE7, 2, 7, 1, 0x4A, 0x2B]
    ∧ ((TxItem.reply 7 .ident [[0]]).frame.take 5 = [0xE7, 3, 7, 0x81, 0])
    ∧ ((TxItem.notice [1, 0, 1]).frame.take 7 = [0xE7, 5, 0, 0x7E, 1, 0, 1]) := by decide +kernel

/-- R139, R155, R175: an expiry taken after its timer has been restarted does nothing. -/
theorem test_restarted :
    let s := onLink (fun l => { l with silenceLeft := some 1000 }) (withCalls [aMicCall .message]
      (onHouse (fun h => { h with state := .admitting, windowLeft := some 1000 }) run))
    after (.windowExpiry .one) s = s ∧ after (.micTimerExpiry 1) s = s
      ∧ after .silenceTimerExpiry s = s := by decide +kernel

/-- R158: a window opened from SEALED while the last window's chime sounds asks for its own. -/
theorem test_reopened :
    let s := after (.admitOpen 7 1 0 (some false)) (chiming (.window .one) (houseIn .sealed run))
    s.svc.chimes.map (fun c => (c.owner, c.left)) = [(.window .one, 1200)]
      ∧ (look s.svc.zones 1).active = some ⟨4, .window .one⟩ := by decide +kernel

/-- R181: a break holds the console in SILENT, in any state of the console it leaves the line off the
stop level, another character does not, and the line's 10 ms at the stop level wake the console. -/
theorem test_break :
    (after (.consoleCharacter 0 true) (onConsole .silent [] run)).pins.consoleStop = false
      ∧ (after (.consoleCharacter 0 true) (onConsole .comment [] run)).pins.consoleStop = false
      ∧ (after .resetLine (after (.consoleCharacter 0 true) (onConsole .editing [] run))).pins.consoleStop
          = false
      ∧ (after (.consoleCharacter 0x41 false) (onConsole .silent [] run)).pins.consoleStop = true
      ∧ (after .consoleIdleExpiry (after (.consoleCharacter 0 true) (onConsole .silent [] run))).console.state
          = .waking := by
  decide +kernel

/-- R183: lines that spell commands: two spaces between words, five digits, the largest argument. -/
theorem test_spells :
    Spells [0x74, 0x20, 0x20, 0x31, 0x39, 0x20, 0x31] (.test 19 true)
      ∧ Spells [0x7A, 0x20, 0x36, 0x35, 0x35, 0x33, 0x35] (.zone 65535)
      ∧ parseLine [0x7A, 0x20, 0x36, 0x35, 0x35, 0x33, 0x36] = none :=
  ⟨⟨[[0x31, 0x39], [0x31]], by decide,
      .cons ⟨by decide, by decide, by decide, by decide⟩
        (.cons ⟨by decide, by decide, by decide, by decide⟩ .nil)⟩,
    ⟨[[0x36, 0x35, 0x35, 0x33, 0x35]], by decide,
      .cons ⟨by decide, by decide, by decide, by decide⟩ .nil⟩,
    by decide⟩

/-- R2, R4, R15: what zones carry: the programme, a ducked relay, a live input over its ducked bed. -/
theorem test_outputs :
    zoneOutput run.env run.svc 0 = [(.programme .one, 20)]
      ∧ zoneOutput run.env (houseIn .admitting run).svc 1 = [(.programme .one, 30)]
      ∧ zoneOutput run.env (onZone 2 (fun z => { z with active := some ⟨5, .live 0⟩ }) run).svc 2
        = [(.liveIn .liveA, 20), (.programme .one, 20 + (look demoCfg.channels 0).duck)]
      ∧ zoneOutput run.env (onZone 0 (fun z => { z with backoff := true, drive := .degraded }) run).svc 0
        = [(.programme .one, 23)] := by decide +kernel

/-- R23, R184: the three lines of `z 0`: the third has the modules, the window, the foyer home and the
flag. -/
theorem test_zoneLines :
    (after (.consoleZoneStatus 0) (onConsole .editing [] run)).console.sent
      = [.lineEnd, .line (zoneShown run 0), .line [.text "HOME"],
         .line [.number 1, .number 10, .number 20, .text "SILENCE", .text "no"], .prompt] := by
  decide +kernel

/-- R181, R182, R184: the characters of the prompt, a rub-out, a line end and a result line. -/
theorem test_terminal :
    ConsoleText.prompt.chars = [0x3E, 0x20] ∧ ConsoleText.rubOut.chars = [8, 0x20, 8]
      ∧ ConsoleText.lineEnd.chars = [0x0D, 0x0A]
      ∧ (ConsoleText.line [.text "OK", .hex 0x1A2B, .number (-12)]).chars
        = [0x4F, 0x4B, 0x20, 0x30, 0x78, 0x31, 0x41, 0x32, 0x42, 0x20, 0x2D, 0x31, 0x32, 0x0D, 0x0A] := by
  decide +kernel

/-! ## States and operands that meet the statements' hypotheses -/

/-- States and operands for `Obligations.EmptyQueueCountsTime`. -/
theorem meets_EmptyQueueCountsTime :
    (Still run ∧ (run.pending = [] ∧ run.cue.one.firing = none ∧ run.cue.one.waiting = [] ∧
      run.cue.two.firing = none ∧ run.cue.two.waiting = []))
    ∧ (Still (onSvc (fun v => { v with callClock := 4294967295 }) run) ∧ (run.pending = []))
    ∧ (Still (onLink (fun l => { l with silenceLeft := some 1 }) idle) ∧ (idle.pending = [] ∧
      idle.cue.one.firing = none ∧ idle.cue.two.firing = none)) := by
  refine ⟨meetsStill ?_ ?_, meetsStill ?_ ?_, meetsStill ?_ ?_⟩ <;> decide +kernel

/-- States and operands for `Obligations.RequestsNotAccepted`. -/
theorem meets_RequestsNotAccepted :
    (requestOf (.ident 7) = some (7, .ident) ∧ (onControl (fun c => { c with holding := true })
      idle).control.holding = true)
    ∧ (idle.control.holding = false ∧ (onLink (fun l => { l with accepting := false })
      idle).svc.link.accepting = false)
    ∧ (idle.svc.link.accepting = true ∧ 4 ≤ (onLink (fun l =>
      { l with outstanding := List.replicate 4 anEntry }) idle).svc.link.outstanding.length) := by
  refine ⟨?_, ?_, ?_⟩ <;> decide +kernel

/-- States and operands for `Obligations.ResetsBeginAndEnd`. -/
theorem meets_ResetsBeginAndEnd :
    (idle.control.holding = false)
    ∧ ((onControl (fun c => { c with holding := true }) idle).control.holding = true ∧
      idle.svc.reports = [] ∧ idle.svc.walkDue = false) := by
  refine ⟨?_, ?_⟩ <;> decide +kernel

/-- States and operands for `Obligations.ReceiverTakesBytes`. -/
theorem meets_ReceiverTakesBytes :
    (Still idle ∧ (idle.svc.link.buffer = [] ∧ (0xE6 : Byte) ≠ 0xE7))
    ∧ (Still (buffered [0xE7] 19 idle) ∧ ((buffered [0xE7] 19 idle).svc.link.buffer =
      [{ byte := 0xE7, age := 19 }] ∧ 2 ≤ (2 : Byte).toNat ∧ (251 : Byte).toNat ≤ 251 ∧ ¬ 2 ≤ (1 :
      Byte).toNat ∧ ¬ (252 : Byte).toNat ≤ 251))
    ∧ (Still (buffered [0xE7, 2, 7, 1] 0 idle) ∧ ((buffered [0xE7, 2, 7, 1] 0
      idle).svc.link.buffer.map (·.byte) = [0xE7, 2, 7, 1] ∧ [(7 : Byte), 1].length + 3 < (2 :
      Byte).toNat + 4))
    ∧ (Still (buffered [0xE7, 1, 0xE7, 2] 0 idle) ∧ (∀ x ∈ [({ byte := 1, age := 0 } : KeptByte)],
      x.byte ≠ 0xE7) ∧ UnderWay [{ byte := 0xE7, age := 0 }, { byte := 2, age := 0 }] ∧ UnderWay
      [{ byte := 0xE7, age := 19 }] ∧ UnderWay [])
    ∧ (Still (buffered [0xE7, 2, 7, 1, 0x4A] 0 idle) ∧ ([(7 : Byte), 1, 0x4A, 0x2C].length + 2 =
      (2 : Byte).toNat + 4 ∧ crcRight [0xE7, 2, 7, 1, 0x4A, 0x2C] = false ∧ (∀ x ∈ ([2, 7, 1,
      0x4A, 0x2C] : List Byte), x ≠ 0xE7)))
    ∧ (Still (buffered [0xE7, 2, 7, 1, 0x4A] 0 idle) ∧ ([0xE7, 2, 7, 1, 0x4A, 0x2B] = frameBytes 7
      RequestKind.ident.code [] ∧ requestOf (.ident 7) = some (7, .ident) ∧ bodyOf (.ident 7) =
      some []))
    ∧ (Still (buffered (unknownFrame.take 5) 0 idle) ∧ (unknownFrame = frameBytes 7 7 [] ∧ kindOf
      7 = none ∧ idle.svc.link.accepting = true))
    ∧ (Still (buffered (longIdent.take 6) 0 idle) ∧ (longIdent = frameBytes 7
      RequestKind.ident.code [0] ∧ onlyLength .ident = some 0 ∧ [(0 : Byte)].length ≠ 0 ∧
      idle.svc.link.accepting = true))
    ∧ (Still (buffered [0xE7, 1, 0xE7, 2, 7, 1, 0x4A, 0x2B] 20 idle) ∧ ([0xE7, 2, 7, 1, 0x4A,
      0x2B] = frameBytes 7 RequestKind.ident.code []))
    ∧ (Still (onLink (fun l =>
      { l with buffer := (0xE7 :: longBody ++ [0xA5]).map (fun b => { byte := b, age := 0 }) })
      idle) ∧ (251 : Byte).toNat = 251 ∧ longBody.length = 252 ∧ crcRight (0xE7 :: longBody ++
      [0xA5, 0x37]) = true) := by
  refine ⟨meetsStill ?_ ?_, meetsStill ?_ ?_, meetsStill ?_ ?_, ⟨still_of (by decide), by decide,
    by simp [UnderWay], by simp [UnderWay], trivial⟩, meetsStill ?_ ?_, meetsStill ?_ ?_,
    meetsStill ?_ ?_, meetsStill ?_ ?_, meetsStill ?_ ?_, ⟨still_of ?_, ?_, ?_, test_longFrame⟩⟩ <;> decide +kernel

/-- States and operands for `Obligations.FrameSentMovesTheQueue`. -/
theorem meets_FrameSentMovesTheQueue :
    (idle.control.holding = false ∧ idle.svc.link.tx = [])
    ∧ ((sending (.reply 7 .cueRead [[0], [0]]) idle).svc.link.tx = [.reply 7 .cueRead [[0], [0]]])
    ∧ ((sending (.reply 7 .ident [[0]]) idle).svc.link.tx = [.reply 7 .ident [[0]]] ∧
      RequestKind.ident ≠ .reset)
    ∧ ((sending (.reply 7 .reset [[0]]) idle).svc.link.tx = [.reply 7 .reset [[0]]])
    ∧ ((sending (.immediate 7 0x81 [1]) idle).svc.link.tx = [.immediate 7 0x81 [1]])
    ∧ ((sending (.notice [0, 1, 0]) idle).svc.link.tx = [.notice [0, 1, 0]]) := by
  refine ⟨?_, ?_, ?_, ?_, ?_, ?_⟩ <;> decide +kernel

/-- States and operands for `Obligations.SilenceTimerSetsStandalone`. -/
theorem meets_SilenceTimerSetsStandalone :
    (Still idle ∧ (idle.svc.link.silenceLeft ≠ some 0 ∧ idle.svc.reports = [] ∧ idle.svc.walkDue =
      false))
    ∧ (Still (onSlot 0 (aSlot .loading 0 1) (onLink (fun l => { l with silenceLeft := some 0 })
      run)) ∧ ((onLink (fun l => { l with silenceLeft := some 0 }) run).svc.link.silenceLeft =
      some 0 ∧ (aSlot .loading 0 1).state ≠ .idle ∧ 0 < (aSlot .loading 0 1).toReceive))
    ∧ (Still (onLink (fun l => { l with silenceLeft := some 1 }) run) ∧ (some 1 ≠ some 0))
    ∧ ((oweWalk run.svc).reports = [] ∧ (oweWalk run.svc).walkDue = true ∧ (run.svc.report
      (.prefillReached 0)).reports = [.prefillReached 0])
    ∧ (slotChannel 0 = some 0 ∧ slotChannel 7 = some 3 ∧ (look (onSlot 0 (aSlot .playing 1 1)
      (onChannel 0 (fun c => { c with active := some (aClip .speaking) }) run)).svc.channels
      0).active = some (aClip .speaking) ∧ (aClip .speaking).slot = 0 ∧ (aClip
      .speaking).finishing = false ∧ (aClip .speaking).standing = false)
    ∧ (slotChannel 8 = none ∧ slotChannel 9 = none ∧ slotCall 8 (withCalls
      [{ aStreamCall with phase := some .message }] run).svc = some
      { aStreamCall with phase := some .message } ∧ findCall 1 (withCalls
      [{ aStreamCall with phase := some .message }] run).svc = some
      { aStreamCall with phase := some .message } ∧ aStreamCall.state = .playing)
    ∧ ((look (onChannel 0 (fun c => { c with headSlot := some 0 }) run).svc.channels 0).headSlot =
      some 0 ∧ (look run.svc.channels 0).active = none)
    ∧ ((look (onChannel 0 (fun c => { c with active := some (aClip .waitingFill) })
      run).svc.channels 0).active = some (aClip .waitingFill) ∧ (aClip .waitingFill).standing =
      false ∧ aDesc.condition = .gap ∧ channelGap run.env 0 ≠ .quiet)
    ∧ ((look run.control.cfg.channels 0).resumeLimit ≠ 0 ∧ (look (onControl (fun c =>
      { c with cfg := { c.cfg with channels := put c.cfg.channels 0 { look c.cfg.channels 0 with resumeLimit := 0 } } })
      run).control.cfg.channels 0).resumeLimit = 0)
    ∧ ((look (onSlot 0 (aSlot .playing 1 1) (onChannel 0 (fun c =>
      { c with active := some (aClip .speaking) }) run)).svc.slots 0).state = .playing ∧ (look
      (onSlot 0 (aSlot .paused 1 1) run).svc.slots 0).state = .paused ∧ 0 < (aSlot .paused 1
      1).ahead ∧ (aSlot .paused 0 1).ahead = 0 ∧ 0 < (aSlot .paused 0 1).toReceive ∧ (aClip
      .suspended).state = .suspended) := by
  refine ⟨meetsStill ?_ ?_, meetsStill ?_ ?_, meetsStill ?_ ?_, ?_, ?_, ?_, ?_, ?_, ?_, ?_⟩ <;> decide +kernel

/-- States and operands for `Obligations.IdentAndResetAnswer`. -/
theorem meets_IdentAndResetAnswer :
    (Ready idle ∧ (idle.control.running = false))
    ∧ (Ready run ∧ (run.control.running = true)) := by
  refine ⟨meets ?_ ?_, meets ?_ ?_⟩ <;> decide +kernel

/-- States and operands for `Obligations.NoticeClearAndSilenceSet`. -/
theorem meets_NoticeClearAndSilenceSet :
    (Ready idle ∧ ((0x0FFF : Word16) &&& 0xF000 = 0 ∧ (0x1000 : Word16) &&& 0xF000 ≠ 0 ∧ 60 < 61))
    ∧ (Ready run ∧ (run.control.running = true ∧ 60 ≤ 60)) := by
  refine ⟨meets ?_ ?_, meets ?_ ?_⟩ <;> decide +kernel

/-- States and operands for `Obligations.NoticeEnableAndResume`. -/
theorem meets_NoticeEnableAndResume :
    (Ready (onLink (fun l => { l with pendingKinds := 1, gateOpen := true }) run) ∧ ((0x1000 :
      Word16) &&& 0xF000 ≠ 0 ∧ (0x0FFF : Word16) &&& 0xF000 = 0)) := by
  refine meets ?_ ?_ <;> decide +kernel

/-- States and operands for `Obligations.ModeRunEntersRun`. -/
theorem meets_ModeRunEntersRun :
    (Ready run ∧ (run.control.running = true))
    ∧ (Ready (onControl (fun c => { c with settings := some (.load 7) }) idle) ∧
      (idle.control.running = false ∧ loading (onControl (fun c =>
      { c with settings := some (.load 7) }) idle).control = true))
    ∧ (Ready (onControl (fun c =>
      { c with cfg := { demoCfg with channels := put demoCfg.channels 3 { ChannelConfig.default with auditorium := some .one, zone := some 0 } } })
      idle) ∧ (loading idle.control = false ∧ firstFailure
      { demoCfg with channels := put demoCfg.channels 3 { ChannelConfig.default with auditorium := some .one, zone := some 0 } }
      = some 35))
    ∧ (Ready (onControl (fun c => { c with cfg := demoCfg }) idle) ∧ ((onControl (fun c =>
      { c with cfg := demoCfg }) idle).control.running = false ∧ loading (onControl (fun c =>
      { c with cfg := demoCfg }) idle).control = false ∧ firstFailure (onControl (fun c =>
      { c with cfg := demoCfg }) idle).control.cfg = none ∧ idle.svc.override = false))
    ∧ (Ready (onSvc (fun v => { v with override := true }) (onControl (fun c =>
      { c with cfg := demoCfg }) idle)) ∧ ((look demoCfg.zones 3).kind ≠ .unused ∧ (look
      demoCfg.zones 3).flagged = true ∧ (look demoCfg.zones 0).flagged = false ∧ (look
      idle.svc.zones 3).carries .override = false ∧ (look idle.svc.zones 3).rank < 7)) := by
  refine ⟨meets ?_ ?_, meets ?_ ?_, meets ?_ ?_, meets ?_ ?_, meets ?_ ?_⟩ <;> decide +kernel

/-- States and operands for `Obligations.ModeConfigTearsDown`. -/
theorem meets_ModeConfigTearsDown :
    (Ready idle ∧ (idle.control.running = false))
    ∧ (Ready (houseIn .sealed run) ∧ (run.control.running = true ∧ ((houseIn .sealed
      run).svc.houses.get .one).state ≠ .opened))
    ∧ (Ready run ∧ (run.control.running = true ∧ (run.svc.houses.get .one).state = .opened ∧
      (run.svc.houses.get .two).state = .opened))
    ∧ (Ready (onSlot 0 (aSlot .playing 1 1) (withCalls [aCall .waiting] run)) ∧ (([aCall
      .waiting].map (·.desc.callId)).Nodup ∧ [aFinished].length ≤ 8 ∧ (aSlot .playing 1 1).state ≠
      .idle))
    ∧ (firstFailure demoCfg = none ∧ firstFailure
      { demoCfg with channels := put demoCfg.channels 3 { ChannelConfig.default with auditorium := some .one, zone := some 0 } }
      = some 35)
    ∧ ((onControl (fun c => { c with memoryFault := true }) idle).control.memoryFault = true ∧ (∀
      b ∈ idle.control.memory.readAll 0 11, b = 0xFF))
    ∧ (∃ m : Memory, m.readAll 16 420 = List.replicate 420 0 ∧ (m.readAll 0 11).take 5 ≠ u32
      0xA5243C5A ++ u8 1)
    ∧ (∃ m : Memory, m.readAll 16 420 = List.replicate 420 0 ∧ (m.readAll 0 11).take 5 = u32
      0xA5243C5A ++ u8 1 ∧ ((m.readAll 0 11).drop 5).take 2 ≠ u16 420)
    ∧ (∃ m : Memory, m.readAll 16 420 = List.replicate 420 0 ∧ ((m.readAll 0 11).drop 5).take 2 =
      u16 420 ∧ (m.readAll 0 11).drop 7 ≠ u32 (crc32 (List.replicate 420 0)).toNat)
    ∧ (∃ m : Memory, m.readAll 16 420 = List.replicate 420 0 ∧ m.readAll 0 11 = u32 0xA5243C5A ++
      u8 1 ++ u16 420 ++ u32 (crc32 (List.replicate 420 0)).toNat ∧ ((cutRecords 40 0
      (List.replicate 420 0)).find? (fun p => !readPasses p.2)).map (·.1) = some 36)
    ∧ (∀ c : PartControl, c.memory = savedMemory → c.memoryFault = false → (readImage c).1 =
      .loaded) := by
  refine ⟨meets ?_ ?_, meets ?_ ?_, meets ?_ ?_, meets ?_ ?_, ?_, ?_, ⟨imageOf (List.replicate 11
    0), (test_image _ rfl).2, by rw [(test_image _ rfl).1]; decide⟩, ⟨imageOf (u32 0xA5243C5A ++
    u8 1 ++ List.replicate 6 0), (test_image _ rfl).2, by rw [(test_image _ rfl).1]; decide⟩,
    test_badCheck, ⟨imageOf _, (test_image _ rfl).2, (test_image _ rfl).1, by decide +kernel⟩,
    test_savedImage⟩ <;> decide +kernel

/-- States and operands for `Obligations.ConfigWriteReplacesTheRecord`. -/
theorem meets_ConfigWriteReplacesTheRecord :
    (Ready run ∧ (run.control.running = true))
    ∧ (Ready (onControl (fun c => { c with settings := some (.load 7) }) idle) ∧ (loading
      (onControl (fun c => { c with settings := some (.load 7) }) idle).control = true))
    ∧ (Ready idle ∧ (loading idle.control = false ∧ (indexTakes 40 (.link LinkConfig.default) &&
      recordLegal (.link LinkConfig.default)) = false ∧ (indexTakes 39 (.link
      { silence := 61, enables := 0 }) && recordLegal (.link { silence := 61, enables := 0 })) =
      false))
    ∧ (Ready idle ∧ (indexTakes 39 (.link { silence := 60, enables := 0x0FFF }) = true ∧
      recordLegal (.link { silence := 60, enables := 0x0FFF }) = true ∧ indexTakes 0 (.zone (look
      demoCfg.zones 0)) = true ∧ recordLegal (.zone (look demoCfg.zones 0)) = true ∧ (look
      idle.control.cfg.zones 0).kind ≠ (look demoCfg.zones 0).kind ∧ (look demoCfg.zones 0).kind =
      .hallLoop))
    ∧ (Ready (onControl (fun c => { c with cfg := demoCfg }) idle) ∧ ((look demoCfg.zones 3).kind
      ≠ ZoneConfig.default.kind ∧ ZoneConfig.default.kind = .unused ∧ indexTakes 19 (.zone
      ZoneConfig.default) = true ∧ indexTakes 31 (.entrance EntranceConfig.default) = true ∧
      indexTakes 38 (.supervision SupervisionConfig.default) = true ∧ recordLegal (.supervision
      SupervisionConfig.default) = true ∧ recordLegal (.zone ZoneConfig.default) = true ∧
      recordLegal (.entrance EntranceConfig.default) = true)) := by
  refine ⟨meets ?_ ?_, meets ?_ ?_, meets ?_ ?_, meets ?_ ?_, meets ?_ ?_⟩ <;> decide +kernel

/-- States and operands for `Obligations.StatusReadsAnswer`. -/
theorem meets_StatusReadsAnswer :
    (Ready run ∧ (0 = (0 : ZoneId).val ∧ 19 = (19 : ZoneId).val ∧ 31 = 20 + (11 : EntranceId).val
      ∧ 35 = 32 + (3 : ChannelId).val ∧ 36 = 35 + audNumber .one ∧ 37 = 35 + audNumber .two ∧ 12 =
      (11 : ModuleId).val + 1 ∧ 2 = audNumber .two))
    ∧ (Ready (onCue (fun c =>
      { c with list := [{ number := 1, actions := [.mark] }, { number := 5, actions := [.mark] }] })
      run) ∧ (1 = audNumber .one ∧ 5 ≠ 0 ∧ (∀ x ∈ [({ number := 1, actions := [.mark] } :
      CueEntry)], x.number < 5) ∧ 5 ≤ 5 ∧ (∀ x ∈ [({ number := 1, actions := [.mark] } :
      CueEntry), { number := 5, actions := [.mark] }], x.number < 6)))
    ∧ (Ready (withCalls [aCall .waiting] run) ∧ (1 ≠ 0 ∧ findCall 1 (withCalls [aCall .waiting]
      run).svc = some (aCall .waiting) ∧ findCall 2 (withCalls [aCall .waiting] run).svc = none))
    ∧ (Ready run ∧ (40 < 41 ∧ 19 < 20 ∧ 20 ≠ 255 ∧ (13 = 0 ∨ 12 < 13) ∧ 13 ≠ 255 ∧ 3 ≠ 1 ∧ 3 ≠ 2 ∧
      3 < 4 ∧ 2 < 3)) := by
  refine ⟨meets ?_ ?_, meets ?_ ?_, meets ?_ ?_, meets ?_ ?_⟩ <;> decide +kernel

/-- States and operands for `Obligations.SettingsSaveWritesTheImage`. -/
theorem meets_SettingsSaveWritesTheImage :
    (Ready (onControl (fun c => { c with settings := some (.load 7) }) idle) ∧ ((onControl (fun c
      => { c with settings := some (.load 7) }) idle).control.settings.isSome))
    ∧ (Ready run ∧ (run.control.settings = none ∧ Memory.wf run.control.memory = true ∧
      Instr.resetLine ∈ [Instr.powerOn, .supplyDip, .resetLine]))
    ∧ (Still (onControl (fun c => { c with settings := some (.save 7 c.cfg) }) run) ∧ ((onControl
      (fun c => { c with settings := some (.save 7 c.cfg) }) run).control.settings = some (.save 7
      demoCfg) ∧ run.control.memoryFault = false ∧ Memory.wf run.control.memory = true))
    ∧ (Still idle ∧ (idle.control.settings = none)) := by
  refine ⟨meets ?_ ?_, meets ?_ ?_, meetsStill ?_ ?_, meetsStill ?_ ?_⟩ <;> decide +kernel

/-- States and operands for `Obligations.SettingsLoadReadsTheImage`. -/
theorem meets_SettingsLoadReadsTheImage :
    (Ready run ∧ (run.control.running = true))
    ∧ (Ready (onControl (fun c => { c with settings := some .startLoad }) idle) ∧
      (idle.control.running = false ∧ (onControl (fun c => { c with settings := some .startLoad })
      idle).control.settings.isSome))
    ∧ (Ready idle ∧ (idle.control.running = false ∧ idle.control.settings = none))
    ∧ (Still (onControl (fun c => { c with settings := some (.load 7) }) idle) ∧ ((readImage
      (onControl (fun c => { c with settings := some (.load 7) }) idle).control).1 ≠ .loaded))
    ∧ (Still (onControl (fun c => { c with settings := some (.load 7), memory := savedMemory })
      idle) ∧ (readImage (onControl (fun c =>
      { c with settings := some (.load 7), memory := savedMemory }) idle).control).1 = .loaded) := by
  refine ⟨meets ?_ ?_, meets ?_ ?_, meets ?_ ?_, meetsStill ?_ ?_, ⟨still_of ?_, test_savedImage _
    (by simp only [onControl]) (by simp only [onControl]; rfl)⟩⟩ <;> decide +kernel

/-- States and operands for `Obligations.StartLoadEnds`. -/
theorem meets_StartLoadEnds :
    (Still idle ∧ (idle.control.settings ≠ some .startLoad))
    ∧ (Still (onControl (fun c => { c with settings := some .startLoad }) idle) ∧ ((readImage
      (onControl (fun c => { c with settings := some .startLoad }) idle).control).1 = .memory))
    ∧ (Still (onControl (fun c => { c with settings := some .startLoad, memory := savedMemory })
      idle) ∧ (readImage (onControl (fun c =>
      { c with settings := some .startLoad, memory := savedMemory }) idle).control).1 = .loaded) := by
  refine ⟨meetsStill ?_ ?_, meetsStill ?_ ?_, ⟨still_of ?_, test_savedImage _ (by simp only
    [onControl]) (by simp only [onControl]; rfl)⟩⟩ <;> decide +kernel

/-- States and operands for `Obligations.ZoneSetWritesLevelAndMute`. -/
theorem meets_ZoneSetWritesLevelAndMute :
    (Ready run ∧ (19 < 20 ∧ 60 < 61 ∧ (19 : ZoneId).val = 19 ∧ 60 ≤ 60))
    ∧ (Ready (withCalls [{ aCall .playing with unbroken := [3] }] run) ∧ ((3 : ZoneId).val = 3 ∧
      (look run.control.cfg.zones 3).mute = false))
    ∧ ((look run.control.cfg.zones 19).kind = .unused ∧ idle.control.running = false ∧ (look
      demoCfg.zones 3).kind = .foyerSpeaker ∧ (∀ z : ZoneId, z < 4 → (look demoCfg.zones z).kind ≠
      .unused ∧ (look demoCfg.zones z).mute = false ∧ (look run.svc.zones z).active = none) ∧
      (look demoCfg.zones 0).kind = .hallLoop ∧ (look demoCfg.zones 1).kind = .lobby ∧ (look
      demoCfg.zones 1).auditorium = some .one ∧ (look demoCfg.zones 2).kind = .description)
    ∧ ((look (onZone 3 (fun z => { z with active := some ⟨3, .call 1⟩ }) run).svc.zones 3).active
      = some ⟨3, .call 1⟩ ∧ (look (onZone 3 (fun z => { z with active := some ⟨7, .override⟩ })
      run).svc.zones 3).active = some ⟨7, .override⟩ ∧ findCall 1 (withCalls [aStreamCall] (onZone
      3 (fun z => { z with active := some ⟨3, .call 1⟩ }) run)).svc = some aStreamCall ∧
      aStreamCall.phase = some .pause ∧ (aMicCall .message).desc.message = .liveMic 120 ∧ (look
      (onZone 2 (fun z => { z with active := some ⟨5, .live 0⟩ }) run).svc.zones 2).active = some
      ⟨5, .live 0⟩ ∧ (look demoCfg.channels 0).liveInput = some .liveA ∧ (look (onZone 2 (fun z =>
      { z with active := some ⟨2, .clip 0⟩ }) (onSlot 0 (aSlot .playing 1 1) (onChannel 0 (fun c
      => { c with active := some (aClip .speaking) }) run))).svc.channels 0).active = some (aClip
      .speaking))
    ∧ ((look (onZone 3 (fun z => { z with active := some ⟨0, .test .link⟩ }) idle).svc.zones
      3).active = some ⟨0, .test .link⟩ ∧ (look (onZone 1 (fun z =>
      { z with active := some ⟨4, .window .one⟩ }) (chiming (.window .one) run)).svc.zones
      1).active = some ⟨4, .window .one⟩) := by
  refine ⟨meets ?_ ?_, meets ?_ ?_, ?_, ?_, ?_⟩ <;> decide +kernel

/-- States and operands for `Obligations.TestsStartAndEnd`. -/
theorem meets_TestsStartAndEnd :
    (Ready run ∧ (19 < 20 ∧ (look run.control.cfg.zones 19).kind = .unused))
    ∧ (Ready run ∧ ((look run.control.cfg.zones 3).kind ≠ .unused ∧ (look run.svc.zones
      3).testLink = none ∧ (look run.svc.zones 3).active = none))
    ∧ (Ready (onZone 3 (fun z => { z with testLink := some 1, active := some ⟨0, .test .link⟩ })
      run) ∧ ((look (onZone 3 (fun z =>
      { z with testLink := some 1, active := some ⟨0, .test .link⟩ }) run).svc.zones
      3).testLink.isSome ∧ (look (onZone 3 (fun z =>
      { z with testLink := some 1, active := some ⟨0, .test .link⟩ }) run).svc.zones 3).carries
      (.test .link) = true))
    ∧ (Ready (onZone 3 (fun z => { z with active := some ⟨7, .override⟩ }) run) ∧ ((look (onZone 3
      (fun z => { z with active := some ⟨7, .override⟩ }) run).svc.zones 3).active ≠ none ∧ (look
      (onZone 3 (fun z => { z with active := some ⟨7, .override⟩ }) run).svc.zones 3).carries
      (.test .link) = false))
    ∧ (Still (onZone 3 (fun z =>
      { z with testConsole := some 1, active := some ⟨0, .test .console⟩ }) run) ∧ (((look (onZone
      3 (fun z => { z with testConsole := some 1, active := some ⟨0, .test .console⟩ })
      run).svc.zones 3).testLeft .console).isSome ∧ (look run.svc.zones 3).testLeft .console =
      none)) := by
  refine ⟨meets ?_ ?_, meets ?_ ?_, meets ?_ ?_, meets ?_ ?_, meetsStill ?_ ?_⟩ <;> decide +kernel

/-- States and operands for `Obligations.OverrideActs`. -/
theorem meets_OverrideActs :
    (Still idle ∧ (idle.svc.override = false ∧ idle.control.running = false))
    ∧ (Still (onSvc (fun v => { v with override := true }) idle) ∧ ((onSvc (fun v =>
      { v with override := true }) idle).svc.override = true ∧ idle.control.running = false))
    ∧ (Still run ∧ (run.svc.override = false ∧ run.control.running = true ∧ (look
      run.control.cfg.zones 3).kind ≠ .unused ∧ (look run.control.cfg.zones 3).flagged = true ∧
      (look run.svc.zones 3).rank < 7 ∧ (look run.svc.zones 3).carries .override = false ∧ (look
      run.control.cfg.zones 2).flagged = false))
    ∧ (Still (onSvc (fun v => { v with override := true }) run) ∧ ((onSvc (fun v =>
      { v with override := true }) run).svc.override = true ∧ run.control.running = true ∧ (look
      run.svc.zones 0).carries .override = false))
    ∧ ((look (onZone 3 (fun z => { z with active := some ⟨7, .override⟩ }) run).svc.zones
      3).carries .override = true ∧ (look (onZone 3 (fun z =>
      { z with active := some ⟨7, .override⟩ }) run).svc.zones 3).holds = 0)
    ∧ (mayClaim (look run.env.cfg.zones 3) (.clip 0) = false ∧ mayClaim (look run.env.cfg.zones 3)
      (.call 1) = true ∧ run.env.run = true ∧ idle.env.run = false ∧ mayClaim (look demoCfg.zones
      3) (.test .link) = true)
    ∧ ((look (onZone 3 (fun z => { z with active := some ⟨3, .call 1⟩ }) run).svc.zones 3).carries
      (.call 1) = true ∧ (look (onZone 3 (fun z => { z with active := some ⟨3, .call 1⟩ })
      run).svc.zones 3).carries (.call 2) = false ∧ heldOff 1 ⟨3, .call 2⟩ = true ∧ heldOff 1 ⟨6,
      .call 2⟩ = false ∧ heldOff 0 ⟨3, .call 2⟩ = false ∧ ¬ (look (onZone 3 (fun z =>
      { z with active := some ⟨3, .call 1⟩ }) run).svc.zones 3).rank < 3 ∧ (look (onZone 3 (fun z
      => { z with active := some ⟨3, .call 1⟩ }) run).svc.zones 3).rank < 6)
    ∧ ((look (onZone 3 (fun z => { z with active := some ⟨3, .call 1⟩ }) run).svc.zones 3).active
      = some ⟨3, .call 1⟩ ∧ (look (onZone 3 (fun z => { z with active := some ⟨3, .call 1⟩ })
      run).svc.zones 3).holds = 0 ∧ (look run.svc.zones 3).active = none ∧ (look (onZone 3 (fun z
      => { z with holds := 1 }) run).svc.zones 3).holds = 1 ∧ (look run.svc.zones 3).holds ≠ 1) := by
  refine ⟨meetsStill ?_ ?_, meetsStill ?_ ?_, meetsStill ?_ ?_, meetsStill ?_ ?_, ?_, ?_, ?_, ?_⟩ <;> decide +kernel

/-- States and operands for `Obligations.ModuleClearEmptiesTheLatch`. -/
theorem meets_ModuleClearEmptiesTheLatch :
    (Ready run ∧ ((13 = 0 ∨ 12 < 13) ∧ 13 ≠ 255 ∧ (0 : ModuleId).val + 1 = 1 ∧ (11 : ModuleId).val
      + 1 = 12))
    ∧ (Ready idle ∧ ((0 = 0 ∨ 12 < 0) ∧ 0 ≠ 255)) := by
  refine ⟨meets ?_ ?_, meets ?_ ?_⟩ <;> decide +kernel

/-- States and operands for `Obligations.ModuleRestoreUntrips`. -/
theorem meets_ModuleRestoreUntrips :
    (Ready run ∧ ((13 = 0 ∨ 12 < 13) ∧ (0 : ModuleId).val + 1 = 1 ∧ (look run.sup.modules
      0).tripped = false))
    ∧ (Ready (onM1 (fun r => { r with tripped := true }) run) ∧ ((look (onM1 (fun r =>
      { r with tripped := true }) run).sup.modules 0).tripped = true ∧ run.sup.bus = none ∧
      run.sup.protective = []))
    ∧ (Ready (onSup (fun p => { p with bus := some (aRead 0) }) (onM1 (fun r =>
      { r with tripped := true }) run)) ∧ ((onSup (fun p => { p with bus := some (aRead 0) })
      (onM1 (fun r => { r with tripped := true }) run)).sup.bus.isSome)) := by
  refine ⟨meets ?_ ?_, meets ?_ ?_, meets ?_ ?_⟩ <;> decide +kernel

/-- States and operands for `Obligations.PollSetWritesEnables`. -/
theorem meets_PollSetWritesEnables :
    (Ready run ∧ ((0x0001 : Word16) &&& 0xE001 ≠ 0 ∧ (0x2000 : Word16) &&& 0xE001 ≠ 0 ∧ 0 < 256))
    ∧ (Ready (onControl (fun c =>
      { c with cfg := { c.cfg with supervision := { c.cfg.supervision with enables := 0x1FFE } } })
      run) ∧ ((0x1FFC : Word16) &&& 0xE001 = 0 ∧ 255 ≠ 0 ∧ 255 < 256 ∧ (0x1FFC : Word16).getLsbD
      ((0 : ModuleId).val + 1) = false)) := by
  refine ⟨meets ?_ ?_, meets ?_ ?_⟩ <;> decide +kernel

/-- States and operands for `Obligations.PassThroughsAreAccepted`. -/
theorem meets_PassThroughsAreAccepted :
    (Ready run ∧ ((0 = 0 ∨ 12 < 0 ∨ 15 < 15) ∧ (13 = 0 ∨ 12 < 13 ∨ 15 < 0) ∧ (1 = 0 ∨ 12 < 1 ∨ 15
      < 16)))
    ∧ (Ready (onSup (fun p =>
      { p with pass := some { asker := .console, module_ := 0, word := 0, value := none } }) run)
      ∧ ((11 : ModuleId).val + 1 = 12 ∧ 15 ≤ 15 ∧ (onSup (fun p =>
      { p with pass := some { asker := .console, module_ := 0, word := 0, value := none } })
      run).sup.pass.isSome))
    ∧ (Ready (onM1 (fun r => { r with tripped := true }) run) ∧ ((onM1 (fun r =>
      { r with tripped := true }) run).sup.pass = none ∧ (look (onM1 (fun r =>
      { r with tripped := true }) run).sup.modules 0).tripped = true))
    ∧ (Ready run ∧ (run.sup.pass = none ∧ run.sup.bus = none ∧ run.sup.protective = [] ∧ (8 ≠ 8 ∨
      (look run.sup.modules 0).tripped = false)))
    ∧ (Ready (onSup (fun p => { p with bus := some (aRead 0) }) run) ∧ ((onSup (fun p =>
      { p with bus := some (aRead 0) }) run).sup.pass = none ∧ (onSup (fun p =>
      { p with bus := some (aRead 0) }) run).sup.bus.isSome)) := by
  refine ⟨meets ?_ ?_, meets ?_ ?_, meets ?_ ?_, meets ?_ ?_, meets ?_ ?_⟩ <;> decide +kernel

/-- States and operands for `Obligations.TransactionsEnd`. -/
theorem meets_TransactionsEnd :
    (Still run ∧ (run.sup.bus = none))
    ∧ (Still (onSup (fun p =>
      { p with bus := some { user := .passThrough, module_ := 0, word := 3, value := none }, pass := some { asker := .link 7, module_ := 0, word := 3, value := none } })
      run) ∧ ((onSup (fun p =>
      { p with bus := some { user := .passThrough, module_ := 0, word := 3, value := none }, pass := some { asker := .link 7, module_ := 0, word := 3, value := none } })
      run).sup.poll = .idle ∧ (onSup (fun p =>
      { p with bus := some { user := .passThrough, module_ := 0, word := 3, value := none }, pass := some { asker := .link 7, module_ := 0, word := 3, value := none } })
      run).sup.protective = []))
    ∧ (Still (onSup (fun p =>
      { p with bus := some { user := .passThrough, module_ := 0, word := 2, value := none }, pass := some { asker := .link 7, module_ := 0, word := 2, value := none } })
      run) ∧ ((onSup (fun p =>
      { p with bus := some { user := .passThrough, module_ := 0, word := 2, value := none }, pass := some { asker := .link 7, module_ := 0, word := 2, value := none } })
      run).sup.poll = .idle ∧ 2 ≠ 3))
    ∧ (Still (onSup (fun p =>
      { p with bus := some { user := .passThrough, module_ := 0, word := 8, value := some 1 }, pass := some { asker := .link 7, module_ := 0, word := 8, value := some 1 } })
      run) ∧ ((onSup (fun p =>
      { p with bus := some { user := .passThrough, module_ := 0, word := 8, value := some 1 }, pass := some { asker := .link 7, module_ := 0, word := 8, value := some 1 } })
      run).sup.pass.isSome ∧ (onSup (fun p =>
      { p with bus := some { user := .passThrough, module_ := 0, word := 8, value := some 1 }, pass := some { asker := .link 7, module_ := 0, word := 8, value := some 1 } })
      run).sup.poll = .idle))
    ∧ (Still (onSup (fun p =>
      { p with bus := some { user := .protective, module_ := 0, word := 8, value := some 0 } })
      run) ∧ ((onSup (fun p =>
      { p with bus := some { user := .protective, module_ := 0, word := 8, value := some 0 } })
      run).sup.poll = .idle ∧ (onSup (fun p =>
      { p with bus := some { user := .protective, module_ := 0, word := 8, value := some 0 } })
      run).sup.protective = [] ∧ (onSup (fun p =>
      { p with bus := some { user := .protective, module_ := 0, word := 8, value := some 0 } })
      run).sup.pass = none))
    ∧ (Still (visiting 2 2 run) ∧ ((visiting 2 2 run).sup.bus = some (aRead 2) ∧ (visiting 2 2
      run).sup.poll = .visit (aVisit 2) ∧ (aVisit 2).dropped = false))
    ∧ (Still (onSup (fun p => { p with poll := .visit (aVisit 2), protective := [(0, true)] })
      (onSup (fun p =>
      { p with bus := some { user := .passThrough, module_ := 0, word := 2, value := none }, pass := some { asker := .link 7, module_ := 0, word := 2, value := none } })
      run)) ∧ ((onSup (fun p => { p with poll := .visit (aVisit 2), protective := [(0, true)] })
      (onSup (fun p =>
      { p with bus := some { user := .passThrough, module_ := 0, word := 2, value := none }, pass := some { asker := .link 7, module_ := 0, word := 2, value := none } })
      run)).sup.poll = .visit (aVisit 2) ∧ (onSup (fun p =>
      { p with poll := .visit (aVisit 2), protective := [(0, true)] }) (onSup (fun p =>
      { p with bus := some { user := .passThrough, module_ := 0, word := 2, value := none }, pass := some { asker := .link 7, module_ := 0, word := 2, value := none } })
      run)).sup.protective = [(0, true)] ∧ (onSup (fun p =>
      { p with poll := .visit (aVisit 2), protective := [(0, true)] }) (onSup (fun p =>
      { p with bus := some { user := .passThrough, module_ := 0, word := 2, value := none }, pass := some { asker := .link 7, module_ := 0, word := 2, value := none } })
      run)).sup.pass.isSome))
    ∧ (Still (onSup (fun p =>
      { p with bus := some { user := .protective, module_ := 0, word := 8, value := some 0 }, poll := .gap 5, protective := [(1, true)], pass := some { asker := .console, module_ := 0, word := 3, value := none } })
      run) ∧ ((onSup (fun p =>
      { p with bus := some { user := .protective, module_ := 0, word := 8, value := some 0 }, poll := .gap 5, protective := [(1, true)], pass := some { asker := .console, module_ := 0, word := 3, value := none } })
      run).sup.poll = .gap 5 ∧ (onSup (fun p =>
      { p with bus := some { user := .protective, module_ := 0, word := 8, value := some 0 }, poll := .gap 5, protective := [(1, true)], pass := some { asker := .console, module_ := 0, word := 3, value := none } })
      run).sup.protective ≠ [] ∧ (onSup (fun p =>
      { p with bus := some { user := .protective, module_ := 0, word := 8, value := some 0 }, poll := .gap 5, protective := [(1, true)], pass := some { asker := .console, module_ := 0, word := 3, value := none } })
      run).sup.pass.isSome))
    ∧ (Still (onSup (fun p =>
      { p with bus := some { user := .protective, module_ := 0, word := 8, value := some 0 }, pass := some { asker := .console, module_ := 0, word := 3, value := none } })
      run) ∧ ((onSup (fun p =>
      { p with bus := some { user := .protective, module_ := 0, word := 8, value := some 0 }, pass := some { asker := .console, module_ := 0, word := 3, value := none } })
      run).sup.protective = [] ∧ (onSup (fun p =>
      { p with bus := some { user := .protective, module_ := 0, word := 8, value := some 0 }, pass := some { asker := .console, module_ := 0, word := 3, value := none } })
      run).sup.pass = some { asker := .console, module_ := 0, word := 3, value := none }))
    ∧ (Still (onM1 (fun r => { r with tripped := true }) (onSup (fun p =>
      { p with bus := some { user := .protective, module_ := 0, word := 8, value := some 0 }, pass := some { asker := .link 7, module_ := 0, word := 8, value := some 1 } })
      run)) ∧ ((onM1 (fun r => { r with tripped := true }) (onSup (fun p =>
      { p with bus := some { user := .protective, module_ := 0, word := 8, value := some 0 }, pass := some { asker := .link 7, module_ := 0, word := 8, value := some 1 } })
      run)).sup.protective = [] ∧ (onM1 (fun r => { r with tripped := true }) (onSup (fun p =>
      { p with bus := some { user := .protective, module_ := 0, word := 8, value := some 0 }, pass := some { asker := .link 7, module_ := 0, word := 8, value := some 1 } })
      run)).sup.pass = some { asker := .link 7, module_ := 0, word := 8, value := some 1 } ∧ (look
      (onM1 (fun r => { r with tripped := true }) (onSup (fun p =>
      { p with bus := some { user := .protective, module_ := 0, word := 8, value := some 0 }, pass := some { asker := .link 7, module_ := 0, word := 8, value := some 1 } })
      run)).sup.modules 0).tripped = true)) := by
  refine ⟨meetsStill ?_ ?_, meetsStill ?_ ?_, meetsStill ?_ ?_, meetsStill ?_ ?_, meetsStill ?_
    ?_, meetsStill ?_ ?_, meetsStill ?_ ?_, meetsStill ?_ ?_, meetsStill ?_ ?_, meetsStill ?_ ?_⟩ <;> decide +kernel

/-- States and operands for `Obligations.PollMachineGoesOn`. -/
theorem meets_PollMachineGoesOn :
    (Still (visiting 1 0 run) ∧ ((visiting 1 0 run).sup.poll = .visit (aVisit 1) ∧ (visiting 1 0
      run).sup.protective = [] ∧ (visiting 1 0 run).sup.pass = none ∧ (visiting 1 0 run).sup.bus =
      some (aRead 0) ∧ (0x1234 : Word16) ≠ 0xFFFF))
    ∧ (Still (visiting 1 0 (onM1 (fun r => { r with identity := some 0x1233, tripped := true })
      run)) ∧ ((0x1233 : Word16) ≠ 0x1234))
    ∧ (Still (visiting 2 2 (onM1 (fun r => { r with tripped := true }) run)) ∧ ((visiting 2 2
      run).sup.poll = .visit (aVisit 2) ∧ (visiting 2 2 run).sup.bus = some (aRead 2) ∧ (3 :
      Word16).getLsbD 0 = true ∧ (2 : Word16).getLsbD 0 = false ∧ (2 : Word16).getLsbD 1 = true))
    ∧ (Still (visiting 3 1 run) ∧ ((visiting 3 1 run).sup.poll = .visit (aVisit 3) ∧ (visiting 3 1
      run).sup.bus = some (aRead 1)))
    ∧ (Still (visiting 4 3 run) ∧ ((visiting 4 3 run).sup.poll = .visit (aVisit 4) ∧ (visiting 4 3
      run).sup.bus = some (aRead 3)))
    ∧ (Still (visiting 5 4 (onM1 (fun r =>
      { r with caps := some { thermal := true, supply := false } }) run)) ∧ ((visiting 5 4 (onM1
      (fun r => { r with caps := some { thermal := true, supply := false } }) run)).sup.poll =
      .visit (aVisit 5) ∧ (visiting 5 4 (onM1 (fun r =>
      { r with caps := some { thermal := true, supply := false } }) run)).sup.bus = some (aRead 4)
      ∧ (look (visiting 5 4 (onM1 (fun r =>
      { r with caps := some { thermal := true, supply := false } }) run)).sup.modules 0).caps =
      some { thermal := true, supply := false }))
    ∧ (Still (visiting 5 4 run) ∧ ((visiting 5 4 run).sup.bus = some (aRead 4) ∧ (look
      run.sup.modules 0).caps = none))
    ∧ (Still (visiting 6 5 (onM1 (fun r => { r with run := 2 }) run)) ∧ ((visiting 6 5 (onM1 (fun
      r => { r with run := 2 }) run)).sup.poll = .visit (aVisit 6) ∧ (visiting 6 5 (onM1 (fun r =>
      { r with run := 2 }) run)).sup.bus = some (aRead 5) ∧ (visiting 6 5 (onM1 (fun r =>
      { r with run := 2 }) run)).sup.protective = [] ∧ (visiting 6 5 (onM1 (fun r =>
      { r with run := 2 }) run)).sup.pass = none ∧ (look (visiting 6 5 (onM1 (fun r =>
      { r with run := 2 }) run)).sup.modules 0).tripped = false ∧ decide (((visiting 6 5 (onM1
      (fun r => { r with run := 2 }) run)).control.cfg.supervision.tripTemp : Int) ≤ (90 :
      Word16).toInt) = true ∧ (visiting 6 5 (onM1 (fun r => { r with run := 2 })
      run)).control.cfg.supervision.tripLimit ≤ (look (visiting 6 5 (onM1 (fun r =>
      { r with run := 2 }) run)).sup.modules 0).run + 1))
    ∧ (Still (onSup (fun p =>
      { p with poll := .visit { aVisit 3 with dropped := true }, bus := some (aRead 1) }) run) ∧
      ((onSup (fun p =>
      { p with poll := .visit { aVisit 3 with dropped := true }, bus := some (aRead 1) })
      run).sup.poll = .visit { aVisit 3 with dropped := true } ∧ (onSup (fun p =>
      { p with poll := .visit { aVisit 3 with dropped := true }, bus := some (aRead 1) })
      run).sup.protective = [] ∧ (onSup (fun p =>
      { p with poll := .visit { aVisit 3 with dropped := true }, bus := some (aRead 1) })
      run).sup.pass = none ∧ (onSup (fun p =>
      { p with poll := .visit { aVisit 3 with dropped := true }, bus := some (aRead 1) })
      run).sup.bus = some (aRead 1)))
    ∧ (Still (onSup (fun p => { p with poll := .gap 0 }) run) ∧ ((onSup (fun p =>
      { p with poll := .gap 0 }) run).sup.poll = .gap 0 ∧ run.sup.bus = none ∧ run.sup.protective
      = [] ∧ run.sup.pass = none))
    ∧ (Still (onSup (fun p => { p with poll := .gap 0, protective := [(0, true)] }) run) ∧ ((onSup
      (fun p => { p with poll := .gap 0, protective := [(0, true)] }) run).sup.bus = none))
    ∧ (Still (onSup (fun p => { p with poll := .gap 0, bus := some (aRead 0) }) run) ∧ ((onSup
      (fun p => { p with poll := .gap 0, bus := some (aRead 0) }) run).sup.bus.isSome))
    ∧ (Still run ∧ (run.sup.poll = .idle ∧ (look run.control.cfg.zones 0).kind = .hallLoop ∧ (look
      run.control.cfg.zones 1).kind ≠ .hallLoop ∧ (look run.control.cfg.zones 1).kind ≠
      .foyerLoop)) := by
  refine ⟨meetsStill ?_ ?_, meetsStill ?_ ?_, meetsStill ?_ ?_, meetsStill ?_ ?_, meetsStill ?_
    ?_, meetsStill ?_ ?_, meetsStill ?_ ?_, meetsStill ?_ ?_, meetsStill ?_ ?_, meetsStill ?_ ?_,
    meetsStill ?_ ?_, meetsStill ?_ ?_, meetsStill ?_ ?_⟩ <;> decide +kernel

/-- States and operands for `Obligations.CueLineActs`. -/
theorem meets_CueLineActs :
    (Still idle ∧ (¬ (idle.control.running = true ∧ (idle.cue.get .one).filter = .released) ∧ ¬
      (idle.control.running = true ∧ (idle.cue.get .one).filter = .pressed) ∧ ¬
      (idle.control.running = true ∧ (idle.cue.get .one).filter = .unsettled)))
    ∧ (Still (onCue (fun c => { c with filter := .pressed }) run) ∧ (run.control.running = true ∧
      ((onCue (fun c => { c with filter := .pressed }) run).cue.get .one).filter = .pressed))
    ∧ (Still run ∧ (run.control.running = true ∧ (run.cue.get .one).filter = .unsettled))
    ∧ (Still (onCue (fun c => { c with filter := .released, lockout := some 1 }) run) ∧ (((onCue
      (fun c => { c with filter := .released, lockout := some 1 }) run).cue.get
      .one).lockout.isSome))
    ∧ (Still (onCue (fun c => { c with filter := .released }) run) ∧ (((onCue (fun c =>
      { c with filter := .released }) run).cue.get .one).filter = .released ∧ ((onCue (fun c =>
      { c with filter := .released }) run).cue.get .one).lockout = none ∧ ((onCue (fun c =>
      { c with filter := .released }) run).cue.get .one).firing = none ∧ ((onCue (fun c =>
      { c with filter := .released }) run).cue.get .one).waiting = []))
    ∧ (Still (onCue (fun c =>
      { c with filter := .released, firing := some aFiring, waiting := List.replicate 8 (.advance .line) })
      run) ∧ (aFiring.rest = [.mark] ∧ 8 ≤ (List.replicate 8 (WaitingCue.advance .line)).length))
    ∧ (Still (onCue (fun c =>
      { c with filter := .released, firing := some aFiring, waiting := List.replicate 7 (.advance .line) })
      run) ∧ ((List.replicate 7 (WaitingCue.advance .line)).length < 8)) := by
  refine ⟨meetsStill ?_ ?_, meetsStill ?_ ?_, meetsStill ?_ ?_, meetsStill ?_ ?_, meetsStill ?_
    ?_, meetsStill ?_ ?_, meetsStill ?_ ?_⟩ <;> decide +kernel

/-- States and operands for `Obligations.CueGoAdvances`. -/
theorem meets_CueGoAdvances :
    (Ready idle ∧ (3 ≠ 1 ∧ 3 ≠ 2 ∧ 0 ≠ 1 ∧ 0 ≠ 2 ∧ 1 = audNumber .one ∧ idle.control.running =
      false))
    ∧ (Ready (onCue (fun c => { c with position := 65535 }) run) ∧ (2 = audNumber .two ∧
      run.control.running = true ∧ (run.cue.get .one).firing = none ∧ (run.cue.get .one).waiting =
      []))
    ∧ (Ready (onCue (fun c =>
      { c with firing := some aFiring, waiting := List.replicate 8 (.advance .line) }) run) ∧
      (((onCue (fun c =>
      { c with firing := some aFiring, waiting := List.replicate 8 (.advance .line) })
      run).cue.get .one).firing.isSome ∧ 8 ≤ ((onCue (fun c =>
      { c with firing := some aFiring, waiting := List.replicate 8 (.advance .line) })
      run).cue.get .one).waiting.length))
    ∧ (Ready (onCue (fun c =>
      { c with firing := some aFiring, waiting := List.replicate 7 (.advance .line) }) run) ∧
      (((onCue (fun c =>
      { c with firing := some aFiring, waiting := List.replicate 7 (.advance .line) })
      run).cue.get .one).firing.isSome ∧ ((onCue (fun c =>
      { c with firing := some aFiring, waiting := List.replicate 7 (.advance .line) })
      run).cue.get .one).waiting.length < 8)) := by
  refine ⟨meets ?_ ?_, meets ?_ ?_, meets ?_ ?_, meets ?_ ?_⟩ <;> decide +kernel

/-- States and operands for `Obligations.CueSetJumps`. -/
theorem meets_CueSetJumps :
    (Ready run ∧ (3 ≠ 1 ∧ 3 ≠ 2 ∧ 0 ≠ 1 ∧ 0 ≠ 2))
    ∧ (Ready idle ∧ (1 = audNumber .one ∧ 65535 ≤ 65535 ∧ idle.control.running = false))
    ∧ (Ready (onCue (fun c => { c with list := [{ number := 1, actions := [.mark] }] }) run) ∧
      (run.control.running = true ∧ (run.cue.get .one).firing = none ∧ (run.cue.get .one).waiting
      = []))
    ∧ (Ready (onCue (fun c =>
      { c with firing := some aFiring, waiting := List.replicate 8 (.advance .line) }) run) ∧
      (((onCue (fun c =>
      { c with firing := some aFiring, waiting := List.replicate 8 (.advance .line) })
      run).cue.get .one).firing.isSome ∧ 8 ≤ ((onCue (fun c =>
      { c with firing := some aFiring, waiting := List.replicate 8 (.advance .line) })
      run).cue.get .one).waiting.length))
    ∧ (Ready (onCue (fun c =>
      { c with firing := some aFiring, waiting := List.replicate 7 (.advance .line) }) run) ∧
      (((onCue (fun c =>
      { c with firing := some aFiring, waiting := List.replicate 7 (.advance .line) })
      run).cue.get .one).firing.isSome ∧ ((onCue (fun c =>
      { c with firing := some aFiring, waiting := List.replicate 7 (.advance .line) })
      run).cue.get .one).waiting.length < 8)) := by
  refine ⟨meets ?_ ?_, meets ?_ ?_, meets ?_ ?_, meets ?_ ?_, meets ?_ ?_⟩ <;> decide +kernel

/-- States and operands for `Obligations.CueListIsEdited`. -/
theorem meets_CueListIsEdited :
    (Ready run ∧ (65535 < 65536 ∧ 4 < (List.replicate 5 (some CueAction.mark)).length ∧ none ∈
      [some CueAction.mark, none] ∧ actionLegal run .one (.startClip 4) = false ∧ actionLegal run
      .one (.openAdmit 4 true) = false ∧ actionLegal run .one (.releaseCall 0) = false))
    ∧ (Ready (onCue (fun c =>
      { c with list := (List.range 64).map (fun n => { number := n + 1, actions := [.mark] }) })
      run) ∧ (64 ≤ ((onCue (fun c =>
      { c with list := (List.range 64).map (fun n => { number := n + 1, actions := [.mark] }) })
      run).cue.get .one).list.length ∧ (∀ e ∈ ((onCue (fun c =>
      { c with list := (List.range 64).map (fun n => { number := n + 1, actions := [.mark] }) })
      run).cue.get .one).list, e.number ≠ 65535) ∧ [some CueAction.mark] = [CueAction.mark].map
      some ∧ actionLegal run .one .mark = true))
    ∧ (Ready (onCue (fun c =>
      { c with list := (List.range 64).map (fun n => { number := n + 1, actions := [.mark] }) })
      run) ∧ ((∃ e ∈ ((onCue (fun c =>
      { c with list := (List.range 64).map (fun n => { number := n + 1, actions := [.mark] }) })
      run).cue.get .one).list, e.number = 64) ∧ ((onCue (fun c =>
      { c with list := (List.range 64).map (fun n => { number := n + 1, actions := [.mark] }) })
      run).cue.get .one).list.Pairwise (fun x y => x.number < y.number)))
    ∧ (Ready idle ∧ ((idle.cue.get .one).list.length < 64 ∧ actionLegal run .one (.startClip 0) =
      true ∧ actionLegal run .one (.openAdmit 300 true) = true ∧ actionLegal run .one
      (.releaseCall 255) = true)) := by
  refine ⟨meets ?_ ?_, meets ?_ ?_, meets ?_ ?_, meets ?_ ?_⟩ <;> decide +kernel

/-- States and operands for `Obligations.GapStatesFollowTheLevel`. -/
theorem meets_GapStatesFollowTheLevel :
    (Still idle ∧ (idle.control.running = false))
    ∧ (Still run ∧ ((run.quiet.get .one).state = .sound ∧ levelOf (energyOf [some 0] ::
      (run.quiet.get .one).history |>.take 10).sum < (run.control.cfg.auditoria.get
      .one).quietThreshold))
    ∧ (Still (onQuiet (fun q => { q with state := .settling }) run) ∧
      ((run.control.cfg.auditoria.get .one).soundThreshold ≤ levelOf (energyOf (List.replicate 480
      (some 2147483647)) :: (run.quiet.get .one).history |>.take 10).sum))
    ∧ (Still (onQuiet (fun q =>
      { q with state := .quiet, current := some ⟨0, 5⟩, longestGap := some ⟨0, 4⟩ }) run) ∧
      (((onQuiet (fun q =>
      { q with state := .quiet, current := some ⟨0, 5⟩, longestGap := some ⟨0, 4⟩ })
      run).quiet.get .one).state = .quiet ∧ ((onQuiet (fun q =>
      { q with state := .quiet, current := some ⟨0, 5⟩, longestGap := some ⟨0, 4⟩ })
      run).quiet.get .one).current = some ⟨0, 5⟩ ∧ (((onQuiet (fun q =>
      { q with state := .quiet, current := some ⟨0, 5⟩, longestGap := some ⟨0, 4⟩ })
      run)).svc.houses.get .one).state ≠ .admitting))
    ∧ (Still (onHouse (fun h =>
      { h with state := .admitting, closeOnMusic := true, record := some aWindow }) (onQuiet (fun
      q => { q with state := .quiet, current := some ⟨0, 5⟩, longestGap := some ⟨0, 4⟩ }) run)) ∧
      (run.control.running = true))
    ∧ (Still (onChannel 0 (fun c => { c with active := some (aClip .waitingGap) }) (onQuiet (fun q
      => { q with state := .settling }) run)) ∧ ((look run.control.cfg.channels 0).auditorium =
      some .one ∧ (aClip .waitingGap).state = .waitingGap ∧ (look run.control.cfg.channels
      1).auditorium ≠ some .one)) := by
  refine ⟨meetsStill ?_ ?_, meetsStill ?_ ?_, meetsStill ?_ ?_, meetsStill ?_ ?_, meetsStill ?_
    ?_, meetsStill ?_ ?_⟩ <;> decide +kernel

/-- States and operands for `Obligations.FeedTakesABlock`. -/
theorem meets_FeedTakesABlock :
    (Ready run ∧ ((9 < 10 ∨ 128 < 129) ∧ (look run.svc.slots 9).state = .idle))
    ∧ (Ready (onSlot 0 (aSlot .loading 0 10) run) ∧ ((aSlot .loading 0 10).state ≠ .idle ∧ (aSlot
      .loading 0 10).toReceive ≠ 0 ∧ (aSlot .loading 0 10).owner ≠ some 2 ∧ (127 ≠ 128 ∧ (aSlot
      .loading 0 10).toReceive ≠ 1)))
    ∧ (Ready (onSlot 0 ({ aSlot .playing 1024 10 with length := 1200 }) run) ∧ (1024 ≤ (aSlot
      .playing 1024 10).held.length ∧ (aSlot .playing 1024 10).owner = some 1))
    ∧ (Ready (onSvc (fun v => { v with free := 0 }) (onSlot 0
      ({ aSlot .playing 32 10 with length := 1200 }) run)) ∧ (min 32 1200 ≤ (aSlot .playing 32
      10).held.length ∧ (0 : Nat) < reserveOfOthers run.svc.slots 0 + 1))
    ∧ (Ready (onSlot 0 (aSlot .loading 7 3) run) ∧ ((aSlot .loading 7 3).held.length < min 32
      (aSlot .loading 7 3).length ∧ (aSlot .loading 7 3).held.length + 1 = min 8 10))
    ∧ (Ready (onSlot 0 ({ aSlot .starved 0 1 with starve := some 1 }) run) ∧ ((aSlot .starved 0
      1).toReceive = 1)) := by
  refine ⟨meets ?_ ?_, meets ?_ ?_, meets ?_ ?_, meets ?_ ?_, meets ?_ ?_, meets ?_ ?_⟩ <;> decide +kernel

/-- States and operands for `Obligations.BlocksPlayOut`. -/
theorem meets_BlocksPlayOut :
    (Still run ∧ ((look run.svc.slots 0).state ≠ .playing ∨ (look run.svc.slots 0).ahead = 0))
    ∧ (Still (onSlot 0 (aSlot .playing 2 0) run) ∧ ((aSlot .playing 2 0).state = .playing ∧ (aSlot
      .playing 2 0).retain = false ∧ (aSlot .playing 2 0).held = Vector.replicate 128 0 ::
      [Vector.replicate 128 0]))
    ∧ (Still (onSlot 0 (aSlot .playing 1 1) run) ∧ ((aSlot .playing 1 1).held = [Vector.replicate
      128 0] ∧ 0 < (aSlot .playing 1 1).toReceive))
    ∧ (Still (onSlot 0 (aSlot .playing 1 0) run) ∧ ((aSlot .playing 1 0).held = [Vector.replicate
      128 0] ∧ (aSlot .playing 1 0).toReceive = 0))
    ∧ ((aSlot .paused 1 1).state ≠ .playing ∧ (aSlot .playing 0 1).held = [] ∧ (aSlot .playing 2
      1).held = Vector.replicate 128 0 :: [Vector.replicate 128 0] ∧
      ({ aSlot .playing 2 1 with offset := 127 } : Slot).offset = 127 ∧
      ({ aSlot .playing 2 0 with retain := true, position := 1 } : Slot).held.drop 1 =
      [Vector.replicate 128 0] ∧ ({ aSlot .playing 1 0 with lastFill := some 64, offset := 64 } :
      Slot).lastFill = some 64) := by
  refine ⟨meetsStill ?_ ?_, meetsStill ?_ ?_, meetsStill ?_ ?_, meetsStill ?_ ?_, ?_⟩ <;> decide +kernel

/-- States and operands for `Obligations.RetainedSlotsPassStarvedSlotsGo`. -/
theorem meets_RetainedSlotsPassStarvedSlotsGo :
    (Still (onSlot 0 ({ aSlot .playing 2 0 with retain := true }) run) ∧ ((0 : Nat) < (aSlot
      .playing 2 0).held.length ∧ 0 + 1 < (aSlot .playing 2 0).held.length))
    ∧ (Still (onSlot 0 ({ aSlot .playing 1 1 with retain := true }) run) ∧ (0 + 1 = (aSlot
      .playing 1 1).held.length ∧ 0 < (aSlot .playing 1 1).toReceive))
    ∧ (Still (onSlot 0 ({ aSlot .playing 1 0 with retain := true, loop := true, passes := 65535 })
      run) ∧ (0 + 1 = (aSlot .playing 1 0).held.length ∧ (aSlot .playing 1 0).toReceive = 0))
    ∧ (Still run ∧ ((look run.svc.slots 0).state ≠ .starved))
    ∧ (Still (onSlot 0 ({ aSlot .starved 0 1 with starve := some 1 }) run) ∧ ((aSlot .starved 0
      1).state = .starved ∧ (aSlot .starved 0 1).owner = some 1)) := by
  refine ⟨meetsStill ?_ ?_, meetsStill ?_ ?_, meetsStill ?_ ?_, meetsStill ?_ ?_, meetsStill ?_
    ?_⟩ <;> decide +kernel

/-- States and operands for `Obligations.LiveKeysClaim`. -/
theorem meets_LiveKeysClaim :
    (Still idle ∧ (¬ (idle.control.running = true ∧ (liveKeyOf idle.svc .liveA).filter ≠ .pressed)
      ∧ ¬ (idle.control.running = true ∧ (liveKeyOf idle.svc .liveA).filter = .pressed) ∧ ¬
      (idle.control.running = true ∧ (liveKeyOf idle.svc .liveA).filter = .unsettled)))
    ∧ (Still run ∧ (run.control.running = true ∧ (liveKeyOf run.svc .liveA).filter = .unsettled ∧
      boundTo run.env .liveA 0 = true ∧ boundTo run.env .liveA 1 = false ∧ (look
      run.control.cfg.channels 0).zone = some 2 ∧ (look run.control.cfg.zones 2).kind =
      .description ∧ (look run.svc.zones 2).rank < 5 ∧ (look run.svc.zones 2).carries (.live 0) =
      false ∧ (∀ e : ChannelId, e ≠ 0 → boundTo run.env .liveA e = true → (look
      run.control.cfg.channels e).zone ≠ some 2)))
    ∧ (Still (keysIn .pressed run) ∧ ((keysIn .pressed run).control.running = true ∧ (liveKeyOf
      (keysIn .pressed run).svc .liveB).filter = .pressed)) := by
  refine ⟨meetsStill ?_ ?_, meetsStill ?_ ?_, meetsStill ?_ ?_⟩ <;> decide +kernel

/-- States and operands for `Obligations.ClipArmQueues`. -/
theorem meets_ClipArmQueues :
    (Ready idle ∧ (3 < 4 ∧ 255 < 256 ∧ 3750 < 3751 ∧ (0 : ChannelId).val = 0 ∧ 1 ≤ 255 ∧ 3750 ≤
      3750 ∧ idle.control.running = false))
    ∧ (Ready run ∧ (run.control.running = true ∧ inService (look run.control.cfg.channels 3) =
      false))
    ∧ (Ready run ∧ (inService (look run.control.cfg.channels 0) = true ∧ (look run.svc.channels
      0).queue.length < 4 ∧ (look run.svc.channels 0).queue = [] ∧ (look run.svc.channels
      0).headSlot = none ∧ idleSlot run.svc 0 = some 0 ∧ reserve run.svc.slots + min 32 3750 ≤
      run.svc.free))
    ∧ (Ready (onChannel 0 (fun c => { c with queue := [aDesc] }) run) ∧ (∃ q ∈ (look (onChannel 0
      (fun c => { c with queue := [aDesc] }) run).svc.channels 0).queue, q.clipId = 255))
    ∧ (Ready (onChannel 0 (fun c => { c with queue := List.replicate 4 aDesc }) run) ∧ (4 ≤ (look
      (onChannel 0 (fun c => { c with queue := List.replicate 4 aDesc }) run).svc.channels
      0).queue.length ∧ (∀ q ∈ (look (onChannel 0 (fun c =>
      { c with queue := List.replicate 4 aDesc }) run).svc.channels 0).queue, q.clipId ≠ 1))) := by
  refine ⟨meets ?_ ?_, meets ?_ ?_, meets ?_ ?_, meets ?_ ?_, meets ?_ ?_⟩ <;> decide +kernel

/-- States and operands for `Obligations.ClipDisarmUnqueues`. -/
theorem meets_ClipDisarmUnqueues :
    (Ready run ∧ (3 < 4 ∧ (∀ q ∈ (look run.svc.channels 0).queue, q.clipId ≠ 255)))
    ∧ (Ready (onChannel 0 (fun c => { c with active := some (aClip .speaking) }) run) ∧ ((look
      (onChannel 0 (fun c => { c with active := some (aClip .speaking) }) run).svc.channels
      0).active = some (aClip .speaking) ∧ (aClip .speaking).desc.clipId = 255))
    ∧ (Ready (onChannel 0 (fun c => { c with queue := [aDesc] }) run) ∧ ((∃ q ∈ (look (onChannel 0
      (fun c => { c with queue := [aDesc] }) run).svc.channels 0).queue, q.clipId = 255) ∧ (look
      (onChannel 0 (fun c => { c with queue := [aDesc] }) run).svc.channels 0).active = none))
    ∧ (¬ CanLoad 0 aDesc 0 run)
    ∧ (CanLoad 0 aDesc 0 (onChannel 0 (fun c => { c with queue := [aDesc] }) run))
    ∧ (Ready (onSlot 0 { aSlot .loading 1 9 with owner := some 255 } (onChannel 0 (fun c =>
      { c with queue := [aDesc], headSlot := some 0 }) run)) ∧ ((look (onSlot 0
      { aSlot .loading 1 9 with owner := some 255 } (onChannel 0 (fun c =>
      { c with queue := [aDesc], headSlot := some 0 }) run)).svc.channels 0).queue.head? = some
      aDesc ∧ aDesc.clipId = 255 ∧ (look (onSlot 0 { aSlot .loading 1 9 with owner := some 255 }
      (onChannel 0 (fun c => { c with queue := [aDesc], headSlot := some 0 }) run)).svc.channels
      0).headSlot = some 0 ∧ (look (onSlot 0 { aSlot .loading 1 9 with owner := some 255 }
      (onChannel 0 (fun c => { c with queue := [aDesc], headSlot := some 0 }) run)).svc.slots
      0).state ≠ .idle ∧ (look (onSlot 0 { aSlot .loading 1 9 with owner := some 255 } (onChannel
      0 (fun c => { c with queue := [aDesc], headSlot := some 0 }) run)).svc.slots 0).owner = some
      255))
    ∧ ((aSlot .loading 0 1).state = .loading ∧ 0 < (aSlot .loading 0 1).toReceive ∧ (aSlot
      .loading 0 1).held.length < 64 ∧ Slot.idle.state = .idle) := by
  refine ⟨meets ?_ ?_, meets ?_ ?_, meets ?_ ?_, fun h => absurd h.queued (by decide), ⟨by decide,
    by decide, by decide, by decide, by decide, by decide +kernel⟩, meets ?_ ?_, ?_⟩ <;> decide +kernel

/-- States and operands for `Obligations.ClipStartTakesTheHead`. -/
theorem meets_ClipStartTakesTheHead :
    (Ready idle ∧ (3 < 4 ∧ idle.control.running = false ∧ inService (look
      idle.control.cfg.channels 0) = false))
    ∧ (Ready (onChannel 0 (fun c =>
      { c with mode := .standing, active := some { aClip .speaking with standing := true } }) run)
      ∧ ((look (onChannel 0 (fun c =>
      { c with mode := .standing, active := some { aClip .speaking with standing := true } })
      run).svc.channels 0).mode = .standing ∧ (look (onChannel 0 (fun c =>
      { c with mode := .standing, active := some { aClip .speaking with standing := true } })
      run).svc.channels 0).active = some { aClip .speaking with standing := true } ∧ (aClip
      .speaking).finishing = false))
    ∧ (Ready run ∧ (run.control.running = true ∧ inService (look run.control.cfg.channels 0) =
      true ∧ (look run.svc.channels 0).mode ≠ .standing ∧ (look run.svc.channels 0).queue = []))
    ∧ (Ready (onSlot 0 (aSlot .playing 1 1) (onSlot 1 (aSlot .playing 1 1) (onChannel 0 (fun c =>
      { c with queue := [aDesc] }) run))) ∧ ((look (onSlot 0 (aSlot .playing 1 1) (onSlot 1 (aSlot
      .playing 1 1) (onChannel 0 (fun c => { c with queue := [aDesc] }) run))).svc.channels
      0).headSlot = none ∧ idleSlot (onSlot 0 (aSlot .playing 1 1) (onSlot 1 (aSlot .playing 1 1)
      (onChannel 0 (fun c => { c with queue := [aDesc] }) run))).svc 0 = none))
    ∧ (Ready (onSlot 0 (aSlot .loading 8 2) (onChannel 0 (fun c =>
      { c with queue := [aDesc], headSlot := some 0, headFilled := true }) run)) ∧ ((look (onSlot
      0 (aSlot .loading 8 2) (onChannel 0 (fun c =>
      { c with queue := [aDesc], headSlot := some 0, headFilled := true }) run)).svc.channels
      0).queue = [aDesc] ∧ (look (onSlot 0 (aSlot .loading 8 2) (onChannel 0 (fun c =>
      { c with queue := [aDesc], headSlot := some 0, headFilled := true }) run)).svc.channels
      0).headSlot = some 0 ∧ (look (onSlot 0 (aSlot .loading 8 2) (onChannel 0 (fun c =>
      { c with queue := [aDesc], headSlot := some 0, headFilled := true }) run)).svc.channels
      0).headFilled = true ∧ aDesc.condition = .gap ∧ channelGap (onSlot 0 (aSlot .loading 8 2)
      (onChannel 0 (fun c => { c with queue := [aDesc], headSlot := some 0, headFilled := true })
      run)).env 0 ≠ .quiet ∧ ¬ (aDesc.latestStart ≠ 0 ∧ aDesc.latestStart < channelClock (onSlot 0
      (aSlot .loading 8 2) (onChannel 0 (fun c =>
      { c with queue := [aDesc], headSlot := some 0, headFilled := true }) run)).env 0)))
    ∧ (Ready (onSlot 0 (aSlot .loading 8 2) (onChannel 0 (fun c =>
      { c with queue := [{ aDesc with condition := .atCue }], headSlot := some 0, headFilled := true })
      run)) ∧ ((look (onSlot 0 (aSlot .loading 8 2) (onChannel 0 (fun c =>
      { c with queue := [{ aDesc with condition := .atCue }], headSlot := some 0, headFilled := true })
      run)).svc.channels 0).headFilled = true ∧ (look (onSlot 0 (aSlot .loading 8 2) (onChannel 0
      (fun c =>
      { c with queue := [{ aDesc with condition := .atCue }], headSlot := some 0, headFilled := true })
      run)).svc.channels 0).active = none))
    ∧ (Ready (onSlot 0 (aSlot .loading 7 3) (onChannel 0 (fun c =>
      { c with queue := [aDesc], headSlot := some 0, headFilled := false }) run)) ∧ ((look (onSlot
      0 (aSlot .loading 7 3) (onChannel 0 (fun c =>
      { c with queue := [aDesc], headSlot := some 0, headFilled := false }) run)).svc.channels
      0).headFilled = false))
    ∧ (Ready (onCue (fun c => { c with clock := 2 }) (onSlot 0 (aSlot .loading 8 2) (onChannel 0
      (fun c =>
      { c with queue := [{ aDesc with latestStart := 1 }], headSlot := some 0, headFilled := true })
      run))) ∧ ((1 : Nat) ≠ 0 ∧ 1 < channelClock (onCue (fun c => { c with clock := 2 }) (onSlot 0
      (aSlot .loading 8 2) (onChannel 0 (fun c =>
      { c with queue := [{ aDesc with latestStart := 1 }], headSlot := some 0, headFilled := true })
      run))).env 0))
    ∧ (Ready (onChannel 0 (fun c => { c with queue := [aDesc] }) run) ∧ ((look (onChannel 0 (fun c
      => { c with queue := [aDesc] }) run).svc.channels 0).headSlot = none ∧ idleSlot (onChannel 0
      (fun c => { c with queue := [aDesc] }) run).svc 0 = some 0 ∧ between 1 255 aDesc.clipId =
      true ∧ between 1 3750 aDesc.length = true ∧ reserve (onChannel 0 (fun c =>
      { c with queue := [aDesc] }) run).svc.slots + min 32 aDesc.length ≤ (onChannel 0 (fun c =>
      { c with queue := [aDesc] }) run).svc.free))
    ∧ (Ready (onSvc (fun v => { v with free := 9 }) (onChannel 0 (fun c =>
      { c with queue := [aDesc] }) run)) ∧ (9 < reserve (onChannel 0 (fun c =>
      { c with queue := [aDesc] }) run).svc.slots + min 32 aDesc.length)) := by
  refine ⟨meets ?_ ?_, meets ?_ ?_, meets ?_ ?_, meets ?_ ?_, meets ?_ ?_, meets ?_ ?_, meets ?_
    ?_, meets ?_ ?_, meets ?_ ?_, meets ?_ ?_⟩ <;> decide +kernel

/-- States and operands for `Obligations.ClipsEnd`. -/
theorem meets_ClipsEnd :
    (Ready run ∧ (3 < 4 ∧ (look run.svc.channels 0).active = none ∧ inService (look
      run.control.cfg.channels 3) = false))
    ∧ (Ready idle ∧ (idle.control.running = false))
    ∧ (Ready (onChannel 0 (fun c => { c with active := some (aClip .speaking) }) run) ∧ ((look
      (onChannel 0 (fun c => { c with active := some (aClip .speaking) }) run).svc.channels
      0).active = some (aClip .speaking)))
    ∧ (Still run ∧ ((look run.svc.channels 0).active = none))
    ∧ (Still (onChannel 0 (fun c =>
      { c with active := some { aClip .waitingGap with desc := { aDesc with latestStart := 1 } } })
      run) ∧ ((look run.control.cfg.channels 0).auditorium = some .one ∧ (aClip
      .waitingGap).state.waits = true ∧ (1 : Nat) ≠ 0 ∧ ((onChannel 0 (fun c =>
      { c with active := some { aClip .waitingGap with desc := { aDesc with latestStart := 1 } } })
      run).cue.get .one).running = false ∧ ((onChannel 0 (fun c =>
      { c with active := some { aClip .waitingGap with desc := { aDesc with latestStart := 1 } } })
      run).cue.get .one).clock ≤ 1))
    ∧ (Still (onCue (fun c => { c with clock := 2 }) (onChannel 0 (fun c =>
      { c with active := some { aClip .waitingGap with desc := { aDesc with latestStart := 1 } } })
      run)) ∧ (1 < ((onCue (fun c => { c with clock := 2 }) (onChannel 0 (fun c =>
      { c with active := some { aClip .waitingGap with desc := { aDesc with latestStart := 1 } } })
      run)).cue.get .one).clock))
    ∧ (Still (onCue (fun c => { c with running := true }) (onChannel 0 (fun c =>
      { c with active := some { aClip .waitingGap with desc := { aDesc with latestStart := 1 } } })
      run)) ∧ (((onCue (fun c => { c with running := true }) (onChannel 0 (fun c =>
      { c with active := some { aClip .waitingGap with desc := { aDesc with latestStart := 1 } } })
      run)).cue.get .one).running = true))
    ∧ (Still (onChannel 0 (fun c =>
      { c with active := some { aClip .suspended with resumeLeft := some 1 } }) run) ∧ ((aClip
      .suspended).state = .suspended)) := by
  refine ⟨meets ?_ ?_, meets ?_ ?_, meets ?_ ?_, meetsStill ?_ ?_, meetsStill ?_ ?_, meetsStill ?_
    ?_, meetsStill ?_ ?_, meetsStill ?_ ?_⟩ <;> decide +kernel

/-- States and operands for `Obligations.ChannelModes`. -/
theorem meets_ChannelModes :
    (Ready idle ∧ (3 < 4 ∧ 255 < 256 ∧ 1024 < 1025 ∧ idle.control.running = false))
    ∧ (Ready run ∧ (inService (look run.control.cfg.channels 3) = false ∧ 1 ≤ 255 ∧ 255 ≤ 255 ∧ 1
      ≤ 1024 ∧ 1024 ≤ 1024))
    ∧ (Ready run ∧ ((look run.control.cfg.channels 0).auditorium = some .one ∧ (run.svc.houses.get
      .one).state = .opened ∧ (look run.svc.channels 0).mode = .scripted ∧ (look run.svc.channels
      0).active = none ∧ standingSlot run.svc 0 = some 0 ∧ reserve run.svc.slots + min 32 1024 ≤
      run.svc.free))
    ∧ (Ready (onChannel 0 (fun c =>
      { c with mode := .standing, active := some { aClip .speaking with standing := true } }) run)
      ∧ ((look (onChannel 0 (fun c =>
      { c with mode := .standing, active := some { aClip .speaking with standing := true } })
      run).svc.channels 0).mode = .standing))
    ∧ (Ready (onChannel 0 (fun c => { c with queue := [aDesc] }) run) ∧ (∃ q ∈ (look (onChannel 0
      (fun c => { c with queue := [aDesc] }) run).svc.channels 0).queue, q.clipId = 255))
    ∧ (Ready (onSlot 0 (aSlot .playing 1 1) (onSlot 1 (aSlot .playing 1 1) (onChannel 0 (fun c =>
      { c with queue := [aDesc] }) run))) ∧ (standingSlot (onSlot 0 (aSlot .playing 1 1) (onSlot 1
      (aSlot .playing 1 1) (onChannel 0 (fun c => { c with queue := [aDesc] }) run))).svc 0 =
      none))
    ∧ (Ready (onSvc (fun v => { v with free := 31 }) run) ∧ (31 < reserve run.svc.slots + min 32
      1024)) := by
  refine ⟨meets ?_ ?_, meets ?_ ?_, meets ?_ ?_, meets ?_ ?_, meets ?_ ?_, meets ?_ ?_, meets ?_
    ?_⟩ <;> decide +kernel

/-- States and operands for `Obligations.CallPostEntersTheTable`. -/
theorem meets_CallPostEntersTheTable :
    (Ready idle ∧ (255 < 256 ∧ 3 < 4 ∧ (∃ z ∈ [20], 20 ≤ z) ∧ 1024 < 1025 ∧ 120 < 121 ∧ 8 < 9 ∧
      600 < 601 ∧ 3600 < 3601 ∧ (callDescOf demoCall).isSome ∧ idle.control.running = false))
    ∧ (Ready run ∧ ((callDescOf { demoCall with targets := [0] }).isSome ∧ takesCalls (look
      run.control.cfg.zones 0).kind = false))
    ∧ (Ready (withCalls [aCall .waiting] run) ∧ ((callDescOf demoCall).map (·.callId) = some 1 ∧
      (aCall .waiting).desc.callId = 1 ∧ takesCalls (look run.control.cfg.zones 3).kind = true))
    ∧ (Ready (withCalls ((List.range 16).map (fun n =>
      { aCall .waiting with desc := { (aCall .waiting).desc with callId := n + 2 } })) run) ∧ ((∀
      n ∈ List.range 16, n + 2 ≠ 1) ∧ 16 ≤ (List.range 16).length))
    ∧ (Ready (withCalls ((List.range 15).map (fun n =>
      { aCall .waiting with desc := { (aCall .waiting).desc with callId := n + 2 } })) run) ∧ ((∀
      n ∈ List.range 15, n + 2 ≠ 1) ∧ (List.range 15).length < 16)) := by
  refine ⟨meets ?_ ?_, meets ?_ ?_, meets ?_ ?_, meets ?_ ?_, meets ?_ ?_⟩ <;> decide +kernel

/-- States and operands for `Obligations.CallRequestsAnswer`. -/
theorem meets_CallRequestsAnswer :
    (Ready run ∧ (findCall 1 run.svc = none ∧ run.svc.finished = []))
    ∧ (Ready (withCalls [aCall .parked] run) ∧ (findCall 1 (withCalls [aCall .parked] run).svc =
      some (aCall .parked) ∧ (aCall .parked).state = .parked))
    ∧ (Ready (withCalls [aCall .waiting] run) ∧ (findCall 1 (withCalls [aCall .waiting] run).svc =
      some (aCall .waiting) ∧ (aCall .waiting).state ≠ .parked ∧ isMic (aCall
      .waiting).desc.message = false))
    ∧ (Ready (withCalls [aMicCall .chime] run) ∧ (isMic (aMicCall .chime).desc.message = true ∧
      (aMicCall .chime).state = .playing ∧ (aMicCall .chime).phase = some .chime))
    ∧ (Ready (withCalls [aMicCall .message] run) ∧ ((aMicCall .message).phase ≠ some .chime ∧
      (aMicCall .message).done + 1 < (aMicCall .message).desc.repetitions))
    ∧ (Ready (withCalls [{ aMicCall .message with done := 1 }] run) ∧ ((aMicCall
      .message).desc.repetitions ≤ 1 + 1))
    ∧ (Ready (onSvc (fun v => { v with finished := [aFinished] }) idle) ∧ ((onSvc (fun v =>
      { v with finished := [aFinished] }) idle).svc.finished = [aFinished])) := by
  refine ⟨meets ?_ ?_, meets ?_ ?_, meets ?_ ?_, meets ?_ ?_, meets ?_ ?_, meets ?_ ?_, meets ?_
    ?_⟩ <;> decide +kernel

/-- States and operands for `Obligations.CallTimersAct`. -/
theorem meets_CallTimersAct :
    (Still run ∧ (findCall 1 run.svc = none))
    ∧ (Still (withCalls [{ aCall .waiting with expiryLeft := some 1 }] run) ∧ (findCall 1
      (withCalls [{ aCall .waiting with expiryLeft := some 1 }] run).svc = some
      { aCall .waiting with expiryLeft := some 1 }))
    ∧ (Still (withCalls [{ aCall .spacing with spacingLeft := some 1 }] run) ∧ ((aCall
      .spacing).state = .spacing))
    ∧ (Still (withCalls [aMicCall .pause] run) ∧ ((aMicCall .pause).state = .playing ∧ (aMicCall
      .pause).phase = some .pause))
    ∧ (Still (onSlot 8 (aSlot .loading 8 2) (withCalls [aStreamCall] run)) ∧
      (aStreamCall.desc.message = .stream 10 ∧ aStreamCall.slot = some 8 ∧ aStreamCall.done = 0 ∧
      (aSlot .loading 8 2).prefill ≤ (aSlot .loading 8 2).held.length))
    ∧ (Still (onSlot 8 { aSlot .paused 10 0 with retain := true } (withCalls
      [{ aStreamCall with done := 1 }] run)) ∧ ((0 : Nat) <
      ({ aSlot .paused 10 0 with retain := true } : Slot).ahead))
    ∧ (Still (withCalls [{ aMicCall .message with micLeft := some 0 }] run) ∧
      (({ aMicCall .message with micLeft := some 0 } : Call).micLeft = some 0 ∧ (aMicCall
      .message).micLeft ≠ some 0))
    ∧ (findCall 1 (withCalls [aCall .spacing] run).svc = some (aCall .spacing) ∧ findCall 1
      (withCalls [aCall .parked] run).svc = some (aCall .parked) ∧ (aCall .parked).desc.message =
      .noMessage)
    ∧ (findCall 1 (withCalls
      [{ aStreamCall with state := .waiting, phase := none, slot := none, filled := false, breakLeft := none }]
      run).svc = some
      { aStreamCall with state := .waiting, phase := none, slot := none, filled := false, breakLeft := none }
      ∧
      ({ aStreamCall with state := .waiting, phase := none, slot := none, filled := false, breakLeft := none }
      : Call).state = .waiting ∧
      ({ aStreamCall with state := .waiting, phase := none, slot := none, filled := false, breakLeft := none }
      : Call).filled = false ∧
      ({ aStreamCall with state := .waiting, phase := none, slot := none, filled := false, breakLeft := none }
      : Call).slot = none ∧
      ({ aStreamCall with state := .waiting, phase := none, slot := none, filled := false, breakLeft := none }
      : Call).desc.message = .stream 10 ∧ (look run.svc.slots 8).state = .idle ∧ run.env.run =
      true ∧ between 1 1024 10 = true ∧ reserve run.svc.slots + min 32 10 ≤ run.svc.free)
    ∧ ((look (onSlot 8 (aSlot .playing 1 1) (onSlot 9 (aSlot .playing 1 1) run)).svc.slots
      8).state ≠ .idle ∧ (look (onSlot 8 (aSlot .playing 1 1) run).svc.slots 9).state = .idle ∧
      (onSvc (fun v => { v with free := 31 }) run).svc.free < reserve run.svc.slots + min 32 32)
    ∧ (findCall 1 (withCalls [aCall .waiting] run).svc = some (aCall .waiting) ∧ (aCall
      .waiting).desc.targets.Nodup ∧ (∀ z ∈ (aCall .waiting).desc.targets, mayClaim (look
      run.env.cfg.zones z) (.call 1) = true) ∧ (look run.svc.zones 3).rank < (callClaim (aCall
      .waiting).desc).rank ∧ run.env.run = true)
    ∧ ((3 : ZoneId) ∈ (aCall .playing).desc.targets ∧ (look run.svc.zones 3).carries (.call 1) =
      false ∧ (look run.svc.zones 3).stacks (.call 1) = false ∧ (0 : ZoneId) ∉ (aCall
      .playing).desc.targets) := by
  refine ⟨meetsStill ?_ ?_, meetsStill ?_ ?_, meetsStill ?_ ?_, meetsStill ?_ ?_, meetsStill ?_
    ?_, meetsStill ?_ ?_, meetsStill ?_ ?_, ?_, ?_, ?_, ?_, ?_⟩ <;> decide +kernel

/-- States and operands for `Obligations.ChimesEnd`. -/
theorem meets_ChimesEnd :
    (Still run ∧ (chimeSounds (.call 1) run.svc = false))
    ∧ (Still (chiming (.call 1) (withCalls [aMicCall .chime] run)) ∧ (chimeSounds (.call 1)
      (chiming (.call 1) (withCalls [aMicCall .chime] run)).svc = true ∧ findCall 1 (chiming
      (.call 1) (withCalls [aMicCall .chime] run)).svc = some (aMicCall .chime) ∧ (aMicCall
      .chime).desc.message ≠ .noMessage ∧ (aMicCall .chime).dropMessage = false))
    ∧ (Still (chiming (.call 1) (withCalls [{ aCall .playing with phase := some .chime }] run)) ∧
      ((aCall .playing).desc.message = .noMessage))
    ∧ (Still (chiming (.window .one) (houseIn .admitting run)) ∧ (chimeSounds (.window .one)
      (chiming (.window .one) (houseIn .admitting run)).svc = true)) := by
  refine ⟨meetsStill ?_ ?_, meetsStill ?_ ?_, meetsStill ?_ ?_, meetsStill ?_ ?_⟩ <;> decide +kernel

/-- States and operands for `Obligations.SensorEventsAct`. -/
theorem meets_SensorEventsAct :
    (Still (onSvc (fun v =>
      { v with entrances := put v.entrances 0 { look v.entrances 0 with sensed := .opened } })
      run) ∧ ((look (onSvc (fun v =>
      { v with entrances := put v.entrances 0 { look v.entrances 0 with sensed := .opened } })
      run).svc.entrances 0).sensed = .opened))
    ∧ (Still run ∧ ((look run.svc.entrances 1).sensed ≠ .opened ∧ (look run.control.cfg.entrances
      1).auditorium = none))
    ∧ (Still (houseIn .sealed run) ∧ ((look run.control.cfg.entrances 0).auditorium = some .one ∧
      ((houseIn .sealed run).svc.houses.get .one).state = .sealed))
    ∧ (Still (onSvc (fun v =>
      { v with entrances := put v.entrances 0 { look v.entrances 0 with sensed := .opened } })
      (houseIn .closing run)) ∧ ((look (onSvc (fun v =>
      { v with entrances := put v.entrances 0 { look v.entrances 0 with sensed := .opened } })
      (houseIn .closing run)).svc.entrances 0).sensed ≠ .closed ∧ notClosed run.env .one (after
      (.entranceSensorEvent 0 false) (onSvc (fun v =>
      { v with entrances := put v.entrances 0 { look v.entrances 0 with sensed := .opened } })
      (houseIn .closing run))).svc = [])) := by
  refine ⟨meetsStill ?_ ?_, meetsStill ?_ ?_, meetsStill ?_ ?_, meetsStill ?_ ?_⟩ <;> decide +kernel

/-- States and operands for `Obligations.HouseCloseSeals`. -/
theorem meets_HouseCloseSeals :
    (Ready idle ∧ (3 ≠ 1 ∧ 3 ≠ 2 ∧ 1 = audNumber .one ∧ idle.control.running = false))
    ∧ (Ready (houseIn .closing run) ∧ (((houseIn .closing run).svc.houses.get .one).state ≠
      .opened))
    ∧ (Ready run ∧ (run.control.running = true ∧ (run.svc.houses.get .one).state = .opened ∧ (look
      run.control.cfg.entrances 0).auditorium = some .one))
    ∧ (Ready (onChannel 0 (fun c =>
      { c with mode := .standing, active := some { aClip .speaking with standing := true } }) run)
      ∧ ((look (onChannel 0 (fun c =>
      { c with mode := .standing, active := some { aClip .speaking with standing := true } })
      run).svc.channels 0).active = some { aClip .speaking with standing := true } ∧ (aClip
      .speaking).state = .speaking))
    ∧ (Ready (onChannel 0 (fun c =>
      { c with mode := .standing, active := some { aClip .waitingFill with standing := true } })
      run) ∧ ((aClip .waitingFill).state ≠ .speaking)) := by
  refine ⟨meets ?_ ?_, meets ?_ ?_, meets ?_ ?_, meets ?_ ?_, meets ?_ ?_⟩ <;> decide +kernel

/-- States and operands for `Obligations.HouseOpenOpens`. -/
theorem meets_HouseOpenOpens :
    (Ready run ∧ (3 ≠ 1 ∧ 3 ≠ 2 ∧ (run.svc.houses.get .one).state = .opened))
    ∧ (Ready (houseIn .admitting run) ∧ (((houseIn .admitting run).svc.houses.get .one).state =
      .admitting ∧ ((houseIn .admitting run).svc.houses.get .one).record = some aWindow))
    ∧ (Ready (houseIn .closing run) ∧ (((houseIn .closing run).svc.houses.get .one).state =
      .closing ∧ ((houseIn .closing run).svc.houses.get .one).record = some aWindow)) := by
  refine ⟨meets ?_ ?_, meets ?_ ?_, meets ?_ ?_⟩ <;> decide +kernel

/-- States and operands for `Obligations.AdmitOpenOpensAWindow`. -/
theorem meets_AdmitOpenOpensAWindow :
    (Ready run ∧ ((3 ≠ 1 ∧ 3 ≠ 2) ∧ (4 ≠ 0 ∧ (4 < 5 ∨ 300 < 4)) ∧ (301 ≠ 0 ∧ (301 < 5 ∨ 300 <
      301)) ∧ (run.svc.houses.get .one).state = .opened))
    ∧ (Ready (houseIn .sealed run) ∧ ((5 ≤ 5 ∧ 5 ≤ 300) ∧ ((houseIn .sealed run).svc.houses.get
      .one).state = .sealed))
    ∧ (Ready (houseIn .closing run) ∧ ((300 ≤ 300) ∧ ((houseIn .closing run).svc.houses.get
      .one).state = .closing))
    ∧ (Ready (houseIn .admitting run) ∧ (((houseIn .admitting run).svc.houses.get .one).state =
      .admitting ∧ lobbyZones run.env .one ≠ [])) := by
  refine ⟨meets ?_ ?_, meets ?_ ?_, meets ?_ ?_, meets ?_ ?_⟩ <;> decide +kernel

/-- States and operands for `Obligations.WindowsClose`. -/
theorem meets_WindowsClose :
    (Ready run ∧ (3 ≠ 1 ∧ 3 ≠ 2 ∧ (run.svc.houses.get .one).state ≠ .admitting))
    ∧ (Ready (houseIn .admitting run) ∧ (((houseIn .admitting run).svc.houses.get .one).state =
      .admitting ∧ notClosed run.env .one run.svc = [0] ∧ ((houseIn .admitting run).svc.houses.get
      .one).windowLeft ≠ some 0))
    ∧ (Still (onHouse (fun h => { h with windowLeft := some 0 }) (houseIn .admitting run)) ∧
      (((onHouse (fun h => { h with windowLeft := some 0 }) (houseIn .admitting
      run)).svc.houses.get .one).windowLeft = some 0))
    ∧ (Ready (onSvc (fun v =>
      { v with entrances := put v.entrances 0 { look v.entrances 0 with sensed := .closed } })
      (houseIn .admitting run)) ∧ (notClosed run.env .one (onSvc (fun v =>
      { v with entrances := put v.entrances 0 { look v.entrances 0 with sensed := .closed } })
      run).svc = []))
    ∧ (Still (houseIn .closing run) ∧ (((houseIn .closing run).svc.houses.get .one).state =
      .closing ∧ notClosed run.env .one (houseIn .closing run).svc ≠ [])) := by
  refine ⟨meets ?_ ?_, meets ?_ ?_, meetsStill ?_ ?_, meets ?_ ?_, meetsStill ?_ ?_⟩ <;> decide +kernel

/-- States and operands for `Obligations.EntranceClearEmptiesTheLatch`. -/
theorem meets_EntranceClearEmptiesTheLatch :
    (Ready run ∧ (11 < 12 ∧ 12 ≠ 255 ∧ (11 : EntranceId).val = 11)) := by
  refine meets ?_ ?_ <;> decide +kernel

/-- States and operands for `Obligations.ConsoleShowsResults`. -/
theorem meets_ConsoleShowsResults :
    (Still run ∧ (run.console.state ≠ .editing))
    ∧ (Still (onConsole .editing [] run) ∧ ((onConsole .editing [] run).console.state = .editing ∧
      65535 < 65536 ∧ (19 : ZoneId).val = 19 ∧ 19 < 20 ∧ (11 : ModuleId).val + 1 = 12 ∧ 12 < 13 ∧
      15 < 16)) := by
  refine ⟨meetsStill ?_ ?_, meetsStill ?_ ?_⟩ <;> decide +kernel

/-- States and operands for `Obligations.ConsoleCommandsAct`. -/
theorem meets_ConsoleCommandsAct :
    (Still (onConsole .editing [] run) ∧ ((onConsole .editing [] run).console.state = .editing ∧
      (look (onConsole .editing [] run).control.cfg.zones 3).kind ≠ .unused ∧ (look (onConsole
      .editing [] run).svc.zones 3).testConsole = none ∧ (look (onConsole .editing []
      run).svc.zones 3).active = none ∧ (look (onConsole .editing [] run).control.cfg.zones
      19).kind = .unused))
    ∧ (Still (onZone 3 (fun z =>
      { z with testConsole := some 1, active := some ⟨0, .test .console⟩ }) (onConsole .editing []
      run)) ∧ ((look (onZone 3 (fun z =>
      { z with testConsole := some 1, active := some ⟨0, .test .console⟩ }) (onConsole .editing []
      run)).svc.zones 3).testConsole.isSome ∧ (look (onZone 3 (fun z =>
      { z with testConsole := some 1, active := some ⟨0, .test .console⟩ }) (onConsole .editing []
      run)).svc.zones 3).carries (.test .console) = true))
    ∧ (Still (onZone 3 (fun z => { z with active := some ⟨7, .override⟩ }) (onConsole .editing []
      run)) ∧ ((Claim.mk 7 .override).who ≠ .test .console))
    ∧ (Still (onConsole .editing [] idle) ∧ ((onConsole .editing [] idle).control.running =
      false))
    ∧ (Still (onConsole .editing [] (onCue (fun c => { c with position := 1 }) run)) ∧ (1 =
      audNumber .one ∧ (run.cue.get .one).firing = none ∧ (run.cue.get .one).waiting = []))
    ∧ (Still (onConsole .editing [] (onCue (fun c =>
      { c with firing := some aFiring, waiting := List.replicate 8 (.advance .line) }) run)) ∧ (8
      ≤ ((onCue (fun c =>
      { c with firing := some aFiring, waiting := List.replicate 8 (.advance .line) })
      run).cue.get .one).waiting.length))
    ∧ (Still (onConsole .editing [] (onCue (fun c =>
      { c with firing := some aFiring, waiting := List.replicate 7 (.advance .line) }) run)) ∧
      (((onCue (fun c =>
      { c with firing := some aFiring, waiting := List.replicate 7 (.advance .line) })
      run).cue.get .one).waiting.length < 8))
    ∧ (Still (onConsole .editing [] (onSup (fun p =>
      { p with pass := some { asker := .console, module_ := 0, word := 0, value := none } }) run))
      ∧ ((onSup (fun p =>
      { p with pass := some { asker := .console, module_ := 0, word := 0, value := none } })
      run).sup.pass.isSome ∧ 15 ≤ 15))
    ∧ (Still (onConsole .editing [] (onSup (fun p => { p with bus := some (aRead 0) }) run)) ∧
      ((onSup (fun p => { p with bus := some (aRead 0) }) run).sup.pass = none ∧ (onSup (fun p =>
      { p with bus := some (aRead 0) }) run).sup.bus.isSome))
    ∧ (Still (onSup (fun p =>
      { p with bus := some { user := .passThrough, module_ := 0, word := 3, value := none }, pass := some { asker := .console, module_ := 0, word := 3, value := none } })
      run) ∧ ((onSup (fun p =>
      { p with bus := some { user := .passThrough, module_ := 0, word := 3, value := none }, pass := some { asker := .console, module_ := 0, word := 3, value := none } })
      run).sup.bus.isSome ∧ (onSup (fun p =>
      { p with bus := some { user := .passThrough, module_ := 0, word := 3, value := none }, pass := some { asker := .console, module_ := 0, word := 3, value := none } })
      run).sup.pass.isSome))
    ∧ (Still (onSup (fun p =>
      { p with bus := some { user := .passThrough, module_ := 0, word := 15, value := none }, pass := some { asker := .console, module_ := 0, word := 15, value := none } })
      run) ∧ (15 ≠ 3 ∧ (onSup (fun p =>
      { p with bus := some { user := .passThrough, module_ := 0, word := 15, value := none }, pass := some { asker := .console, module_ := 0, word := 15, value := none } })
      run).sup.bus.isSome))
    ∧ (9 < 10 ∧ 10 ≤ 10) := by
  refine ⟨meetsStill ?_ ?_, meetsStill ?_ ?_, meetsStill ?_ ?_, meetsStill ?_ ?_, meetsStill ?_
    ?_, meetsStill ?_ ?_, meetsStill ?_ ?_, meetsStill ?_ ?_, meetsStill ?_ ?_, meetsStill ?_ ?_,
    meetsStill ?_ ?_, ?_⟩ <;> decide +kernel

/-- States and operands for `Obligations.ConsoleTakesCharacters`. -/
theorem meets_ConsoleTakesCharacters :
    (Still run ∧ (run.console.state = .silent ∧ run.pins.consoleStop = true))
    ∧ (Still (onConsole .comment [] { run with pins := { run.pins with consoleStop := false } }) ∧
      ((onConsole .comment [] run).console.state ≠ .silent))
    ∧ (Spells [0x74, 0x20, 0x20, 0x31, 0x39, 0x20, 0x31] (.test 19 true) ∧ Spells [0x7A, 0x20,
      0x36, 0x35, 0x35, 0x33, 0x35] (.zone 65535) ∧ parseLine [0x7A, 0x20, 0x36, 0x35, 0x35, 0x33,
      0x36] = none)
    ∧ (Still { run with pins := { run.pins with consoleStop := false } } ∧
      (({ run with pins := { run.pins with consoleStop := false } } : State).pins.consoleStop =
      false))
    ∧ (Still (onConsole .waking [] run) ∧ ((onConsole .waking [] run).console.state = .waking))
    ∧ (Still (onConsole .executing [] run) ∧ ((onConsole .executing [] run).console.state =
      .executing))
    ∧ (Still (onConsole .comment [] run) ∧ ((onConsole .comment [] run).console.state = .comment))
    ∧ (Still (onConsole .editing [] run) ∧ ((onConsole .editing [] run).console.line = [] ∧ 0x20 ≤
      (0x20 : Byte).toNat ∧ (0x7E : Byte).toNat ≤ 0x7E ∧ 0x7F < (0x80 : Byte).toNat ∧ (0x1F :
      Byte).toNat < 0x20))
    ∧ (Still (onConsole .editing (List.replicate 40 0x61) run) ∧ ((List.replicate 40 (0x61 :
      Byte)).length = 40))
    ∧ (Still (onConsole .editing (List.replicate 39 0x61) run) ∧ (parseLine (List.replicate 39
      0x61) = none))
    ∧ (Still (onConsole .editing [0x73] run) ∧ (parseLine [0x73] = some .status)) := by
  refine ⟨meetsStill ?_ ?_, meetsStill ?_ ?_, test_spells, meetsStill ?_ ?_, meetsStill ?_ ?_,
    meetsStill ?_ ?_, meetsStill ?_ ?_, meetsStill ?_ ?_, meetsStill ?_ ?_, meetsStill ?_ ?_,
    meetsStill ?_ ?_⟩ <;> decide +kernel

/-- A part that holds eight blocks of a stream and waits for a FEED of it. -/
def feeding : State :=
  { onSlot 0 (aSlot .loading 8 2) (onSvc (fun v => { v with free := 4088 }) run) with
    pending := [.feed 7 0 1 128 (Vector.replicate 128 0)] }

/-- A part with a full cue list and console line that waits for a cue entry and a character. -/
def editing : State :=
  { onCue (fun c => { c with list := (List.range 64).map (fun n => { number := n + 1, actions := [.mark] }) })
      (onConsole .editing (List.replicate 40 0x61) run) with
    pending := [.cueWrite 7 1 65 [some .mark], .consoleCharacter 0x61 false] }

/-- A state and a step for the second clause of `Obligations.StepsGoOnAndLeaveTheQueue`. -/
theorem meets_StepsGoOnAndLeaveTheQueue : ∃ t, exec (.ident 7) run = .next t := ⟨_, rfl⟩

/-- A state and a step for `Obligations.StepsKeepThePool`. -/
theorem meets_StepsKeepThePool : PoolRight feeding.svc ∧ ∃ t, step feeding = .next t :=
  ⟨⟨by decide +kernel, by decide +kernel, by decide +kernel⟩, _, rfl⟩

/-- A state and a step for `Obligations.StepsKeepTheBounds`. -/
theorem meets_StepsKeepTheBounds :
    (Bounded feeding.svc ∧ ∃ t, step feeding = .next t)
    ∧ (Lengths editing.cue editing.console ∧ ∃ t, step editing = .next t) :=
  ⟨⟨⟨by decide +kernel, by decide +kernel, by decide +kernel, by decide +kernel, by decide +kernel,
      by decide +kernel, by decide +kernel⟩, _, rfl⟩,
    ⟨fun a => by cases a <;> decide +kernel, fun a => by cases a <;> decide +kernel,
      fun a => by cases a <;> decide +kernel, fun a => by cases a <;> decide +kernel, by decide +kernel⟩,
    _, rfl⟩

/-- A state with a closed house and a step for `Obligations.StepsKeepTheLamps`. -/
theorem meets_StepsKeepTheLamps :
    LampsRight (after (.houseClose 7 1 (some true)) run)
      ∧ ∃ t, step (after (.houseClose 7 1 (some true)) run) = .next t :=
  ⟨⟨by decide +kernel, fun h => absurd h (by decide +kernel), fun h => absurd h (by decide +kernel),
    fun h => absurd h (by decide +kernel)⟩, _, rfl⟩

/-- A state and a step for `Obligations.StepsKeepTheMemory`. -/
theorem meets_StepsKeepTheMemory :
    Memory.wf [(3, (0 : Byte)), (16, 1)] = true ∧ ∃ t, step feeding = .next t := ⟨by decide, _, rfl⟩

/-- Records at both ends of their ranges for `Obligations.RecordsReadBack`. -/
theorem meets_RecordsReadBack :
    (indexTakes 19 (.zone { look demoCfg.zones 0 with modules := [0, 11], windowHigh := 65535 }) = true
      ∧ recordLegal (.zone { look demoCfg.zones 0 with modules := [0, 11], windowHigh := 65535 }) = true
      ∧ ascending (.zone { look demoCfg.zones 0 with modules := [0, 11], windowHigh := 65535 }))
    ∧ (indexTakes 31 (.entrance { EntranceConfig.default with adjacent := [0, 1, 18, 19] }) = true
      ∧ recordLegal (.entrance { EntranceConfig.default with adjacent := [0, 1, 18, 19] }) = true
      ∧ ascending (.entrance { EntranceConfig.default with adjacent := [0, 1, 18, 19] }))
    ∧ (indexTakes 39 (.link { silence := 60, enables := 0x0FFF }) = true
      ∧ recordLegal (.link { silence := 60, enables := 0x0FFF }) = true
      ∧ ascending (.link { silence := 60, enables := 0x0FFF })) :=
  ⟨⟨by decide +kernel, by decide +kernel, by unfold ascending; decide⟩,
    ⟨by decide +kernel, by decide +kernel, by unfold ascending; decide⟩,
    ⟨by decide +kernel, by decide +kernel, trivial⟩⟩

end Sys2Proof.Tests
end

section
/-! PROOFS. CUE-SET, CUE-WRITE and CUE-ERASE (R56, R57, R60-R62): what each request's work does, one
equation per case, and the two statements that rest on them. -/

namespace Sys2Proof.Proofs.Cues

open Sys2Proof.Machine Sys2Proof.Laws

/-! ## Requests that are answered or kept waiting at once -/

/-- A request whose owner's work sends no report and owes no walk ends with what that work gives. -/
theorem request_eq_of_work {s u : State} (h : Ready s) {tag : Byte} {kind : RequestKind}
    {w : State → State} (hw : w (taken tag kind s) = u)
    (hr : u.svc.reports = s.svc.reports := by rfl)
    (hd : u.svc.walkDue = s.svc.walkDue := by rfl) : request tag kind w s = .next u := by
  subst hw
  exact request_quiet h tag kind w (hr.trans h.reports) (hd.trans h.walk)

/-! ## The number of an auditorium -/

@[simp] theorem audOf_audNumber (a : Aud) : audOf (audNumber a) = some a := by cases a <;> rfl

theorem audOf_eq_none {n : Nat} (h1 : n ≠ 1) (h2 : n ≠ 2) : audOf n = none := by
  unfold audOf
  split
  · contradiction
  · contradiction
  · rfl

theorem audOf_cases (n : Nat) : audOf n = none ∨ ∃ a, n = audNumber a := by
  by_cases h1 : n = 1
  · exact .inr ⟨.one, h1⟩
  · by_cases h2 : n = 2
    · exact .inr ⟨.two, h2⟩
    · exact .inl (audOf_eq_none h1 h2)

/-! ## Advances and jumps that arrive (R57) -/

section arrive

variable {a : Aud} {s : State} (w : WaitingCue)

theorem arriveCue_free (hf : (s.cue.get a).firing = none) (hw : (s.cue.get a).waiting = []) :
    arriveCue a w s = takeCue a w s := by
  simp [arriveCue, hf, hw]

theorem arriveCue_full (busy : (s.cue.get a).firing.isSome ∨ (s.cue.get a).waiting ≠ [])
    (full : 8 ≤ (s.cue.get a).waiting.length) : arriveCue a w s = refuseCue w .full s := by
  simp [arriveCue, busy, full]

theorem arriveCue_waits (busy : (s.cue.get a).firing.isSome ∨ (s.cue.get a).waiting ≠ [])
    (room : (s.cue.get a).waiting.length < 8) :
    arriveCue a w s = s.updCue a (fun c => { c with waiting := c.waiting ++ [w] }) := by
  simp [arriveCue, busy, Nat.not_le.2 room]

end arrive

/-! ## CUE-SET (R56) -/

section cueSet

variable (tag : Byte) {n p : Nat} {a : Aud} {s : State}

theorem workCueSet_other (h : audOf n = none) :
    workCueSet tag n p s = s.reply tag .cueSet (.refuse .range) := by
  simp [workCueSet, h]

theorem workCueSet_config (hp : p ≤ 65535) (h : s.control.running = false) :
    workCueSet tag (audNumber a) p s = s.reply tag .cueSet (.refuse .state) := by
  simp [workCueSet, h, Nat.not_lt.2 hp]

theorem workCueSet_run (hp : p ≤ 65535) (h : s.control.running = true) :
    workCueSet tag (audNumber a) p s = arriveCue a (.jump tag p) s := by
  simp [workCueSet, h, Nat.not_lt.2 hp]

/-- R56: a jump sets the position, appends its capture record and answers; it fires nothing. -/
theorem takeJump_eq (a : Aud) (p : Nat) (s : State) :
    takeJump a tag p s = answered tag .cueSet .ok (u16 p ++ u8 (skipped (s.cue.get a) p))
      { s with
        cue := s.cue.set a
          { s.cue.get a with
            position := p
            log := captured { position := p, clock := (s.cue.get a).clock, origin := .jump }
              (s.cue.get a).log } } := rfl

end cueSet

/-- Settles O31: each case is the equation of `workCueSet` for it, then that of `arriveCue`. -/
theorem cueSetJumps : Obligations.CueSetJumps := by
  unfold Obligations.CueSetJumps
  intro tag n p s h
  have arrives (a : Aud) (hp : p ≤ 65535) (hrun : s.control.running = true) :
      workCueSet tag (audNumber a) p (taken tag .cueSet s)
        = arriveCue a (.jump tag p) (taken tag .cueSet s) := workCueSet_run tag hp hrun
  refine ⟨fun h1 h2 => ?other, ?config, ?jump, ?busy⟩
  case other => exact request_eq_of_work h (workCueSet_other tag (audOf_eq_none h1 h2))
  case config =>
    rintro a rfl hp hrun
    exact request_eq_of_work h (workCueSet_config tag hp hrun)
  case jump =>
    rintro a rfl hp hrun hf hw
    have jumps := (arrives a hp hrun).trans (arriveCue_free _ hf hw)
    exact request_eq_of_work h (jumps.trans (takeJump_eq tag a p _))
  case busy =>
    rintro a rfl hp hrun busy
    have arrived := arrives a hp hrun
    exact ⟨fun full => request_eq_of_work h (arrived.trans (arriveCue_full _ busy full)),
      fun room => request_eq_of_work h (arrived.trans (arriveCue_waits _ busy room))⟩

/-! ## CUE-WRITE (R60, R61) -/

theorem knownActions_eq_none {acts : List (Option CueAction)} (h : none ∈ acts) :
    knownActions acts = none := by
  induction acts with
  | nil => cases h
  | cons x rest ih =>
    cases x with
    | none => rfl
    | some x =>
      have hrest : none ∈ rest := by simpa using h
      simp [knownActions, ih hrest]

@[simp] theorem knownActions_map_some (xs : List CueAction) :
    knownActions (xs.map some) = some xs := by
  induction xs with
  | nil => rfl
  | cons x rest ih => simp [knownActions, ih]

/-- A list of actions holds an unknown one, or each is known. -/
theorem actions_cases (acts : List (Option CueAction)) :
    none ∈ acts ∨ ∃ xs : List CueAction, acts = xs.map some := by
  induction acts with
  | nil => exact .inr ⟨[], rfl⟩
  | cons x rest ih =>
    cases x with
    | none => exact .inl List.mem_cons_self
    | some x =>
      rcases ih with h | ⟨xs, rfl⟩
      · exact .inl (List.mem_cons_of_mem _ h)
      · exact .inr ⟨x :: xs, rfl⟩

theorem between_iff {lo hi n : Nat} : between lo hi n = true ↔ lo ≤ n ∧ n ≤ hi := by
  simp [between]

/-- R60: the operands of a CUE-WRITE whose actions are known pass the RANGE checks. -/
structure WriteInRange (s : State) (a : Aud) (c : Nat) (xs : List CueAction) : Prop where
  number : 1 ≤ c ∧ c ≤ 65535
  count : 1 ≤ xs.length ∧ xs.length ≤ 4
  legal : ∀ x ∈ xs, actionLegal s a x = true

section cueWriteCheck

variable {s : State} {a : Aud} {n c : Nat} {xs : List CueAction}

theorem cueWriteCheck_other (acts : List (Option CueAction)) (h : audOf n = none) :
    cueWriteCheck s n c acts = .error .range := by
  simp [cueWriteCheck, h]

theorem cueWriteCheck_unknown {acts : List (Option CueAction)} (h : none ∈ acts) :
    cueWriteCheck s n c acts = .error .range := by
  simp [cueWriteCheck, knownActions_eq_none h]

/-- The checks of known actions for an auditorium: RANGE first, then FULL. -/
theorem cueWriteCheck_known : cueWriteCheck s (audNumber a) c (xs.map some) =
    if !between 1 65535 c then .error .range
    else if !between 1 4 xs.length then .error .range
    else if !xs.all (actionLegal s a) then .error .range
    else if 64 ≤ (s.cue.get a).list.length && !(s.cue.get a).list.any (fun e => e.number == c) then
      .error .full
    else .ok (a, { number := c, actions := xs }) := by
  simp [cueWriteCheck]

theorem cueWriteCheck_illegal (h : ¬ WriteInRange s a c xs) :
    cueWriteCheck s (audNumber a) c (xs.map some) = .error .range := by
  rw [cueWriteCheck_known]
  split_ifs with number count legal full
  · rfl
  · rfl
  · rfl
  all_goals
    refine absurd ⟨?_, ?_, ?_⟩ h
    · simpa only [Bool.not_eq_true', Bool.not_eq_false, between_iff] using number
    · simpa only [Bool.not_eq_true', Bool.not_eq_false, between_iff] using count
    · simpa using legal

theorem cueWriteCheck_legal (h : WriteInRange s a c xs) :
    cueWriteCheck s (audNumber a) c (xs.map some) =
      if 64 ≤ (s.cue.get a).list.length && !(s.cue.get a).list.any (fun e => e.number == c) then
        .error .full
      else .ok (a, { number := c, actions := xs }) := by
  have number : between 1 65535 c = true := between_iff.2 h.number
  have count : between 1 4 xs.length = true := between_iff.2 h.count
  have legal : xs.all (actionLegal s a) = true := by simpa using h.legal
  simp [cueWriteCheck_known, number, count, legal]

theorem cueWriteCheck_full (h : WriteInRange s a c xs) (full : 64 ≤ (s.cue.get a).list.length)
    (new : ∀ e ∈ (s.cue.get a).list, e.number ≠ c) :
    cueWriteCheck s (audNumber a) c (xs.map some) = .error .full := by
  have hnew : (s.cue.get a).list.any (fun e => e.number == c) = false := by simpa using new
  simp [cueWriteCheck_legal h, full, hnew]

theorem cueWriteCheck_ok (h : WriteInRange s a c xs)
    (room : (s.cue.get a).list.length < 64 ∨ ∃ e ∈ (s.cue.get a).list, e.number = c) :
    cueWriteCheck s (audNumber a) c (xs.map some) = .ok (a, { number := c, actions := xs }) := by
  rw [cueWriteCheck_legal h, if_neg]
  rcases room with room | old
  · simp [Nat.not_le.2 room]
  · have hold : (s.cue.get a).list.any (fun e => e.number == c) = true := by simpa using old
    simp [hold]

end cueWriteCheck

/-- R60: the first refusal of an unknown auditorium, of unknown actions and of operands out of range
is RANGE. -/
theorem cueWriteCheck_range {s : State} {n c : Nat} {acts : List (Option CueAction)}
    (h : (n ≠ 1 ∧ n ≠ 2) ∨ c = 0 ∨ 65535 < c ∨ acts = [] ∨ 4 < acts.length ∨ none ∈ acts
      ∨ ∃ a x, n = audNumber a ∧ some x ∈ acts ∧ actionLegal s a x = false) :
    cueWriteCheck s n c acts = .error .range := by
  rcases audOf_cases n with other | ⟨a, rfl⟩
  · exact cueWriteCheck_other acts other
  rcases actions_cases acts with unknown | ⟨xs, rfl⟩
  · exact cueWriteCheck_unknown unknown
  refine cueWriteCheck_illegal fun ⟨number, count, legal⟩ => ?_
  rcases h with ⟨h1, h2⟩ | h | h | h | h | h | ⟨b, x, hb, hx, h⟩
  · simpa [audOf_eq_none h1 h2] using audOf_audNumber a
  · omega
  · omega
  · simp [List.map_eq_nil_iff.1 h] at count
  · rw [List.length_map] at h
    omega
  · simp at h
  · obtain rfl : a = b := by
      have := congrArg audOf hb
      simpa using this
    have hx : x ∈ xs := by simpa using hx
    simp [legal x hx] at h

section workCueWrite

variable (tag : Byte) {s : State} {n c : Nat} {acts : List (Option CueAction)}

theorem workCueWrite_error {st : Status} (h : cueWriteCheck s n c acts = .error st) :
    workCueWrite tag n c acts s = answered tag .cueWrite st [] s := by
  simp only [workCueWrite, h, refuse_eq]

theorem workCueWrite_ok {a : Aud} {e : CueEntry} (h : cueWriteCheck s n c acts = .ok (a, e)) :
    workCueWrite tag n c acts s
      = answered tag .cueWrite .ok (u8 (insertEntry e (s.cue.get a).list).length)
        { s with
          cue := s.cue.set a
            { s.cue.get a with list := insertEntry e (s.cue.get a).list } } := by
  simp only [workCueWrite, h]
  rfl

end workCueWrite

/-- R61: the entries of an ascending list after a write: the new one, and the others as they were. -/
theorem mem_insertEntry_iff (e x : CueEntry) {l : List CueEntry}
    (sorted : l.Pairwise (fun x y => x.number < y.number)) :
    x ∈ insertEntry e l ↔ x = e ∨ (x ∈ l ∧ x.number ≠ e.number) := by
  induction l with
  | nil => simp [insertEntry]
  | cons y rest ih =>
    obtain ⟨hy, hrest⟩ := List.pairwise_cons.1 sorted
    unfold insertEntry
    split_ifs with before same
    · have hne : x = y → x.number ≠ e.number := by rintro rfl; omega
      simp only [List.mem_cons, ih hrest]
      tauto
    · have hrest' : x ∈ rest → x.number ≠ e.number := fun hx => by
        have := hy x hx
        omega
      have hgone : x = y → x.number = e.number := by rintro rfl; exact same
      simp only [List.mem_cons]
      tauto
    · have hall : x ∈ y :: rest → x.number ≠ e.number := fun hx => by
        rcases List.mem_cons.1 hx with rfl | hx
        · omega
        · have := hy x hx
          omega
      rw [List.mem_cons]
      tauto

/-! ## CUE-ERASE (R62) -/

section workCueErase

variable (tag : Byte) {n c : Nat} {a : Aud} {s : State}

theorem workCueErase_other (h : audOf n = none) :
    workCueErase tag n c s = s.reply tag .cueErase (.refuse .range) := by
  simp [workCueErase, h]

theorem workCueErase_absent (hc : c ≠ 0) (h : ∀ e ∈ (s.cue.get a).list, e.number ≠ c) :
    workCueErase tag (audNumber a) c s = s.reply tag .cueErase (.refuse .absent) := by
  have hnone : (s.cue.get a).list.any (fun e => e.number == c) = false := by simpa using h
  simp [workCueErase, hc, hnone]

theorem workCueErase_one (hc : c ≠ 0) (h : ∃ e ∈ (s.cue.get a).list, e.number = c) :
    workCueErase tag (audNumber a) c s
      = answered tag .cueErase .ok
        (u8 ((s.cue.get a).list.filter (fun e => e.number != c)).length)
        { s with
          cue := s.cue.set a
            { s.cue.get a with list := (s.cue.get a).list.filter (fun e => e.number != c) } } := by
  have hsome : (s.cue.get a).list.any (fun e => e.number == c) = true := by simpa using h
  simp only [workCueErase, audOf_audNumber, hc, hsome, Bool.not_true, Bool.false_eq_true, and_false,
    if_false]
  rfl

theorem workCueErase_all : workCueErase tag (audNumber a) 0 s
    = answered tag .cueErase .ok [0x00]
      { s with cue := s.cue.set a { s.cue.get a with list := [] } } := by
  simp only [workCueErase, audOf_audNumber]
  rfl

end workCueErase

/-! ## The cue list is edited -/

section edited

variable (tag : Byte) {n c : Nat} {acts : List (Option CueAction)} {s : State} (h : Ready s)
include h

theorem exec_cueWrite_error {st : Status}
    (hc : cueWriteCheck (taken tag .cueWrite s) n c acts = .error st) :
    exec (.cueWrite tag n c acts) s
      = .next (answered tag .cueWrite st [] (taken tag .cueWrite s)) :=
  request_eq_of_work h (workCueWrite_error tag hc)

theorem exec_cueWrite_ok {a : Aud} {e : CueEntry}
    (hc : cueWriteCheck (taken tag .cueWrite s) n c acts = .ok (a, e)) :
    exec (.cueWrite tag n c acts) s
      = .next (answered tag .cueWrite .ok (u8 (insertEntry e (s.cue.get a).list).length)
        { taken tag .cueWrite s with
          cue := s.cue.set a { s.cue.get a with list := insertEntry e (s.cue.get a).list } }) :=
  request_eq_of_work h (workCueWrite_ok tag hc)

end edited

/-- Settles O32: the checks of CUE-WRITE give RANGE, FULL or the entry, which `insertEntry` puts in
its place; CUE-ERASE has one equation per case. -/
theorem cueListIsEdited : Obligations.CueListIsEdited := by
  unfold Obligations.CueListIsEdited
  refine ⟨fun tag n c acts s h => ⟨fun bad => ?range, ?known⟩,
    fun tag n c s h => ⟨fun h1 h2 => ?other, ?absent, ?one, ?all⟩⟩
  case range => exact exec_cueWrite_error tag h (cueWriteCheck_range bad)
  case known =>
    rintro a xs rfl rfl c1 c2 l1 l2 legal
    have inRange : WriteInRange (taken tag .cueWrite s) a c xs := ⟨⟨c1, c2⟩, ⟨l1, l2⟩, legal⟩
    refine ⟨fun full new => exec_cueWrite_error tag h (cueWriteCheck_full inRange full new),
      fun room => ⟨insertEntry { number := c, actions := xs } (s.cue.get a).list,
        exec_cueWrite_ok tag h (cueWriteCheck_ok inRange room), fun sorted => ⟨?_, fun e => ?_⟩⟩⟩
    · exact Lengths.insertEntry_ascending _ _ sorted
    · exact mem_insertEntry_iff _ e sorted
  case other => exact request_eq_of_work h (workCueErase_other tag (audOf_eq_none h1 h2))
  case absent =>
    rintro a rfl hc missing
    exact request_eq_of_work h (workCueErase_absent tag hc missing)
  case one =>
    rintro a rfl hc found
    exact request_eq_of_work h (workCueErase_one tag hc found)
  case all =>
    rintro a rfl rfl
    exact request_eq_of_work h (workCueErase_all tag)

end Sys2Proof.Proofs.Cues
end

section
/-! PROOFS. FEED (R86, R87): the first check that refuses it, one equation per check, and the block an
accepted one takes into its slot. -/

namespace Sys2Proof.Proofs.Streams

open Sys2Proof.Machine Sys2Proof.Laws Sys2Proof.Proofs.Cues

/-! ## The number of a slot -/

@[simp] theorem slotOf_val (i : SlotId) : slotOf i.val = some i := dif_pos i.isLt

theorem slotOf_cases (n : Nat) : slotOf n = none ∨ ∃ i : SlotId, n = i.val := by
  by_cases h : n < 10
  · exact .inr ⟨⟨n, h⟩, rfl⟩
  · exact .inl (dif_neg h)

/-! ## The checks of a FEED, in order (R86) -/

theorem feedRefusal_range (sv : Services) (i : SlotId) (o : Nat) {f : Nat} (h : f = 0 ∨ 128 < f) :
    feedRefusal sv i o f = some .range := by
  have bad : between 1 128 f = false := by
    rw [← Bool.not_eq_true, between_iff]
    omega
  simp [feedRefusal, bad]

section checks

variable {sv : Services} {i : SlotId} {o f : Nat} (fill : 1 ≤ f ∧ f ≤ 128)
include fill

theorem feedRefusal_state (h : (look sv.slots i).state = .idle ∨ (look sv.slots i).toReceive = 0) :
    feedRefusal sv i o f = some .state := by
  simp [feedRefusal, between_iff.2 fill, h]

variable (live : (look sv.slots i).state ≠ .idle) (due : (look sv.slots i).toReceive ≠ 0)
include live due

/-- The checks left for a slot that is live and has blocks to receive. -/
theorem feedRefusal_live : feedRefusal sv i o f =
    if (look sv.slots i).owner ≠ some o then some .conflict
    else if 1024 ≤ (look sv.slots i).held.length then some .full
    else if f ≠ 128 ∧ (look sv.slots i).toReceive ≠ 1 then some .length
    else if min 32 (look sv.slots i).length ≤ (look sv.slots i).held.length
        ∧ sv.free < reserveOfOthers sv.slots i + 1 then some .pool
    else none := by
  simp only [feedRefusal, between_iff.2 fill, live, due, Bool.not_true, Bool.false_eq_true, or_self,
    if_false]
  rfl

theorem feedRefusal_conflict (h : (look sv.slots i).owner ≠ some o) :
    feedRefusal sv i o f = some .conflict := by
  rw [feedRefusal_live fill live due, if_pos h]

variable (own : (look sv.slots i).owner = some o)
include own

theorem feedRefusal_full (h : 1024 ≤ (look sv.slots i).held.length) :
    feedRefusal sv i o f = some .full := by
  rw [feedRefusal_live fill live due, if_neg (not_not.2 own), if_pos h]

variable (room : (look sv.slots i).held.length < 1024)
include room

theorem feedRefusal_length (h : f ≠ 128) (more : (look sv.slots i).toReceive ≠ 1) :
    feedRefusal sv i o f = some .length := by
  rw [feedRefusal_live fill live due, if_neg (not_not.2 own), if_neg (Nat.not_le.2 room),
    if_pos ⟨h, more⟩]

variable (whole : f = 128 ∨ (look sv.slots i).toReceive = 1)
include whole

/-- The last check: a block beyond the guarantee comes from outside the reserve of the others. -/
theorem feedRefusal_whole : feedRefusal sv i o f =
    if min 32 (look sv.slots i).length ≤ (look sv.slots i).held.length
        ∧ sv.free < reserveOfOthers sv.slots i + 1 then some .pool
    else none := by
  have notShort : ¬ (f ≠ 128 ∧ (look sv.slots i).toReceive ≠ 1) := by tauto
  rw [feedRefusal_live fill live due, if_neg (not_not.2 own), if_neg (Nat.not_le.2 room),
    if_neg notShort]

theorem feedRefusal_pool (beyond : min 32 (look sv.slots i).length ≤ (look sv.slots i).held.length)
    (h : sv.free < reserveOfOthers sv.slots i + 1) : feedRefusal sv i o f = some .pool := by
  rw [feedRefusal_whole fill live due own room whole, if_pos ⟨beyond, h⟩]

theorem feedRefusal_none (h : (look sv.slots i).held.length < min 32 (look sv.slots i).length
    ∨ reserveOfOthers sv.slots i < sv.free) : feedRefusal sv i o f = none := by
  rw [feedRefusal_whole fill live due own room whole, if_neg]
  omega

end checks

/-! ## The block taken (R87) -/

/-- R89: a FEED does not make its slot begin to want feed. -/
theorem wants_of_feed_wants {sl : Slot} {f : Nat} {b : Block} (h : (sl.feed f b).wants = true) :
    sl.wants = true := by
  simp only [Slot.wants, Slot.feed, Bool.and_eq_true, Bool.or_eq_true, beq_iff_eq,
    decide_eq_true_eq, List.length_append, List.length_singleton] at h ⊢
  obtain ⟨⟨state, due⟩, low⟩ := h
  refine ⟨⟨?_, (of_decide_eq_true due).trans_le (Nat.sub_le _ _)⟩, Nat.lt_of_succ_lt low⟩
  by_cases starved : sl.state = .starved
  · exact .inr starved
  · simpa [starved] using state

/-- R89: a slot that does not begin to want feed is put without a notice. -/
theorem putSlot_of_wants (env : Env) {i : SlotId} {sl : Slot} {sv : Services}
    (h : sl.wants = true → (look sv.slots i).wants = true) :
    putSlot env i sl sv = { sv with slots := put sv.slots i sl } := by
  unfold putSlot
  refine if_neg ?_
  simpa using h

/-- R87: what an accepted FEED changes in the services. -/
theorem takeFeed_eq (env : Env) (i : SlotId) (f : Nat) (b : Block) (sv : Services) :
    takeFeed env i f b sv =
      { sv with
        slots := put sv.slots i ((look sv.slots i).feed f b), free := sv.free - 1
        reports := sv.reports
          ++ if (look sv.slots i).state = .loading
              ∧ (look sv.slots i).held.length + 1 = min 8 (look sv.slots i).length
            then [.prefillReached i] else [] } := by
  have noNotice := putSlot_of_wants env (i := i) (sl := (look sv.slots i).feed f b)
    (sv := { sv with free := sv.free - 1 }) wants_of_feed_wants
  simp only [takeFeed, noNotice, Slot.prefill]
  split_ifs
  · rfl
  · simp

/-! ## The request -/

section workFeed

variable (tag : Byte) {n o f : Nat} {i : SlotId} (b : Block) {s : State}

theorem workFeed_other (h : slotOf n = none) :
    workFeed tag n o f b s = answered tag .feed .range [] s := by
  simp only [workFeed, answerWith, feedSlot, h, refuse_eq]

theorem workFeed_refused {st : Status} (h : feedRefusal s.svc i o f = some st) :
    workFeed tag i.val o f b s = answered tag .feed st [] s := by
  simp only [workFeed, answerWith, feedSlot, slotOf_val, h, refuse_eq]

theorem workFeed_taken (h : feedRefusal s.svc i o f = none) :
    workFeed tag i.val o f b s = answered tag .feed .ok
      (u16 ((look s.svc.slots i).held.length + 1) ++ u16 ((look s.svc.slots i).toReceive - 1))
      { s with svc := takeFeed s.env i f b s.svc } := by
  simp only [workFeed, answerWith, feedSlot, slotOf_val, h, takeFeed_eq, look_put_self, reply_eq,
    Slot.feed, List.length_append, List.length_singleton]

end workFeed

section request

variable (tag : Byte) {n o f : Nat} {i : SlotId} (b : Block) {s : State} (h : Ready s)
include h

theorem exec_feed_range (bad : 9 < n ∨ f = 0 ∨ 128 < f) :
    exec (.feed tag n o f b) s = .next (answered tag .feed .range [] (taken tag .feed s)) := by
  rcases slotOf_cases n with other | ⟨i, rfl⟩
  · exact request_eq_of_work h (workFeed_other tag b other)
  · have fill : f = 0 ∨ 128 < f := bad.resolve_left (by omega)
    exact request_eq_of_work h (workFeed_refused tag b (feedRefusal_range _ i o fill))

theorem exec_feed_refused {st : Status} (hr : feedRefusal (taken tag .feed s).svc i o f = some st) :
    exec (.feed tag i.val o f b) s = .next (answered tag .feed st [] (taken tag .feed s)) :=
  request_eq_of_work h (workFeed_refused tag b hr)

theorem exec_feed_taken (hr : feedRefusal (taken tag .feed s).svc i o f = none) :
    exec (.feed tag i.val o f b) s = .next (answered tag .feed .ok
      (u16 ((look s.svc.slots i).held.length + 1) ++ u16 ((look s.svc.slots i).toReceive - 1))
      { taken tag .feed s with
        svc := takeFeed s.env i f b (taken tag .feed s).svc }).settled := by
  have work := workFeed_taken tag b hr
  exact (request_ready h tag .feed _).trans (by rw [work]; rfl)

end request

/-- Settles O34: each refusal is the equation of `feedRefusal` for its check; an accepted FEED does
what `takeFeed_eq` says. -/
theorem feedTakesABlock : Obligations.FeedTakesABlock := by
  unfold Obligations.FeedTakesABlock
  intro tag n o f b s h
  refine ⟨exec_feed_range tag b h, ?_⟩
  rintro i rfl f1 f2
  have fill : 1 ≤ f ∧ f ≤ 128 := ⟨f1, f2⟩
  refine ⟨fun closed => exec_feed_refused tag b h (feedRefusal_state fill closed),
    fun live due => ⟨fun other => exec_feed_refused tag b h (feedRefusal_conflict fill live due other),
      fun own full => exec_feed_refused tag b h (feedRefusal_full fill live due own full),
      fun own room short more =>
        exec_feed_refused tag b h (feedRefusal_length fill live due own room short more),
      fun own room whole beyond scarce =>
        exec_feed_refused tag b h (feedRefusal_pool fill live due own room whole beyond scarce),
      fun own room whole spare => ?taken⟩⟩
  case taken =>
    refine ⟨_, exec_feed_taken tag b h (feedRefusal_none fill live due own room whole spare), ?_⟩
    rw [takeFeed_eq]
    refine ⟨rfl, rfl, ?reports, ?reply, rfl, rfl, rfl, rfl, rfl, rfl, rfl⟩
    case reports => exact (congrArg (· ++ _) h.reports).trans (List.nil_append _)
    case reply => simp [answered, Status.code]

end Sys2Proof.Proofs.Streams
end

section
/-! PROOFS. CLIP-ARM (R105) and the load of a head (R106): the first check that refuses it, one
equation per check, and the services an accepted one leaves. -/

namespace Sys2Proof.Proofs.ClipArm

open Sys2Proof.Machine Sys2Proof.Laws Sys2Proof.Proofs.Cues

/-! ## Arming a slot (R85) -/

@[simp] theorem putSlot_slots (env : Env) (i : SlotId) (sl : Slot) (sv : Services) :
    (putSlot env i sl sv).slots = put sv.slots i sl := by
  unfold putSlot
  exact (apply_ite Services.slots _ _ _).trans (ite_self _)

@[simp] theorem putSlot_free (env : Env) (i : SlotId) (sl : Slot) (sv : Services) :
    (putSlot env i sl sv).free = sv.free := by
  unfold putSlot
  exact (apply_ite Services.free _ _ _).trans (ite_self _)

/-- R85: the record of a slot armed for a stream played once. -/
def armedSlot (tag length : Nat) : Slot :=
  { Slot.idle with state := .loading, owner := some tag, length := length, toReceive := length }

/-- R85: arming changes nothing, or puts the armed record. -/
theorem armSlot_cases (env : Env) (i : SlotId) (tag length : Nat) (sv : Services) :
    (∃ st, st ≠ .ok ∧ armSlot env i tag length false sv = (st, sv))
    ∨ armSlot env i tag length false sv = (.ok, putSlot env i (armedSlot tag length) sv) := by
  unfold armSlot
  split_ifs with config busy range long scarce
  · exact .inl ⟨.state, by decide, rfl⟩
  · exact .inl ⟨.state, by decide, rfl⟩
  · exact .inl ⟨.range, by decide, rfl⟩
  · exact .inl ⟨.range, by decide, rfl⟩
  · exact .inl ⟨.pool, by decide, rfl⟩
  · exact .inr rfl

theorem armSlot_ok {env : Env} {i : SlotId} {tag length : Nat} {sv : Services}
    (run : env.run = true) (idle : (look sv.slots i).state = .idle) (known : 1 ≤ tag ∧ tag ≤ 255)
    (long : 1 ≤ length ∧ length ≤ 3750) (room : reserve sv.slots + min 32 length ≤ sv.free) :
    armSlot env i tag length false sv = (.ok, putSlot env i (armedSlot tag length) sv) := by
  simp only [armSlot, run, idle, between_iff.2 known, between_iff.2 long, Nat.not_lt.2 room,
    Bool.and_true, Bool.not_true, Bool.false_and, Bool.false_eq_true, ne_eq, not_true, if_false]
  rfl

/-! ## Loading a head (R106) -/

theorem idle_of_idleSlot {sv : Services} {d : ChannelId} {i : SlotId} (h : idleSlot sv d = some i) :
    (look sv.slots i).state = .idle := by
  simp only [idleSlot] at h
  split_ifs at h with low high
  · cases h
    exact low
  · cases h
    exact high

/-- R106: the services once a slot is armed for a head and recorded as the head's. -/
def headLoaded (env : Env) (d : ChannelId) (i : SlotId) (head : ClipDesc) (sv : Services) :
    Services :=
  putChannel d { look sv.channels d with headSlot := some i, headFilled := false }
    (putSlot env i (armedSlot head.clipId head.length) sv)

section loadHead

variable (env : Env) (d : ChannelId) (sv : Services)

/-- A head that is armed is recorded with its slot. -/
theorem loadHead_armed {head : ClipDesc} {rest : List ClipDesc} {i : SlotId}
    (queue : (look sv.channels d).queue = head :: rest)
    (unloaded : (look sv.channels d).headSlot = none) (slot : idleSlot sv d = some i)
    (run : env.run = true)
    (armed : armSlot env i head.clipId head.length false sv
      = (.ok, putSlot env i (armedSlot head.clipId head.length) sv)) :
    loadHead env d sv = headLoaded env d i head sv := by
  have channels := (onPool_putSlot env i (armedSlot head.clipId head.length) sv).channels
  simp only [loadHead, queue, unloaded, slot, run, armed, channels, headLoaded, if_true]

/-- R106: a try to load a head changes nothing, or loads one. -/
theorem loadHead_cases :
    loadHead env d sv = sv ∨ ∃ i head, loadHead env d sv = headLoaded env d i head sv := by
  cases queue : (look sv.channels d).queue with
  | nil => exact .inl (by simp only [loadHead, queue])
  | cons head rest =>
    cases unloaded : (look sv.channels d).headSlot with
    | some j => exact .inl (by simp only [loadHead, queue, unloaded])
    | none =>
      cases slot : idleSlot sv d with
      | none => exact .inl (by simp only [loadHead, queue, unloaded, slot])
      | some i =>
        cases run : env.run with
        | false =>
          refine .inl ?_
          simp only [loadHead, queue, unloaded, slot, run, Bool.false_eq_true, if_false]
        | true =>
          rcases armSlot_cases env i head.clipId head.length sv with ⟨st, refused, unarmed⟩ | armed
          · refine .inl ?_
            simp only [loadHead, queue, unloaded, slot, run, unarmed, if_true]
          · exact .inr ⟨i, head, loadHead_armed env d sv queue unloaded slot run armed⟩

@[simp] theorem loadHead_free : (loadHead env d sv).free = sv.free := by
  rcases loadHead_cases env d sv with h | ⟨i, head, h⟩
  · rw [h]
  · simp [h, headLoaded]

/-- Loading a channel's head leaves the other channels as they are. -/
theorem loadHead_channels_of_ne {e : ChannelId} (ne : e ≠ d) :
    look (loadHead env d sv).channels e = look sv.channels e := by
  rcases loadHead_cases env d sv with h | ⟨i, head, h⟩
  · rw [h]
  · simp [h, headLoaded, look_put_of_ne _ ne.symm, (onPool_putSlot env i _ sv).channels]

end loadHead

/-! ## The checks of a CLIP-ARM, in order (R105) -/

@[simp] theorem channelOf_val (d : ChannelId) : channelOf d.val = some d := dif_pos d.isLt

theorem channelOf_cases (n : Nat) : channelOf n = none ∨ ∃ d : ChannelId, n = d.val := by
  by_cases h : n < 4
  · exact .inr ⟨⟨n, h⟩, rfl⟩
  · exact .inl (dif_neg h)

/-- R105: a clip id that is queued or active on a channel. -/
def ClipHeld (ch : Channel) (id : Nat) : Prop :=
  (∃ q ∈ ch.queue, q.clipId = id) ∨ (∃ k, ch.active = some k ∧ k.desc.clipId = id)

/-- R105: the services once a clip has joined the end of a channel's queue. -/
def joinQueue (d : ChannelId) (q : ClipDesc) (sv : Services) : Services :=
  putChannel d { look sv.channels d with queue := (look sv.channels d).queue ++ [q] } sv

/-- R105, R107: the services an accepted CLIP-ARM leaves. -/
def clipArmed (env : Env) (d : ChannelId) (q : ClipDesc) (sv : Services) : Services :=
  loadHead env d (joinQueue d q sv)

/-- R105: the answer to an accepted CLIP-ARM: the clip's place and, for a head, its slot. -/
def armedBytes (env : Env) (d : ChannelId) (q : ClipDesc) (sv : Services) : List Byte :=
  u8 ((look sv.channels d).queue.length + 1)
    ++ slotField (if (look sv.channels d).queue = [] then
      (look (clipArmed env d q sv).channels d).headSlot else none)

/-- R105: a clip's id and length pass the RANGE check. -/
structure ArmInRange (q : ClipDesc) : Prop where
  id : 1 ≤ q.clipId ∧ q.clipId ≤ 255
  length : 1 ≤ q.length ∧ q.length ≤ 3750

theorem clipArm_noCondition (env : Env) (n id len t : Nat) (sv : Services) :
    clipArm env n id len none t sv = (.refuse .range, sv) := by
  unfold clipArm
  cases channelOf n <;> rfl

theorem clipArm_range (env : Env) {n id len : Nat} (c : StartCondition) (t : Nat) (sv : Services)
    (bad : 3 < n ∨ id = 0 ∨ 255 < id ∨ len = 0 ∨ 3750 < len) :
    clipArm env n id len (some c) t sv = (.refuse .range, sv) := by
  rcases channelOf_cases n with other | ⟨d, rfl⟩
  · simp only [clipArm, other]
  · have outside : (between 1 255 id && between 1 3750 len) = false := by
      rw [← Bool.not_eq_true, Bool.and_eq_true, between_iff, between_iff]
      omega
    simp only [clipArm, channelOf_val, outside, Bool.not_false, if_true]

section checks

variable {env : Env} {d : ChannelId} {q : ClipDesc} {sv : Services} (inRange : ArmInRange q)
include inRange

theorem clipArm_config (config : env.run = false) :
    clipArm env d.val q.clipId q.length (some q.condition) q.latestStart sv
      = (.refuse .state, sv) := by
  simp [clipArm, between_iff.2 inRange.id, between_iff.2 inRange.length, config]

variable (run : env.run = true)
include run

theorem clipArm_outOfService (off : inService (look env.cfg.channels d) = false) :
    clipArm env d.val q.clipId q.length (some q.condition) q.latestStart sv
      = (.refuse .range, sv) := by
  simp [clipArm, between_iff.2 inRange.id, between_iff.2 inRange.length, run, off]

variable (on : inService (look env.cfg.channels d) = true)
include on

theorem clipArm_conflict (held : ClipHeld (look sv.channels d) q.clipId) :
    clipArm env d.val q.clipId q.length (some q.condition) q.latestStart sv
      = (.refuse .conflict, sv) := by
  rcases held with queued | ⟨k, active, same⟩
  · simp [clipArm, between_iff.2 inRange.id, between_iff.2 inRange.length, run, on, queued]
  · simp [clipArm, between_iff.2 inRange.id, between_iff.2 inRange.length, run, on, active, same]

variable (new : ¬ ClipHeld (look sv.channels d) q.clipId)
include new

/-- The last check and the answer, for an id that is neither queued nor active. -/
theorem clipArm_new :
    clipArm env d.val q.clipId q.length (some q.condition) q.latestStart sv =
      if 4 ≤ (look sv.channels d).queue.length then (.refuse .full, sv)
      else (.plain .ok (armedBytes env d q sv), clipArmed env d q sv) := by
  obtain ⟨unqueued, inactive⟩ := not_or.1 new
  have notQueued : (look sv.channels d).queue.any (fun p => p.clipId == q.clipId) = false := by
    simpa using unqueued
  cases active : (look sv.channels d).active with
  | none =>
    simp [clipArm, between_iff.2 inRange.id, between_iff.2 inRange.length, run, on, notQueued,
      active, armedBytes, clipArmed, joinQueue]
  | some k =>
    have other : k.desc.clipId ≠ q.clipId := fun same => inactive ⟨k, active, same⟩
    simp [clipArm, between_iff.2 inRange.id, between_iff.2 inRange.length, run, on, notQueued,
      active, other, armedBytes, clipArmed, joinQueue]

theorem clipArm_full (full : 4 ≤ (look sv.channels d).queue.length) :
    clipArm env d.val q.clipId q.length (some q.condition) q.latestStart sv
      = (.refuse .full, sv) := by
  rw [clipArm_new inRange run on new, if_pos full]

theorem clipArm_ok (room : (look sv.channels d).queue.length < 4) :
    clipArm env d.val q.clipId q.length (some q.condition) q.latestStart sv
      = (.plain .ok (armedBytes env d q sv), clipArmed env d q sv) := by
  rw [clipArm_new inRange run on new, if_neg (Nat.not_le.2 room)]

end checks

/-! ## What an accepted CLIP-ARM leaves -/

section clipArmed

variable (env : Env) (d : ChannelId) (q : ClipDesc) (sv : Services)

/-- R105: the clip stands at the end of its channel's queue. -/
theorem clipArmed_queue :
    (look (clipArmed env d q sv).channels d).queue = (look sv.channels d).queue ++ [q] := by
  rw [clipArmed, (onHeads_loadHead env d _).queue]
  simp [joinQueue]

theorem clipArmed_active :
    (look (clipArmed env d q sv).channels d).active = (look sv.channels d).active := by
  rw [clipArmed, (onHeads_loadHead env d _).active]
  simp [joinQueue]

theorem clipArmed_channels_of_ne {e : ChannelId} (ne : e ≠ d) :
    look (clipArmed env d q sv).channels e = look sv.channels e := by
  rw [clipArmed, loadHead_channels_of_ne env d _ ne]
  simp [joinQueue, look_put_of_ne _ ne.symm]

theorem clipArmed_frame :
    (clipArmed env d q sv).zones = sv.zones ∧ (clipArmed env d q sv).calls = sv.calls
      ∧ (clipArmed env d q sv).free = sv.free ∧ (clipArmed env d q sv).houses = sv.houses := by
  have loads := onHeads_loadHead env d (joinQueue d q sv)
  exact ⟨loads.zones, loads.calls, loadHead_free env d _, loads.houses⟩

/-- R106: a clip that becomes the head of its channel is loaded at once. -/
theorem clipArmed_head {i : SlotId} (run : env.run = true) (inRange : ArmInRange q)
    (first : (look sv.channels d).queue = []) (unloaded : (look sv.channels d).headSlot = none)
    (slot : idleSlot sv d = some i) (room : reserve sv.slots + min 32 q.length ≤ sv.free) :
    clipArmed env d q sv = headLoaded env d i q (joinQueue d q sv) := by
  have queue : (look (joinQueue d q sv).channels d).queue = [q] := by simp [joinQueue, first]
  have headSlot : (look (joinQueue d q sv).channels d).headSlot = none := by
    simp [joinQueue, unloaded]
  have armed := armSlot_ok (sv := joinQueue d q sv) run (idle_of_idleSlot slot) inRange.id
    inRange.length room
  exact loadHead_armed env d _ queue headSlot slot run armed

end clipArmed

/-! ## The request -/

section request

variable (tag : Byte) {n id len t : Nat} {c : Option StartCondition} {s : State} (h : Ready s)
include h

theorem exec_clipArm_refused {st : Status}
    (refused : clipArm s.env n id len c t (taken tag .clipArm s).svc
      = (.refuse st, (taken tag .clipArm s).svc)) :
    exec (.clipArm tag n id len c t) s
      = .next (answered tag .clipArm st [] (taken tag .clipArm s)) := by
  refine request_eq_of_work h (w := workClipArm tag n id len c t) ?_
  simp only [workClipArm, answerWith, taken_env, refused, refuse_eq]

theorem exec_clipArm_accepted {bytes : List Byte} {sv : Services}
    (accepted : clipArm s.env n id len c t (taken tag .clipArm s).svc = (.plain .ok bytes, sv)) :
    exec (.clipArm tag n id len c t) s
      = .next (answered tag .clipArm .ok bytes { taken tag .clipArm s with svc := sv }).settled := by
  refine (request_ready h tag .clipArm (workClipArm tag n id len c t)).trans ?_
  simp only [workClipArm, answerWith, taken_env, accepted, reply_eq]

end request

/-- Settles O38: each refusal is the equation of `clipArm` for its check; an accepted CLIP-ARM
leaves what the lemmas about `clipArmed` say. -/
theorem clipArmQueues : Obligations.ClipArmQueues := by
  unfold Obligations.ClipArmQueues
  intro tag n id len c t s h
  refine ⟨fun bad => exec_clipArm_refused tag h (clipArm_range _ c t _ bad),
    exec_clipArm_refused tag h (clipArm_noCondition _ n id len t _), ?_⟩
  rintro d rfl i1 i2 l1 l2
  have inRange : ArmInRange { clipId := id, length := len, condition := c, latestStart := t } :=
    ⟨⟨i1, i2⟩, ⟨l1, l2⟩⟩
  refine ⟨fun config => exec_clipArm_refused tag h (clipArm_config inRange config),
    fun run off => exec_clipArm_refused tag h (clipArm_outOfService inRange run off),
    fun run on => ⟨fun held => exec_clipArm_refused tag h (clipArm_conflict inRange run on held),
      fun new full => exec_clipArm_refused tag h (clipArm_full inRange run on new full),
      fun new room => ?accepted⟩⟩
  case accepted =>
    have accepted := clipArm_ok (env := s.env) (sv := (taken tag .clipArm s).svc) inRange run on new
      room
    obtain ⟨zones, calls, free, houses⟩ := clipArmed_frame s.env d _ (taken tag .clipArm s).svc
    refine ⟨_, exec_clipArm_accepted tag h accepted, clipArmed_queue s.env d _ _,
      clipArmed_active s.env d _ _, fun e ne => clipArmed_channels_of_ne s.env d _ _ ne, ?head,
      ?reply, zones, calls, free, houses, rfl, rfl, rfl⟩
    case head =>
      intro i first unloaded slot covered
      have loaded := clipArmed_head s.env d _ (taken tag .clipArm s).svc run inRange first unloaded
        slot covered
      simp [answered, loaded, headLoaded, armedSlot, joinQueue]
    case reply => exact List.mem_append_right _ (List.mem_singleton.2 rfl)

end Sys2Proof.Proofs.ClipArm
end

section
/-! PROOFS. CALL-POST (R126): the ranges of a descriptor, the first check that refuses it, one
equation per check, and the services an accepted one leaves. -/

namespace Sys2Proof.Proofs.CallPost

open Sys2Proof.Machine Sys2Proof.Laws Sys2Proof.Proofs.Cues

/-! ## The ranges of a descriptor (R126) -/

/-- R126: the length or the time of a message is in its range. -/
def MessageInRange : Message → Prop
  | .noMessage => True
  | .stream n => 1 ≤ n ∧ n ≤ 1024
  | .liveMic n => 1 ≤ n ∧ n ≤ 120

/-- R126: the fields of a CALL-POST pass the first check. -/
structure PostInRange (f : CallFields) : Prop where
  id : 1 ≤ f.callId ∧ f.callId ≤ 255
  priority : f.priority ≤ 3
  targets : f.targets ≠ []
  zones : ∀ z ∈ f.targets, z < 20
  chime : f.chime ≠ none
  known : f.message ≠ none
  message : ∀ m, f.message = some m → MessageInRange m
  repetitions : 1 ≤ f.repetitions ∧ f.repetitions ≤ 8
  spacing : f.spacing ≤ 600
  expiry : f.expiry ≤ 3600
  whole : f.whole ≠ none
  parked : f.parked ≠ none
  sounds : f.chime = some .noChime → f.message ≠ some .noMessage

theorem postInRange_of_callDescOf {f : CallFields} {d : CallDesc} (h : callDescOf f = some d) :
    PostInRange f := by
  unfold callDescOf at h
  split at h
  case h_1 chime message whole parked hc hm hw hp =>
    dsimp only at h
    split_ifs at h with legal
    simp only [Bool.and_eq_true, between_iff, decide_eq_true_eq, Bool.not_eq_true',
      List.isEmpty_eq_false_iff, List.all_eq_true, Bool.and_eq_false_iff, beq_eq_false_iff_ne]
      at legal
    obtain ⟨⟨⟨⟨⟨⟨⟨⟨id, priority⟩, targets⟩, zones⟩, lawful⟩, repetitions⟩, spacing⟩, expiry⟩,
      sounds⟩ := legal
    have inRange : MessageInRange message := by
      cases message with
      | noMessage => trivial
      | stream n => exact between_iff.1 lawful
      | liveMic n => exact between_iff.1 lawful
    exact {
      id, priority, targets, zones, repetitions, spacing, expiry
      chime := by simp [hc]
      known := by simp [hm]
      whole := by simp [hw]
      parked := by simp [hp]
      message := fun m hm' => Option.some.inj (hm.symm.trans hm') ▸ inRange
      sounds := by simpa [hc, hm, imp_iff_not_or] using sounds }
  case h_2 => cases h

/-! ## The checks of a CALL-POST, in order (R126) -/

theorem findCall_isSome_iff {id : Nat} {sv : Services} :
    (findCall id sv).isSome = true ↔ ∃ k ∈ sv.calls, k.desc.callId = id := by
  simp [findCall]

/-- R126: the services an accepted CALL-POST leaves. -/
def callPosted (d : CallDesc) (sv : Services) : Services :=
  oweWalk { sv with calls := sv.calls ++ [newCall d sv.callClock] }

theorem callPost_range (env : Env) {f : CallFields} (sv : Services) (unfit : ¬ PostInRange f) :
    callPost env f sv = (.refuse .range, sv) := by
  have refused : callDescOf f = none :=
    Option.eq_none_iff_forall_ne_some.2 fun _ desc => unfit (postInRange_of_callDescOf desc)
  simp only [callPost, refused]

section checks

variable {env : Env} {f : CallFields} {d : CallDesc} {sv : Services} (desc : callDescOf f = some d)
include desc

theorem callPost_config (config : env.run = false) :
    callPost env f sv = (.refuse .state, sv) := by
  simp [callPost, desc, config]

variable (run : env.run = true)
include run

theorem callPost_kind (other : ∃ z ∈ d.targets, takesCalls (look env.cfg.zones z).kind = false) :
    callPost env f sv = (.refuse .range, sv) := by
  simp [callPost, desc, run, other]

variable (kinds : ∀ z ∈ d.targets, takesCalls (look env.cfg.zones z).kind = true)
include kinds

/-- The checks left for a descriptor whose targets all take calls. -/
theorem callPost_kinds : callPost env f sv =
    if (findCall d.callId sv).isSome then (.refuse .conflict, sv)
    else if 16 ≤ sv.calls.length then (.refuse .full, sv)
    else (.plain .ok (u8 (if d.parked then 0 else 1) ++ u8 (sv.calls.length + 1)),
      callPosted d sv) := by
  have noOther : ¬ ∃ z ∈ d.targets, takesCalls (look env.cfg.zones z).kind = false := by
    simpa using kinds
  have code : (newCall d sv.callClock).state.code = if d.parked then 0 else 1 :=
    apply_ite CallState.code _ _ _
  simp [callPost, desc, run, noOther, callPosted, oweWalk, code]

theorem callPost_conflict (live : ∃ k ∈ sv.calls, k.desc.callId = d.callId) :
    callPost env f sv = (.refuse .conflict, sv) := by
  rw [callPost_kinds desc run kinds, if_pos (findCall_isSome_iff.2 live)]

variable (new : ∀ k ∈ sv.calls, k.desc.callId ≠ d.callId)
include new

theorem callPost_new : callPost env f sv =
    if 16 ≤ sv.calls.length then (.refuse .full, sv)
    else (.plain .ok (u8 (if d.parked then 0 else 1) ++ u8 (sv.calls.length + 1)),
      callPosted d sv) := by
  have absent : ¬ (findCall d.callId sv).isSome = true := fun live =>
    have ⟨k, mem, same⟩ := findCall_isSome_iff.1 live
    new k mem same
  rw [callPost_kinds desc run kinds, if_neg absent]

theorem callPost_full (full : 16 ≤ sv.calls.length) :
    callPost env f sv = (.refuse .full, sv) := by
  rw [callPost_new desc run kinds new, if_pos full]

theorem callPost_ok (room : sv.calls.length < 16) : callPost env f sv =
    (.plain .ok (u8 (if d.parked then 0 else 1) ++ u8 (sv.calls.length + 1)), callPosted d sv) := by
  rw [callPost_new desc run kinds new, if_neg (Nat.not_le.2 room)]

end checks

/-! ## The request -/

section request

variable (tag : Byte) {f : CallFields} {s : State} (h : Ready s)
include h

theorem exec_callPost_refused {st : Status}
    (refused : callPost s.env f (taken tag .callPost s).svc
      = (.refuse st, (taken tag .callPost s).svc)) :
    exec (.callPost tag f) s = .next (answered tag .callPost st [] (taken tag .callPost s)) := by
  refine request_eq_of_work h (w := workCallPost tag f) ?_
  simp only [workCallPost, answerWith, taken_env, refused, refuse_eq]

theorem exec_callPost_accepted {bytes : List Byte} {sv : Services}
    (accepted : callPost s.env f (taken tag .callPost s).svc = (.plain .ok bytes, sv)) :
    exec (.callPost tag f) s
      = .next (answered tag .callPost .ok bytes { taken tag .callPost s with svc := sv }).settled := by
  refine (request_ready h tag .callPost (workCallPost tag f)).trans ?_
  simp only [workCallPost, answerWith, taken_env, accepted, reply_eq]

end request

/-- Settles O43: each refusal is the equation of `callPost` for its check; an accepted CALL-POST
leaves `callPosted`. -/
theorem callPostEntersTheTable : Obligations.CallPostEntersTheTable := by
  unfold Obligations.CallPostEntersTheTable
  intro tag f s h
  refine ⟨fun bad => exec_callPost_refused tag h (callPost_range _ _ ?unfit), fun d desc =>
    ⟨fun config => exec_callPost_refused tag h (callPost_config desc config),
      fun run => ⟨fun other => exec_callPost_refused tag h (callPost_kind desc run other),
        fun kinds =>
          ⟨fun live => exec_callPost_refused tag h (callPost_conflict desc run kinds live),
            fun new =>
              ⟨fun full => exec_callPost_refused tag h (callPost_full desc run kinds new full),
                fun room => ?accepted⟩⟩⟩⟩⟩
  case unfit =>
    intro fits
    rcases bad with id | id | priority | targets | ⟨z, mem, far⟩ | chime | message | stream
      | ⟨n, stream, long⟩ | mic | ⟨n, mic, long⟩ | repetitions | repetitions | spacing | expiry
      | whole | parked | ⟨chime, message⟩
    · exact absurd fits.id.1 (by omega)
    · exact absurd fits.id.2 (by omega)
    · exact absurd fits.priority (by omega)
    · exact fits.targets targets
    · exact absurd (fits.zones z mem) (by omega)
    · exact fits.chime chime
    · exact fits.known message
    · exact absurd (fits.message _ stream).1 (by omega)
    · exact absurd (fits.message _ stream).2 (by omega)
    · exact absurd (fits.message _ mic).1 (by omega)
    · exact absurd (fits.message _ mic).2 (by omega)
    · exact absurd fits.repetitions.1 (by omega)
    · exact absurd fits.repetitions.2 (by omega)
    · exact absurd fits.spacing (by omega)
    · exact absurd fits.expiry (by omega)
    · exact fits.whole whole
    · exact fits.parked parked
    · exact fits.sounds chime message
  case accepted =>
    have accepted := callPost_ok (env := s.env) (sv := (taken tag .callPost s).svc) desc run kinds new
      room
    refine ⟨_, exec_callPost_accepted tag h accepted, rfl, rfl, ?reply, rfl, rfl, rfl, rfl, rfl, rfl,
      rfl, rfl⟩
    case reply => exact List.mem_append_right _ (List.mem_singleton.2 rfl)

end Sys2Proof.Proofs.CallPost
end

section
/-! PROOFS. The pool and the bounds of the lists (R81, R84; O56, O57): that both are `KeptAll`, so that
`step_keeps` carries them through every step; and the reset state (O1, O6). -/

namespace Sys2Proof.Proofs.Invariants

open Sys2Proof.Machine Sys2Proof.Laws

/-- The sum over the slots of what `Same` keeps of each is kept. -/
theorem sum_slots_congr {f : Slot → Nat} {v w : Vector Slot 10}
    (h : ∀ i, f (look v i) = f (look w i)) :
    (allSlots.map (fun i => f (look v i))).sum = (allSlots.map (fun i => f (look w i))).sum :=
  congrArg List.sum (List.map_congr_left fun i _ => h i)

/-- R84: the unfilled guarantee looks at a slot's state, length and held blocks only. -/
theorem unfilled_congr {a b : Slot} (state : a.state = b.state) (held : a.held = b.held)
    (length : a.length = b.length) : a.unfilled = b.unfilled := by
  simp [Slot.unfilled, Slot.guarantee, state, held, length]

theorem poolRight_of_same {sv sv' : Services} (same : Same sv sv') (h : PoolRight sv) :
    PoolRight sv' where
  idle i e := by
    obtain ⟨state, held, -⟩ := same.slots i
    rw [held]
    exact h.idle i (state ▸ e)
  total := by
    have : heldTotal sv'.slots = heldTotal sv.slots :=
      sum_slots_congr (f := fun sl => sl.held.length) fun i => by rw [(same.slots i).2.1]
    rw [this, same.free]
    exact h.total
  covered := by
    have : reserve sv'.slots = reserve sv.slots := sum_slots_congr fun i => by
      obtain ⟨state, held, length⟩ := same.slots i
      exact unfilled_congr state held length
    rw [this, same.free]
    exact h.covered

/-- A change that leaves the slots and the free count leaves the pool right. -/
theorem poolRight_of_eq {sv sv' : Services} (slots : sv'.slots = sv.slots) (free : sv'.free = sv.free)
    (h : PoolRight sv) : PoolRight sv' :=
  ⟨by rw [slots]; exact h.idle, by rw [slots, free]; exact h.total, by
    rw [slots, free]; exact h.covered⟩

/-- R81, R84: a slot write of the pool leaves it right. -/
theorem poolRight_write {sv : Services} {i : SlotId} {sl : Slot} {n : Nat}
    (w : SlotWrite sv i sl n) (h : PoolRight sv) :
    PoolRight { sv with slots := put sv.slots i sl, free := n } := by
  obtain ⟨blocks, covered⟩ := w.kept h.idle h.covered
  refine ⟨fun j e => ?idle, ?total, covered⟩
  case idle =>
    by_cases hj : i = j
    · subst hj
      simp only [look_put_self] at e ⊢
      exact w.idle e
    · simp only [look_put_of_ne _ hj] at e ⊢
      exact h.idle j e
  case total =>
    have put := heldTotal_put sv.slots i sl
    have total := h.total
    show n + heldTotal (Machine.put sv.slots i sl) = 4096
    omega

theorem keptAll_poolRight : KeptAll PoolRight where
  book _ _ b h := poolRight_of_eq b.slots b.free h
  zone sv z r _ h := poolRight_of_eq (sv := sv) (sv' := putZone z r sv) rfl rfl h
  slot _ _ _ _ w h := poolRight_write w h
  chan sv d c _ h := poolRight_of_eq (sv := sv) (sv' := putChannel d c sv) rfl rfl h
  same _ _ same h := poolRight_of_same same h
  fresh := ⟨by decide +kernel, by decide +kernel, by decide +kernel⟩

/-- A length that stays under its bound, or does not grow. -/
theorem le_of_or {a b n : Nat} (h : a ≤ n ∨ a ≤ b) (k : b ≤ n) : a ≤ n := h.elim id (·.trans k)

theorem bounded_book {sv sv' : Services} (b : Book sv sv') (h : Bounded sv) : Bounded sv' where
  stack := by rw [b.zones]; exact h.stack
  queues := by rw [b.channels]; exact h.queues
  calls := b.calls.trans h.calls
  finished := le_of_or b.finished h.finished
  outstanding := by
    have : linkCore sv'.link = linkCore sv.link := congrArg (·.2.2.2.2.2.2.2) b.outer
    rw [show sv'.link.outstanding = sv.link.outstanding from congrArg (·.2.1) this]
    exact h.outstanding
  immediate := by
    have : linkCore sv'.link = linkCore sv.link := congrArg (·.2.2.2.2.2.2.2) b.outer
    rw [show sv'.link.tx.filter TxItem.isImmediate = sv.link.tx.filter TxItem.isImmediate from
      congrArg (·.2.2.1) this]
    exact h.immediate
  held := by rw [b.slots]; exact h.held

theorem bounded_same {sv sv' : Services} (same : Same sv sv') (h : Bounded sv) : Bounded sv' where
  stack z := le_of_or (same.zones z) (h.stack z)
  queues d := le_of_or (same.channels d) (h.queues d)
  calls := le_of_or same.calls h.calls
  finished := le_of_or same.finished h.finished
  outstanding := le_of_or same.outstanding h.outstanding
  immediate := le_of_or same.immediate h.immediate
  held i := by rw [(same.slots i).2.1]; exact h.held i

/-- A table with one record replaced meets a bound when the new record does. -/
theorem look_put_bound {α : Type} {n : Nat} {p : α → Prop} {v : Vector α n} {i : Fin n} {x : α}
    (h : ∀ j, p (look v j)) (new : p x) (j : Fin n) : p (look (put v i x) j) := by
  rw [look_put]
  split
  · exact new
  · exact h j

theorem keptAll_bounded : KeptAll Bounded where
  book _ _ b h := bounded_book b h
  zone _ z _ r h := { h with
    stack := look_put_bound (p := fun r : ZoneRecord => r.stack.length ≤ 4) h.stack
      (le_of_or r (h.stack z)) }
  slot _ i _ _ w h := { h with
    held := look_put_bound (p := fun sl : Slot => sl.held.length ≤ slotLimit) h.held
      (le_of_or w.limit (h.held i)) }
  chan _ d _ q h := { h with
    queues := look_put_bound (p := fun c : Channel => c.queue.length ≤ 4) h.queues
      (q.trans (h.queues d)) }
  same _ _ same h := bounded_same same h
  fresh := ⟨by decide +kernel, by decide +kernel, by decide +kernel, by decide +kernel,
    by decide +kernel, by decide +kernel, by decide +kernel⟩

/-- What a step keeps of the lists of the cue followers and of the console line. -/
theorem step_short {s t : State} (h : Lengths s.cue s.console) (e : step s = .next t) :
    Lengths t.cue t.console := by
  unfold step at e
  split at e
  · cases e
    exact Laws.Lengths.short_tick s h
  · refine Laws.Lengths.exec_short _ _ t ?_ e
    exact h

/-- Settles O56: a right pool is `KeptAll`, which every step keeps. -/
theorem stepsKeepThePool : Obligations.StepsKeepThePool :=
  fun s t h e => step_keeps keptAll_poolRight s t h e

/-- Settles O57: the bounds of the services are `KeptAll`; the lists of the cue followers and the
console line are carried by their own laws. -/
theorem stepsKeepTheBounds : Obligations.StepsKeepTheBounds :=
  ⟨fun s t h e => step_keeps keptAll_bounded s t h e, fun _ _ h e => step_short h e⟩

/-- Settles O1: `step` runs the front command. -/
theorem stepRunsFrontCommand : Obligations.StepRunsFrontCommand := fun _ _ => rfl

/-- The blocks of the reset state stand at their reset values. -/
theorem reset_blocksAtReset : BlocksAtReset State.reset := by
  constructor
  case cues | quiet | houses => intro a; cases a <;> decide +kernel
  all_goals decide +kernel

/-- The lists of the reset state are empty. -/
theorem reset_lengths : Machine.Lengths State.reset.cue State.reset.console := by
  constructor
  case line => decide +kernel
  all_goals intro a; cases a <;> decide +kernel

/-- Settles O6: each part of the reset state is a closed fact about it. -/
theorem resetStateHasResetValues : Obligations.ResetStateHasResetValues :=
  ⟨reset_blocksAtReset, rfl, rfl, rfl, rfl, rfl, keptAll_poolRight.fresh, keptAll_bounded.fresh,
    ⟨by decide +kernel, fun _ a => by cases a <;> rfl, fun _ => rfl, fun _ => rfl⟩,
    reset_lengths, rfl⟩

end Sys2Proof.Proofs.Invariants
end

section
/-! PROOFS. What a step does to the waiting commands, the settings memory and the lamps (R151, R191;
O3, O58, O59). `view` is what of the part these three look at: most works leave it as it is, and
`Safe` says of the others that they keep each of the three. -/

namespace Sys2Proof.Proofs.Steady

open Sys2Proof Sys2Proof.Machine Sys2Proof.Laws

/-! ## The lamps and the house states, as the services hold them -/

/-- What R151 looks at of the services: the lamps and the house states. -/
def lampView (sv : Services) : (EntranceId → Lamp) × HouseState × HouseState :=
  (fun e => (look sv.entrances e).lamp, sv.houses.one.state, sv.houses.two.state)

/-- R151, R164: the lamps follow the house states, and in CONFIG both houses are OPEN. -/
structure Lit (env : Env) (sv : Services) : Prop where
  lamps : ∀ e, (look sv.entrances e).lamp = match (look env.cfg.entrances e).auditorium with
    | some a => lampFor (sv.houses.get a).state (look env.cfg.entrances e).admission
    | none => .off
  config : env.run = false → ∀ a, (sv.houses.get a).state = .opened

theorem houseState_of_lampView {sv sv' : Services} (h : lampView sv' = lampView sv) (a : Aud) :
    (sv'.houses.get a).state = (sv.houses.get a).state := by
  cases a
  · exact congrArg (·.2.1) h
  · exact congrArg (·.2.2) h

theorem lamp_of_lampView {sv sv' : Services} (h : lampView sv' = lampView sv) (e : EntranceId) :
    (look sv'.entrances e).lamp = (look sv.entrances e).lamp := congrFun (congrArg (·.1) h) e

theorem lampView_ext {sv sv' : Services}
    (lamps : ∀ e, (look sv'.entrances e).lamp = (look sv.entrances e).lamp)
    (houses : ∀ a, (sv'.houses.get a).state = (sv.houses.get a).state) :
    lampView sv' = lampView sv :=
  Prod.ext (funext lamps) (Prod.ext (houses .one) (houses .two))

theorem Lit.of_view {env : Env} {sv sv' : Services} (v : lampView sv' = lampView sv) (h : Lit env sv) :
    Lit env sv' where
  lamps e := by
    rw [lamp_of_lampView v, h.lamps e]
    split
    · rw [houseState_of_lampView v]
    · rfl
  config run a := (houseState_of_lampView v a).trans (h.config run a)

/-- In CONFIG every lamp is OFF, whatever the ENTRANCE records. -/
theorem lit_config_iff {env : Env} {sv : Services} (run : env.run = false) :
    Lit env sv ↔ (∀ e, (look sv.entrances e).lamp = .off) ∧ ∀ a, (sv.houses.get a).state = .opened := by
  constructor
  · intro h
    refine ⟨fun e => ?_, h.config run⟩
    rw [h.lamps e]
    split
    · rw [h.config run]; rfl
    · rfl
  · rintro ⟨off, opened⟩
    refine ⟨fun e => ?_, fun _ => opened⟩
    rw [off e]
    split
    · rw [opened]; rfl
    · rfl

/-! ## Services that leave the lamps and the house states -/

/-- The updates that `Kept` names leave lamps and house states. -/
theorem kept_lampView (v : (EntranceId → Lamp) × HouseState × HouseState) :
    Kept (fun sv => lampView sv = v) where
  book sv sv' b h := by
    have entrances : sv'.entrances = sv.entrances := congrArg (·.2.2.2.2.1) b.outer
    have one : houseCore sv'.houses.one = houseCore sv.houses.one := congrArg (·.2.2.2.2.2.1) b.outer
    have two : houseCore sv'.houses.two = houseCore sv.houses.two :=
      congrArg (·.2.2.2.2.2.2.1) b.outer
    refine (lampView_ext (fun e => by rw [entrances]) fun a => ?_).trans h
    cases a
    · exact congrArg (·.1) one
    · exact congrArg (·.1) two
  zone _ _ _ _ h := h
  slot _ _ _ _ _ h := h
  chan _ _ _ _ h := h

theorem lampView_putEntrance (e : EntranceId) (x : Entrance) (sv : Services)
    (h : x.lamp = (look sv.entrances e).lamp) : lampView (putEntrance e x sv) = lampView sv := by
  refine lampView_ext (fun d => ?_) fun _ => rfl
  simp only [putEntrance, look_put]
  split
  next eq => rw [h, eq]
  · rfl

theorem lampView_updHouse (a : Aud) (f : House → House) (sv : Services)
    (h : ∀ x, (f x).state = x.state) : lampView (updHouse a f sv) = lampView sv := by
  refine lampView_ext (fun _ => rfl) fun b => ?_
  simp only [updHouse, get_updTwo]
  split
  · exact h _
  · rfl

theorem lampView_updRecord (a : Aud) (f : WindowRecord → WindowRecord) (sv : Services) :
    lampView (updRecord a f sv) = lampView sv := lampView_updHouse a _ sv fun _ => rfl

theorem lampView_raise (env : Env) (k : NoticeKind) (sv : Services) :
    lampView (raise env k sv) = lampView sv := rfl

theorem lampView_foldl {α : Type} {f : Services → α → Services}
    (hf : ∀ sv x, lampView (f sv x) = lampView sv) (l : List α) (sv : Services) :
    lampView (l.foldl f sv) = lampView sv := foldl_keeps lampView f hf l sv

theorem lampView_startChime (o : ChimeOwner) (c : Chime) (sv : Services) :
    lampView (startChime o c sv) = lampView sv := rfl

theorem lampView_stopChime (o : ChimeOwner) (sv : Services) :
    lampView (stopChime o sv) = lampView sv := rfl

theorem lampView_judgeHolding (env : Env) (sv : Services) (e : EntranceId) :
    lampView (judgeHolding env sv e) = lampView sv := by
  unfold judgeHolding
  dsimp only
  split
  · exact (lampView_foldl (fun sv z => kept_hold (kept_lampView _) env z sv rfl) _ _).trans
      (lampView_putEntrance e _ sv rfl)
  · split
    · exact (lampView_foldl (fun sv z => kept_unhold (kept_lampView _) env z sv rfl) _ _).trans
        (lampView_putEntrance e _ sv rfl)
    · rfl

theorem lampView_judgeHoldings (env : Env) (a : Aud) (sv : Services) :
    lampView (judgeHoldings env a sv) = lampView sv := lampView_foldl (lampView_judgeHolding env) _ sv

theorem lampView_startAdmitChime (env : Env) (a : Aud) (reopened : Bool) (sv : Services) :
    lampView (startAdmitChime env a reopened sv) = lampView sv := by
  unfold startAdmitChime
  split
  · rfl
  · split
    · rfl
    · dsimp only
      rw [lampView_startChime, lampView_stopChime, lampView_updHouse]
      · exact kept_setClaim (kept_lampView _) env _ _ _ sv rfl
      · exact fun _ => rfl

theorem lampView_latchOpened (env : Env) (a : Aud) (e : EntranceId) (b : Bool) (sv : Services) :
    lampView (latchOpened env a e b sv) = lampView sv := by
  unfold latchOpened
  split
  · rw [lampView_raise, lampView_putEntrance]
    rfl
  · rfl

theorem lampView_latchLeftOpen (env : Env) (sv : Services) (e : EntranceId) :
    lampView (latchLeftOpen env sv e) = lampView sv := by
  rw [latchLeftOpen, lampView_raise, lampView_putEntrance]
  rfl

theorem lampView_clearLatch (sv : Services) (e : EntranceId) :
    lampView (clearLatch sv e) = lampView sv := by
  rw [clearLatch, lampView_putEntrance]
  rfl

theorem lampView_clearLatches (n : Nat) (sv : Services) :
    lampView (clearLatches n sv).2 = lampView sv := by
  unfold clearLatches
  split
  · exact lampView_foldl lampView_clearLatch _ sv
  · split
    · exact lampView_clearLatch sv _
    · rfl

theorem lampView_takeEntranceConfig (e : EntranceId) (old new : EntranceConfig) (sv : Services) :
    lampView (takeEntranceConfig e old new sv) = lampView sv := by
  unfold takeEntranceConfig
  split
  · rfl
  · exact lampView_putEntrance e _ sv rfl

theorem lampView_clipArm (env : Env) (n id len : Nat) (c : Option StartCondition) (t : Nat)
    (sv : Services) : lampView (clipArm env n id len c t sv).2 = lampView sv := by
  unfold clipArm
  split
  · dsimp only
    have armed (d : ChannelId) (x : Services) (h : lampView x = lampView sv) :
        lampView (loadHead env d x) = lampView sv := kept_loadHead (kept_lampView _) env d x h
    split_ifs
    · rfl
    · rfl
    · rfl
    · rfl
    · rfl
    · exact armed _ _ rfl
    · exact armed _ _ rfl
  · rfl

theorem lampView_takeHead (env : Env) (d : ChannelId) (sv : Services) :
    lampView (takeHead env d sv) = lampView sv := by
  unfold takeHead
  dsimp only
  split
  · exact kept_loadHead (kept_lampView _) env d _ rfl
  · rfl

theorem lampView_clipStart (env : Env) (n : Nat) (sv : Services) :
    lampView (clipStart env n sv).2 = lampView sv := by
  unfold clipStart
  split
  · rfl
  · rename_i d _
    extract_lets early sv1 before newId sv2 sv3
    have h1 : lampView sv1 = lampView sv := by
      dsimp only [sv1]
      split
      · exact kept_loadHead (kept_lampView _) env d sv rfl
      · rfl
    split
    · rfl
    · split
      · exact h1
      · exact (kept_activate (kept_lampView _) env d _ rfl).trans ((lampView_takeHead env d sv2).trans
          (kept_endClip (kept_lampView _) env d _ sv1 h1))

theorem lampView_callPost (env : Env) (f : CallFields) (sv : Services) :
    lampView (callPost env f sv).2 = lampView sv := by
  unfold callPost
  split
  · rfl
  · repeat' split
    all_goals rfl

theorem lampView_takeFinished (sv : Services) : lampView (takeFinished sv).2 = lampView sv := by
  unfold takeFinished; split <;> rfl

theorem lampView_chimeEnded (o : ChimeOwner) (env : Env) (sv : Services) :
    lampView (chimeEnded o env sv) = lampView sv := by
  cases o with
  | call id => exact kept_callChimeEnded (kept_lampView _) env id sv rfl
  | window a => exact kept_admitChimeEnded (kept_lampView _) env a sv rfl

/-! ## A house state changes, and its lamps with it (R151) -/

/-- A fold that writes the lamp of each entrance of a list leaves those lamps and no others. -/
theorem look_foldl_lamps (f : EntranceId → Services → Lamp)
    (hf : ∀ e d x sv, f e (putEntrance d x sv) = f e sv) :
    ∀ (l : List EntranceId) (sv : Services) (e : EntranceId),
      (look (l.foldl (fun acc d => putEntrance d { look acc.entrances d with lamp := f d acc } acc)
        sv).entrances e).lamp = if e ∈ l then f e sv else (look sv.entrances e).lamp := by
  intro l
  induction l with
  | nil => intro sv e; simp
  | cons d rest ih =>
    intro sv e
    rw [List.foldl_cons, ih, hf]
    by_cases mem : e ∈ rest
    · simp [mem]
    · by_cases eq : e = d
      · subst eq; simp [mem, putEntrance]
      · simp [mem, eq, putEntrance, look_put_of_ne _ (Ne.symm eq)]

theorem houses_setLamps (env : Env) (a : Aud) (sv : Services) :
    (setLamps env a sv).houses = sv.houses := by
  unfold setLamps
  refine foldl_keeps (fun sv : Services => sv.houses) _ ?_ _ sv
  exact fun _ _ => rfl

theorem lamp_setLamps (env : Env) (a : Aud) (sv : Services) (e : EntranceId) :
    (look (setLamps env a sv).entrances e).lamp =
      if (look env.cfg.entrances e).auditorium = some a then
        lampFor (sv.houses.get a).state (look env.cfg.entrances e).admission
      else (look sv.entrances e).lamp := by
  unfold setLamps
  rw [look_foldl_lamps (fun d acc => lampFor (acc.houses.get a).state
    (look env.cfg.entrances d).admission) (fun _ _ _ _ => rfl)]
  simp [entrancesOf, allEntrances]

/-- R151: when the lamps of an auditorium follow its new house state, all lamps are right. -/
theorem lit_setLamps {env : Env} {a : Aud} {sv sv' : Services} (h : Lit env sv)
    (same : ∀ e, (look sv'.entrances e).lamp = (look sv.entrances e).lamp)
    (other : ∀ b, a ≠ b → (sv'.houses.get b).state = (sv.houses.get b).state)
    (config : env.run = false → (sv'.houses.get a).state = .opened) :
    Lit env (setLamps env a sv') where
  lamps e := by
    rw [lamp_setLamps, houses_setLamps]
    split
    next mine => rw [mine]
    next not_mine =>
      rw [same e, h.lamps e]
      cases aud : (look env.cfg.entrances e).auditorium with
      | none => rfl
      | some b =>
        have ne : a ≠ b := fun eq => not_mine (aud.trans (congrArg some eq.symm))
        simp only [other b ne]
  config run b := by
    rw [houses_setLamps]
    by_cases eq : a = b
    · exact eq ▸ config run
    · exact (other b eq).trans (h.config run b)

/-- The usual case of `lit_setLamps`: the house of `a` has been changed, by `f`, and nothing else of
what the lamps look at. -/
theorem lit_setLamps_of_view {env : Env} {a : Aud} {f : House → House} {sv sv' : Services}
    (h : Lit env sv) (view : lampView sv' = lampView (updHouse a f sv))
    (config : env.run = false → (f (sv.houses.get a)).state = .opened) :
    Lit env (setLamps env a sv') := by
  have state (b : Aud) := houseState_of_lampView view b
  simp only [updHouse, get_updTwo] at state
  refine lit_setLamps h (fun e => (lamp_of_lampView view e).trans rfl) (fun b ne => ?_) fun run => ?_
  · rw [state, if_neg ne]
  · rw [state, if_pos rfl]; exact config run

theorem lit_sealHouse {env : Env} (a : Aud) {sv : Services} (run : env.run = true) (h : Lit env sv) :
    Lit env (sealHouse env a sv) :=
  lit_setLamps_of_view (f := fun h => { h with state := .sealed }) h rfl (by simp [run])

theorem lit_openHouse (env : Env) (a : Aud) (sv : Services) (h : Lit env sv) :
    Lit env (openHouse env a sv) := by
  unfold openHouse
  extract_lets was sv1 sv2 sv3
  have h2 : lampView sv2 = lampView sv1 := by
    dsimp only [sv2]
    split
    · exact kept_finishAdmitChime (kept_lampView _) env a _ rfl
    · rfl
  have h3 : lampView sv3 = lampView sv1 := by
    dsimp only [sv3]
    generalize was = w
    cases w
    · exact h2
    · exact h2
    · exact (lampView_updRecord a _ _).trans h2
    · exact (lampView_updRecord a _ _).trans h2
  exact (lit_setLamps_of_view h h3 fun _ => rfl).of_view (lampView_judgeHoldings env a _)

theorem lit_openWindow {env : Env} (a : Aud) (n : Nat) (m : Bool) (o : WindowOrigin) {sv : Services}
    (run : env.run = true) (h : Lit env sv) : Lit env (openWindow env a n m o sv) := by
  unfold openWindow
  extract_lets time reopened sv1 sv2 sounding sv3
  have h1 : Lit env (setLamps env a sv1) := lit_setLamps_of_view h rfl (by simp [run])
  refine h1.of_view ?_
  rw [lampView_raise, lampView_updHouse, lampView_startAdmitChime, lampView_judgeHoldings]
  exact fun _ => rfl

theorem lit_restartWindow (env : Env) (a : Aud) (n : Nat) (m : Bool) (sv : Services) (h : Lit env sv) :
    Lit env (restartWindow env a n m sv) :=
  h.of_view (by
    rw [restartWindow, lampView_updRecord, lampView_updHouse]
    exact fun _ => rfl)

theorem lit_admitOpen (env : Env) (a : Aud) (n : Nat) (m : Bool) (o : WindowOrigin) (sv : Services)
    (h : Lit env sv) : Lit env (admitOpen env a n m o sv).2 := by
  unfold admitOpen
  split
  · exact h
  · split
    · exact h
    · rename_i run
      have run : env.run = true := by simpa using run
      split
      · exact h
      · exact lit_restartWindow env a n m sv h
      · exact lit_openWindow a n m o run h
      · exact lit_openWindow a n m o run h

theorem lit_closeWindow {env : Env} (a : Aud) (r : CloseReason) (t : Nat) {sv : Services}
    (run : env.run = true) (h : Lit env sv) : Lit env (closeWindow env a r t sv) := by
  unfold closeWindow
  extract_lets waits sv1 sv2
  have h1 : Lit env (setLamps env a sv1) := lit_setLamps_of_view h rfl (by simp [run])
  refine h1.of_view ?_
  rw [lampView_judgeHoldings, lampView_raise, lampView_updRecord]

theorem lit_endClosing {env : Env} (a : Aud) (o : GraceOutcome) (l : List EntranceId) {sv : Services}
    (run : env.run = true) (h : Lit env sv) : Lit env (endClosing env a o l sv) := by
  unfold endClosing
  extract_lets sv1
  have h1 := lit_setLamps_of_view h (lampView_updRecord a (fun w => { w with grace := o, leftOpen := l })
    sv1) (by simp [run])
  exact h1.of_view (lampView_judgeHoldings env a _)

/-- A house that is not OPEN shows that the part is in RUN. -/
theorem run_of_not_opened {env : Env} {a : Aud} {sv : Services} (h : Lit env sv)
    (state : (sv.houses.get a).state ≠ .opened) : env.run = true := by
  by_contra no
  exact state (h.config (by simpa using no) a)

theorem lit_admitClose (env : Env) (a : Aud) (r : CloseReason) (sv : Services) (h : Lit env sv) :
    Lit env (admitClose env a r sv).2 := by
  unfold admitClose
  split
  next open_ => exact lit_closeWindow a r _ open_.1 h
  · exact h

theorem lit_windowExpired (env : Env) (a : Aud) (sv : Services) (h : Lit env sv) :
    Lit env (windowExpired env a sv) := by
  unfold windowExpired
  split
  next open_ => exact lit_closeWindow a _ _ (run_of_not_opened (a := a) h (by simp [open_.1])) h
  · exact h

theorem lit_musicResumed (env : Env) (a : Aud) (count : Nat) (sv : Services) (h : Lit env sv) :
    Lit env (musicResumed env a count sv) := by
  unfold musicResumed
  dsimp only
  split
  next open_ => exact lit_closeWindow a _ _ (run_of_not_opened (a := a) h (by simp [open_.1])) h
  · exact h

theorem lit_graceExpired (env : Env) (a : Aud) (sv : Services) (h : Lit env sv) :
    Lit env (graceExpired env a sv) := by
  unfold graceExpired
  split
  next closing =>
    exact (lit_endClosing a _ _ (run_of_not_opened (a := a) h (by simp [closing])) h).of_view
      (lampView_foldl (lampView_latchLeftOpen env) _ _)
  · exact h

theorem lit_sensorEvent (env : Env) (e : EntranceId) (b : Bool) (sv : Services) (h : Lit env sv) :
    Lit env (sensorEvent env e b sv) := by
  unfold sensorEvent
  extract_lets x sv1
  have h1 : lampView sv1 = lampView sv := lampView_putEntrance e _ sv rfl
  split
  · exact h
  · split
    · exact h.of_view h1
    · rename_i a _
      extract_lets sv2
      have h2 : Lit env sv2 := h.of_view ((lampView_judgeHolding env _ e).trans
        ((lampView_latchOpened env a e b sv1).trans h1))
      split
      next closing => exact lit_endClosing a _ _ (run_of_not_opened (a := a) h2 (by simp [closing.1])) h2
      · exact h2

end Sys2Proof.Proofs.Steady
end

section
/-! PROOFS. The whole part: the works that leave `view` as it is, the works that are `Safe`, and every
step (R151, R191, R193; O3, O58, O59). -/

namespace Sys2Proof.Proofs.Steady

open Sys2Proof Sys2Proof.Machine Sys2Proof.Laws

/-- What the waiting commands, the settings memory and the lamps (O3, O58, O59) look at of the part. -/
def view (s : State) : List Instr × PartControl × (EntranceId → Lamp) × HouseState × HouseState :=
  (s.pending, s.control, lampView s.svc)

theorem pending_of_view {s t : State} (h : view t = view s) : t.pending = s.pending :=
  congrArg (·.1) h

theorem control_of_view {s t : State} (h : view t = view s) : t.control = s.control :=
  congrArg (·.2.1) h

theorem lampView_of_view {s t : State} (h : view t = view s) : lampView t.svc = lampView s.svc :=
  congrArg (·.2.2) h

theorem lampsRight_iff {s : State} : LampsRight s ↔ Lit s.env s.svc
    ∧ (loading s.control = true → s.control.running = false)
    ∧ (s.control.holding = true → s.control.running = false) :=
  ⟨fun h => ⟨⟨h.lamps, h.config⟩, h.load, h.held⟩, fun h => ⟨h.1.lamps, h.1.config, h.2.1, h.2.2⟩⟩

/-- A part that no reset holds goes from `s` to `t`: the waiting commands stay, no reset begins, the
memory keeps its form, and the lamps stay right. -/
structure Safe (s t : State) : Prop where
  pending : t.pending = s.pending
  holding : t.control.holding = s.control.holding
  memory : Memory.wf s.control.memory = true → Memory.wf t.control.memory = true
  lamps : s.control.holding = false → LampsRight s → LampsRight t

theorem Safe.refl (s : State) : Safe s s := ⟨rfl, rfl, id, fun _ => id⟩

theorem Safe.trans {s t u : State} (h : Safe s t) (k : Safe t u) : Safe s u :=
  ⟨k.pending.trans h.pending, k.holding.trans h.holding, fun m => k.memory (h.memory m),
    fun up l => k.lamps (h.holding.trans up) (h.lamps up l)⟩

/-- A part whose configuration changes at most in what the lamps do not look at. -/
theorem Safe.of_lit {s t : State} (pending : t.pending = s.pending) (control : t.control = s.control)
    (lit : Lit s.env s.svc → Lit s.env t.svc) : Safe s t where
  pending := pending
  holding := by rw [control]
  memory := by rw [control]; exact id
  lamps _ h := by
    obtain ⟨l, load, held⟩ := lampsRight_iff.1 h
    refine lampsRight_iff.2 ⟨⟨?lamps, ?config⟩, ?load, ?held⟩
    case lamps =>
      have lamps := (lit l).lamps
      show ∀ e, _ = match (look t.control.cfg.entrances e).auditorium with
        | some a => lampFor (t.svc.houses.get a).state (look t.control.cfg.entrances e).admission
        | none => Lamp.off
      rw [control]
      exact lamps
    case config =>
      show t.control.running = false → _
      rw [control]
      exact (lit l).config
    case load => rw [control]; exact load
    case held => rw [control]; exact held

theorem Safe.of_view {s t : State} (h : view t = view s) : Safe s t :=
  Safe.of_lit (pending_of_view h) (control_of_view h) fun l => l.of_view (lampView_of_view h)

/-- After a safe change, one that leaves `view`. -/
theorem Safe.then_view {s t u : State} (h : Safe s t) (v : view u = view t) : Safe s u :=
  h.trans (.of_view v)

theorem Safe.foldl {α : Type} {f : State → α → State} (hf : ∀ s x, Safe s (f s x)) (l : List α)
    (s : State) : Safe s (l.foldl f s) :=
  foldl_inv (Safe s) f (fun t x h => h.trans (hf t x)) l s (.refl s)

/-- The services act and keep the lamps right. -/
theorem Safe.of_serve (f : Env → Services → Services) (s : State)
    (lit : Lit s.env s.svc → Lit s.env (f s.env s.svc)) : Safe s (s.serve f) :=
  Safe.of_lit rfl rfl lit

/-! ## Works that leave the view -/

/-- A change of the services that leaves lamps and house states leaves the view. -/
theorem view_svc {s : State} {sv : Services} (h : lampView sv = lampView s.svc) :
    view { s with svc := sv } = view s := congrArg (fun l => (s.pending, s.control, l)) h

theorem view_serve {f : Env → Services → Services} (hf : ∀ env sv, lampView (f env sv) = lampView sv)
    (s : State) : view (s.serve f) = view s := view_svc (hf s.env s.svc)

@[simp] theorem view_reply (tag : Byte) (kind : RequestKind) (ans : Answer) (s : State) :
    view (s.reply tag kind ans) = view s := rfl

@[simp] theorem view_updLink (s : State) (f : LinkPort → LinkPort) : view (s.updLink f) = view s := rfl
@[simp] theorem view_updCue (s : State) (a : Aud) (f : CueFollower → CueFollower) :
    view (s.updCue a f) = view s := rfl
@[simp] theorem view_updQuiet (s : State) (a : Aud) (f : QuietDetector → QuietDetector) :
    view (s.updQuiet a f) = view s := rfl
@[simp] theorem view_updConsole (s : State) (f : Console → Console) :
    view (s.updConsole f) = view s := rfl
@[simp] theorem view_setSup (s : State) (x : Supervisor) : view (s.setSup x) = view s := rfl
@[simp] theorem view_updModule (s : State) (m : ModuleId) (f : ModuleRecord → ModuleRecord) :
    view (s.updModule m f) = view s := rfl
@[simp] theorem view_protect (s : State) (m : ModuleId) (b : Bool) :
    view (s.protect m b) = view s := rfl
@[simp] theorem view_setVisit (s : State) (v : Visit) : view (s.setVisit v) = view s := rfl
@[simp] theorem view_show (s : State) (lines : List (List TextField)) : view (s.show lines) = view s := rfl
@[simp] theorem view_showStatus (s : State) (st : Status) : view (s.showStatus st) = view s := rfl

@[simp] theorem view_settled (s : State) : view s.settled = view s :=
  view_serve (fun env sv => kept_settle (kept_lampView _) env sv rfl) s

theorem view_answerWith (tag : Byte) (kind : RequestKind) {f : Env → Services → Answer × Services}
    (hf : ∀ env sv, lampView (f env sv).2 = lampView sv) (s : State) :
    view (answerWith tag kind f s) = view s := view_svc (hf s.env s.svc)

/-! ### The cue followers -/

@[simp] theorem view_answerAdvance (k : CueAsker) (p n : Nat) (o : List ActionOutcome) (s : State) :
    view (answerAdvance k p n o s) = view s := by unfold answerAdvance; split <;> rfl

@[simp] theorem view_finishFiring (a : Aud) (s : State) : view (finishFiring a s) = view s := by
  unfold finishFiring
  dsimp only
  split
  · rfl
  · rw [view_answerAdvance]; rfl

@[simp] theorem view_refuseCue (w : WaitingCue) (st : Status) (s : State) :
    view (refuseCue w st s) = view s := by unfold refuseCue; split <;> rfl

@[simp] theorem view_cueTeardown (a : Aud) (s : State) : view (cueTeardown a s) = view s := by
  unfold cueTeardown
  rw [view_finishFiring]
  exact foldl_keeps view _ (fun s w => view_refuseCue w _ s) _ _

/-- R65: an action keeps the lamps right; OPEN-ADMIT and CLOSE-ADMIT change a house state. -/
theorem safe_doAction (a : Aud) (act : CueAction) (s : State) : Safe s (doAction a act s).2 := by
  have outcome (r : Answer × Services) (h : lampView r.2 = lampView s.svc) :
      Safe s (s.outcome r).2 := .of_view ((view_settled _).trans (view_svc h))
  cases act with
  | startClip d =>
    simp only [doAction]
    split
    · exact outcome _ (lampView_clipStart _ d _)
    · exact .refl s
  | stopClip d =>
    simp only [doAction]
    split
    · exact outcome _ (kept_clipStop (kept_lampView _) _ d _ rfl)
    · exact .refl s
  | openAdmit n m =>
    have h : Safe s { s with svc := (admitOpen s.env a n m .cue s.svc).2 } :=
      Safe.of_lit rfl rfl (lit_admitOpen s.env a n m .cue s.svc)
    exact h.then_view (view_settled _)
  | closeAdmit =>
    have h : Safe s { s with svc := (admitClose s.env a .cue s.svc).2 } :=
      Safe.of_lit rfl rfl (lit_admitClose s.env a .cue s.svc)
    exact h.then_view (view_settled _)
  | releaseCall id => exact outcome _ (kept_callRelease (kept_lampView _) id _ rfl)
  | mark => exact .refl s

theorem safe_handOn (a : Aud) (s : State) (act : CueAction) : Safe s (handOn a s act) :=
  (safe_doAction a act s).then_view rfl

theorem safe_fireRest (a : Aud) (s : State) : Safe s (fireRest a s) := by
  unfold fireRest
  split
  · exact .refl s
  · exact (Safe.foldl (safe_handOn a) _ s).then_view
      (view_finishFiring a _)

theorem safe_takeCue (a : Aud) (w : WaitingCue) (s : State) : Safe s (takeCue a w s) := by
  cases w with
  | advance k =>
    simp only [takeCue, takeAdvance]
    split
    · exact .of_view (view_answerAdvance _ _ _ _ _)
    · exact (Safe.of_view (by rw [view_updCue, view_updCue])).trans (safe_fireRest a _)
  | jump tag p => exact .of_view rfl

theorem safe_drainCues (n : Nat) (a : Aud) (s : State) : Safe s (drainCues n a s) := by
  induction n generalizing s with
  | zero => exact .refl s
  | succ n ih =>
    simp only [drainCues]
    split
    · exact ((Safe.of_view (view_updCue s a _)).trans (safe_takeCue a _ _)).trans (ih _)
    · exact .refl s

theorem safe_arriveCue (a : Aud) (w : WaitingCue) (s : State) : Safe s (arriveCue a w s) := by
  simp only [arriveCue]
  split
  · split
    · exact .of_view (view_refuseCue w _ s)
    · exact .of_view rfl
  · exact safe_takeCue a w s

theorem safe_resumeFiring (a : Aud) (s : State) : Safe s (resumeFiring a s) :=
  (safe_fireRest a s).trans (safe_drainCues 8 a _)

/-! ### The loop supervisor -/

@[simp] theorem view_resolveZone (s : State) (z : ZoneId) : view (resolveZone s z) = view s := by
  unfold resolveZone
  dsimp only
  have drive (d : DriveState) (b : Bool) : lampView (writeDrive z d b s.svc) = lampView s.svc :=
    kept_writeDrive (kept_lampView _) z d b s.svc rfl
  split
  · split
    · exact view_svc (drive _ _)
    · exact (view_serve (fun env sv => lampView_raise env .zone sv) _).trans (view_svc (drive _ _))
  · rfl

@[simp] theorem view_resolveModule (s : State) (m : ModuleId) : view (resolveModule s m) = view s := by
  unfold resolveModule
  refine foldl_keeps view _ (fun s z => ?_) _ s
  split
  · exact view_resolveZone s z
  · rfl

@[simp] theorem view_noticeModule (was now : ModuleState) (b : Bool) (s : State) :
    view (noticeModule was now b s) = view s := by unfold noticeModule; split <;> rfl

@[simp] theorem view_makeAbsent (m : ModuleId) (s : State) : view (makeAbsent m s) = view s := by
  simp [makeAbsent]

@[simp] theorem view_answerPass (p : PassThrough) (st : Status) (v : Option Word16) (s : State) :
    view (answerPass p st v s) = view s := by unfold answerPass; dsimp only; split <;> rfl

@[simp] theorem view_grantPoll (s : State) : view (grantPoll s) = view s := by
  unfold grantPoll; split <;> rfl

@[simp] theorem view_grantBus (s : State) : view (grantBus s) = view s := by
  unfold grantBus
  split
  · rfl
  · rfl
  · split <;> simp
  · simp

@[simp] theorem view_beginRound (s : State) : view (beginRound s) = view s := by
  unfold beginRound; split <;> rfl

@[simp] theorem view_nextVisit (m : ModuleId) (s : State) : view (nextVisit m s) = view s := by
  unfold nextVisit
  split
  · rfl
  · split <;> rfl

@[simp] theorem view_resolveVisit (v : Visit) (s : State) : view (resolveVisit v s) = view s := by
  simp only [resolveVisit, view_nextVisit, view_noticeModule, view_resolveModule]
  split <;> rfl

@[simp] theorem view_afterResistance (v : Visit) (s : State) : view (afterResistance v s) = view s := by
  unfold afterResistance
  split
  · split <;> simp
  · simp

theorem view_visitIdentity (v : Visit) (w : Word16) (s : State) :
    view (visitIdentity v w s) = view s := by
  simp only [visitIdentity]
  split
  · simp
  · rw [view_setVisit, apply_ite view, view_resolveModule, view_updModule, ite_self]

theorem view_visitState (v : Visit) (w : Word16) (s : State) : view (visitState v w s) = view s := by
  simp only [visitState]
  split
  · rw [view_setVisit]
    split <;> simp
  · rw [view_nextVisit, view_resolveModule, view_updModule]
    split <;> simp

@[simp] theorem view_visitAnswer (v : Visit) (w : Word16) (s : State) :
    view (visitAnswer v w s) = view s := by
  unfold visitAnswer
  split
  · exact view_visitIdentity v w s
  · exact view_visitState v w s
  · simp [visitCaps]
  · simp [visitFaults]
  · simp [visitResistance]
  · simp [visitTemperature]

theorem view_pollEnd (r : Option Word16) (s : State) : view (pollEnd r s) = view s := by
  unfold pollEnd
  split
  · split
    · simp
    · split <;> simp
  · rfl

theorem view_passEnd (r : Option Word16) (s : State) : view (passEnd r s) = view s := by
  unfold passEnd
  split
  · rfl
  · dsimp only
    split
    · simp
    · simp
    · rw [view_answerPass]
      split <;> simp [carryFaults]

theorem view_busEnd (r : Option Word16) (s : State) : view (busEnd r s) = view s := by
  unfold busEnd
  split
  · rfl
  · simp only [view_grantBus]
    split
    · unfold protectiveEnd
      split <;> simp
    · rw [view_passEnd, view_setSup]
    · rw [view_pollEnd, view_setSup]

@[simp] theorem view_dropModule (s : State) (m : ModuleId) : view (dropModule s m) = view s := by
  unfold dropModule
  extract_lets s1
  have h : view s1 = view s := by simp [s1]
  clear_value s1
  split
  · split
    · split <;> simp [h]
    · exact h
  · exact h

@[simp] theorem view_wakePoll (s : State) : view (wakePoll s) = view s := by
  unfold wakePoll
  split
  · simp
  · split <;> simp
  · rfl

theorem view_applyPoll (w : Word16) (g : Nat) (s : State) : view (applyPoll w g s)
    = view (s.setCfg { s.control.cfg with
        supervision := { s.control.cfg.supervision with enables := w, gap := g } }) := by
  simp only [applyPoll, view_grantBus, view_wakePoll]
  exact foldl_keeps view _ view_dropModule _ _

theorem view_beginPass (p : PassThrough) (s : State) : view (beginPass p s) = view s := by
  simp [beginPass]

theorem view_restoreModule (m : ModuleId) (s : State) : view (restoreModule m s) = view s := by
  simp [restoreModule]

/-! ### The console -/

theorem safe_runCommand (c : ConsoleCommand) (s : State) : Safe s (runCommand c s) := by
  cases c with
  | status => exact .of_view rfl
  | zone n =>
    simp only [runCommand, runZone]
    split <;> exact .of_view rfl
  | module_ n =>
    simp only [runCommand, runModule]
    split <;> exact .of_view rfl
  | test n b =>
    cases b
    · exact .of_view (view_svc (kept_stopTest (kept_lampView _) s.env .console n s.svc rfl))
    · exact .of_view (view_svc (kept_startTest (kept_lampView _) s.env .console n s.svc rfl))
  | go n =>
    simp only [runCommand, runGo]
    split
    · exact .of_view rfl
    · split
      · exact safe_arriveCue _ _ s
      · exact .of_view rfl
  | read m w =>
    simp only [runCommand, runRead]
    split
    · exact .of_view rfl
    · exact .of_view (view_beginPass _ s)

theorem safe_endLine (c : Option ConsoleCommand) (s : State) : Safe s (endLine c s) := by
  unfold endLine
  extract_lets s1
  have h : Safe s s1 := .of_view rfl
  split
  · split
    · exact h.trans (safe_runCommand _ s1)
    · exact h.then_view rfl
  · exact h.then_view rfl

theorem safe_editCharacter (c : Byte) (s : State) : Safe s (editCharacter c s) := by
  unfold editCharacter
  dsimp only
  split
  · repeat' split
    all_goals exact .of_view rfl
  · split
    · split <;> exact .of_view rfl
    · split
      · split <;> exact .of_view rfl
      · split
        · split
          · exact .of_view rfl
          · exact safe_endLine _ s
        · exact .of_view rfl

theorem safe_consoleCharacter (c : Byte) (f : Bool) (s : State) : Safe s (consoleCharacter c f s) := by
  unfold consoleCharacter
  have line : Safe s (lineAfter c f s) := .of_view rfl
  refine line.trans ?_
  generalize lineAfter c f s = s
  unfold takeCharacter
  split
  · exact .of_view rfl
  · split <;> exact .of_view rfl
  · split
    · exact .refl s
    · exact safe_editCharacter c s
  · split <;> exact .of_view rfl
  · exact .refl s

end Sys2Proof.Proofs.Steady
end

section
/-! PROOFS. The works of part control, the requests and the events, and every command (R151, R186-R194;
O3, O58, O59). -/

namespace Sys2Proof.Proofs.Steady

open Sys2Proof Sys2Proof.Machine Sys2Proof.Laws

/-! ## Changes of part control -/

/-- A change of part control that leaves the operating state and the ENTRANCE records, and begins no
load. -/
structure SafeControl (c d : PartControl) : Prop where
  holding : d.holding = c.holding
  running : d.running = c.running
  entrances : d.cfg.entrances = c.cfg.entrances
  memory : Memory.wf c.memory = true → Memory.wf d.memory = true
  load : loading d = true → loading c = true ∨ c.running = false

theorem Lit.of_env {e f : Env} {sv : Services} (entrances : f.cfg.entrances = e.cfg.entrances)
    (run : f.run = false → e.run = false) (h : Lit e sv) : Lit f sv where
  lamps := by rw [entrances]; exact h.lamps
  config r := h.config (run r)

theorem Safe.of_control {s t : State} (h : SafeControl s.control t.control)
    (pending : t.pending = s.pending) (lamps : lampView t.svc = lampView s.svc) : Safe s t where
  pending := pending
  holding := h.holding
  memory := h.memory
  lamps _ right := by
    obtain ⟨lit, load, held⟩ := lampsRight_iff.1 right
    have lit' : Lit t.env t.svc := Lit.of_env (e := s.env) h.entrances (fun r => h.running.symm.trans r)
      (lit.of_view lamps)
    refine lampsRight_iff.2 ⟨lit', fun l => ?_, fun up => ?_⟩
    · rw [h.running]
      exact (h.load l).elim load id
    · rw [h.running]
      exact held (h.holding ▸ up)

theorem safe_setCfg {c : Configuration} {s : State} (h : c.entrances = s.control.cfg.entrances) :
    Safe s (s.setCfg c) := .of_control ⟨rfl, rfl, h, id, .inl⟩ rfl rfl

/-- What of the part in CONFIG the three look at: not the configuration in force. -/
def configView (s : State) :=
  (s.pending, { s.control with cfg := Configuration.default }, lampView s.svc)

theorem configView_of_view {s t : State} (h : view t = view s) : configView t = configView s :=
  congrArg (fun v => (v.1, { v.2.1 with cfg := Configuration.default }, v.2.2)) h

/-- In CONFIG the configuration in force has no part in the lamps (R164). -/
theorem Safe.of_configView {s t : State} (h : configView t = configView s)
    (config : s.control.running = false) : Safe s t := by
  have control : { t.control with cfg := Configuration.default }
      = { s.control with cfg := Configuration.default } := congrArg (·.2.1) h
  have running : t.control.running = s.control.running := congrArg (·.running) control
  have holding : t.control.holding = s.control.holding := congrArg (·.holding) control
  have settings : t.control.settings = s.control.settings := congrArg (·.settings) control
  have memory : t.control.memory = s.control.memory := congrArg (·.memory) control
  refine ⟨congrArg (·.1) h, holding, fun m => memory ▸ m, fun _ right => ?_⟩
  obtain ⟨off, opened⟩ := (lit_config_iff config).1 (lampsRight_iff.1 right).1
  have view : lampView t.svc = lampView s.svc := congrArg (·.2.2) h
  exact lampsRight_iff.2 ⟨(lit_config_iff (running.trans config)).2
    ⟨fun e => (lamp_of_lampView view e).trans (off e),
      fun a => (houseState_of_lampView view a).trans (opened a)⟩,
    fun _ => running.trans config, fun _ => running.trans config⟩

/-- The part enters RUN with no load in progress. -/
theorem Safe.enterRun {s t : State} (pending : t.pending = s.pending)
    (holding : t.control.holding = s.control.holding) (memory : t.control.memory = s.control.memory)
    (entrances : t.control.cfg.entrances = s.control.cfg.entrances)
    (run : t.control.running = true) (load : loading t.control = false)
    (lamps : lampView t.svc = lampView s.svc) : Safe s t where
  pending := pending
  holding := holding
  memory := by rw [memory]; exact id
  lamps up right := by
    have lit := (lampsRight_iff.1 right).1.of_view lamps
    refine lampsRight_iff.2 ⟨Lit.of_env (e := s.env) entrances (fun r => ?_) lit, fun l => ?_, fun h => ?_⟩
    · exact absurd (run.symm.trans r) Bool.true_eq_false_eq_False
    · rw [load] at l; cases l
    · rw [holding, up] at h; cases h

/-! ## Configuration records (R186) -/

theorem configView_setCfg (c : Configuration) (s : State) :
    configView (s.setCfg c) = configView s := rfl

theorem configView_takeZone (z : ZoneId) (c : ZoneConfig) (s : State) :
    configView (takeZone z c s) = configView s := by
  unfold takeZone
  dsimp only
  have kind (old new : ZoneKind) : lampView (takeZoneKind z old new s.svc) = lampView s.svc :=
    kept_takeZoneKind (kept_lampView _) z old new s.svc rfl
  refine (foldl_keeps configView _ (fun s m => configView_of_view (view_resolveModule s m)) _ _).trans ?_
  refine (configView_of_view (view_resolveZone _ z)).trans ?_
  exact (configView_of_view (view_svc (kind _ _))).trans (configView_setCfg _ s)

theorem configView_takeEntrance (e : EntranceId) (c : EntranceConfig) (s : State) :
    configView (takeEntrance e c s) = configView s := by
  unfold takeEntrance
  dsimp only
  exact (configView_of_view (s := s.setCfg _)
    (view_svc (lampView_takeEntranceConfig e (look s.control.cfg.entrances e) c s.svc))).trans
    (configView_setCfg _ s)

theorem configView_takeRecord (s : State) (i : Nat) (r : ConfigRecord) :
    configView (takeRecord s i r) = configView s := by
  unfold takeRecord
  split
  · split
    next z _ => exact configView_takeZone z _ s
    · rfl
  · split
    next e _ => exact configView_takeEntrance e _ s
    · rfl
  · split <;> rfl
  · rfl
  · exact congrArg (fun v => (v.1, { v.2.1 with cfg := Configuration.default }, v.2.2))
      (view_applyPoll _ _ _)
  · rfl

theorem configView_takeRecords (i : Nat) (l : List ConfigRecord) (s : State) :
    configView (takeRecords i l s) = configView s := by
  induction l generalizing i s with
  | nil => rfl
  | cons r rest ih => exact (ih _ _).trans (configView_takeRecord s i r)

theorem running_of_configView {s t : State} (h : configView t = configView s) :
    t.control.running = s.control.running := congrArg (·.2.1.running) h

/-! ## Operating states (R187, R188) -/

@[simp] theorem view_blocksEnterRun (s : State) : view (blocksEnterRun s) = view s := by
  unfold blocksEnterRun
  rw [view_updLink]
  exact view_serve (fun env sv => kept_routerEnterRun (kept_lampView _) env sv rfl) s

theorem lampView_engineTeardown (env : Env) (sv : Services) :
    lampView (engineTeardown env sv) = lampView sv := by
  have h : lampView (allChannels.foldl (fun acc d => channelTeardown env d acc) sv) = lampView sv :=
    lampView_foldl (fun sv d => kept_channelTeardown (kept_lampView _) env d sv rfl) _ sv
  unfold engineTeardown
  generalize allChannels.foldl (fun acc d => channelTeardown env d acc) sv = torn at h
  exact h

theorem lampView_servicesTeardown (env : Env) (sv : Services) :
    lampView (servicesTeardown env sv) = lampView sv := by
  have K := kept_lampView (lampView sv)
  unfold servicesTeardown
  exact kept_abandonWhere K _ _ _ (kept_schedulerTeardown K env _ (lampView_engineTeardown env sv))

@[simp] theorem view_blocksEnterConfig (s : State) : view (blocksEnterConfig s) = view s := by
  unfold blocksEnterConfig
  dsimp only
  rw [view_updLink, view_serve lampView_servicesTeardown]
  exact (view_cueTeardown .two _).trans ((view_cueTeardown .one _).trans rfl)

theorem safe_workModeRun (tag : Byte) (s : State) : Safe s (workModeRun tag s) := by
  unfold workModeRun
  split
  · exact .of_view rfl
  · split
    · exact .of_view rfl
    next idle =>
      split
      · exact .of_view rfl
      · have run : Safe s ((s.setRunning true).reply tag .mode (.plain .ok [])) :=
          .enterRun rfl rfl rfl rfl rfl (Bool.eq_false_of_not_eq_true idle) rfl
        exact run.then_view (view_blocksEnterRun _)

theorem safe_workModeConfig (tag : Byte) (s : State) : Safe s (workModeConfig tag s) := by
  unfold workModeConfig
  split
  · exact .of_view rfl
  · split
    next opened =>
      have config : Safe s ((s.setRunning false).reply tag .mode (.plain .ok [])) := by
        refine ⟨rfl, rfl, id, fun _ right => lampsRight_iff.2 ⟨⟨right.lamps, fun _ a => ?_⟩,
          fun _ => rfl, fun _ => rfl⟩⟩
        obtain ⟨one, two⟩ : s.svc.houses.one.state = .opened ∧ s.svc.houses.two.state = .opened := by
          simpa [housesOpen] using opened
        cases a
        · exact one
        · exact two
      exact config.then_view (view_blocksEnterConfig _)
    · exact .of_view rfl

theorem safe_workConfigWrite (tag : Byte) (i : Nat) (r : Option ConfigRecord) (s : State) :
    Safe s (workConfigWrite tag i r s) := by
  unfold workConfigWrite
  split
  · exact .of_view rfl
  next accepted =>
    have config : s.control.running = false := by
      unfold writeRefusal at accepted
      split at accepted
      · cases accepted
      next config => simpa using config
    exact (Safe.of_configView (configView_takeRecord s i _) config).then_view rfl
  · exact .of_view rfl

/-! ## The settings memory (R189-R192) -/

theorem begunImage_wf (m : Memory) (c : Configuration) (h : Memory.wf m = true) :
    Memory.wf (begunImage m c) = true := writeAll_wf _ _ _ (writeAll_wf _ _ _ h)

theorem writtenImage_wf (m : Memory) (c : Configuration) (b : List Byte) (h : Memory.wf m = true) :
    Memory.wf (writtenImage m c b) = true := writeAll_wf _ _ _ (writeAll_wf _ _ _ h)

theorem safe_endSettings (r : SettingsResult) (s : State) : Safe s (endSettings r s) :=
  .of_control ⟨rfl, rfl, rfl, id, fun l => by cases l⟩ rfl rfl

theorem safe_workSettingsSave (tag : Byte) (s : State) : Safe s (workSettingsSave tag s) := by
  unfold workSettingsSave
  split
  · exact .of_view rfl
  · exact .of_control ⟨rfl, rfl, rfl, begunImage_wf _ _, fun l => by cases l⟩ rfl rfl

theorem safe_settingsSaveDone (b : List Byte) (s : State) : Safe s (settingsSaveDone b s) := by
  unfold settingsSaveDone
  split
  next tag copy _ =>
    extract_lets fault result s1
    have image : Memory.wf s.control.memory = true → Memory.wf s1.control.memory = true := fun h => by
      show Memory.wf (if fault then s.control.memory else _) = true
      split
      · exact h
      · exact writtenImage_wf _ copy b h
    have write : Safe s s1 := .of_control ⟨rfl, rfl, rfl, image, .inl⟩ rfl rfl
    exact (write.then_view (view_reply _ _ _ s1)).trans (safe_endSettings result _)
  · exact .refl s

theorem safe_workSettingsLoad (tag : Byte) (s : State) : Safe s (workSettingsLoad tag s) := by
  unfold workSettingsLoad
  split
  · exact .of_view rfl
  next config =>
    split
    · exact .of_view rfl
    · exact .of_control ⟨rfl, rfl, rfl, id, fun _ => .inr (by simpa using config)⟩ rfl rfl

theorem safe_pageWriteTimeout (s : State) : Safe s (pageWriteTimeout s) := by
  unfold pageWriteTimeout
  split
  · exact .of_control ⟨rfl, rfl, rfl, id, .inl⟩ rfl rfl
  · exact .refl s

/-- A change that is safe where the lamps are right, as they show the part in CONFIG while a load is in
progress. -/
theorem Safe.of_loading {s t : State} (load : loading s.control = true)
    (pending : t.pending = s.pending) (holding : t.control.holding = s.control.holding)
    (memory : t.control.memory = s.control.memory)
    (h : s.control.running = false → Safe s t) : Safe s t where
  pending := pending
  holding := holding
  memory := by rw [memory]; exact id
  lamps up right := (h (right.load load)).lamps up right

theorem view_firstRound (s : State) : view (firstRound s) = view s := by
  unfold firstRound
  split
  · simp
  · rfl

/-- What a load in progress leaves whether the part is in CONFIG or not: all but the configuration and
the operating state. -/
def loadView (s : State) := (s.pending, s.control.holding, s.control.memory)

theorem loadView_of_view {s t : State} (h : view t = view s) : loadView t = loadView s :=
  congrArg (fun v => (v.1, v.2.1.holding, v.2.1.memory)) h

theorem loadView_of_configView {s t : State} (h : configView t = configView s) :
    loadView t = loadView s := congrArg (fun v => (v.1, v.2.1.holding, v.2.1.memory)) h

theorem loadView_enterLoaded (s : State) : loadView (enterLoaded s) = loadView s := by
  unfold enterLoaded
  split
  · have v := loadView_of_view (view_blocksEnterRun (s.setRunning true))
    exact v
  · rfl

/-- A load that ends in CONFIG: it enters RUN (R194) or stays. -/
theorem safe_enterLoaded (s : State) : Safe s (enterLoaded s) := by
  unfold enterLoaded
  split
  · have v := view_blocksEnterRun (s.setRunning true)
    have pending := pending_of_view v
    have control := control_of_view v
    have lamps := lampView_of_view v
    have holding := congrArg (fun c : PartControl => c.holding) control
    have memory := congrArg (fun c : PartControl => c.memory) control
    have entrances := congrArg (fun c : PartControl => c.cfg.entrances) control
    have running := congrArg (fun c : PartControl => c.running) control
    refine .enterRun ?_ ?_ ?_ ?_ ?_ rfl ?_
    · exact pending
    · exact holding
    · exact memory
    · exact entrances
    · exact running
    · exact lamps
  · exact safe_endSettings _ s

theorem safe_startLoadDone (s : State) : Safe s (startLoadDone s) := by
  unfold startLoadDone
  split
  next load =>
    dsimp only
    have taken := configView_takeRecords 0 (readImage s.control).2 s
    refine Safe.then_view ?_ (view_firstRound _)
    have inLoad : loading s.control = true := by simp [loading, load]
    split
    · have same := (loadView_enterLoaded (takeRecords 0 (readImage s.control).2 s)).trans
        (loadView_of_configView taken)
      exact .of_loading inLoad (congrArg (·.1) same) (congrArg (·.2.1) same) (congrArg (·.2.2) same)
        fun config => (Safe.of_configView taken config).trans (safe_enterLoaded _)
    · exact safe_endSettings _ s
  · exact .refl s

theorem safe_settingsLoadDone (s : State) : Safe s (settingsLoadDone s) := by
  unfold settingsLoadDone
  split
  next tag load =>
    dsimp only
    have taken := configView_takeRecords 0 (readImage s.control).2 s
    have same := loadView_of_configView taken
    generalize takeRecords 0 (readImage s.control).2 s = u at taken same
    refine .of_loading (by simp [loading, load]) (congrArg (·.1) same) (congrArg (·.2.1) same)
      (congrArg (·.2.2) same) fun config => ?_
    exact ((Safe.of_configView taken config).then_view (view_reply _ _ _ u)).trans
      (safe_endSettings _ _)
  · exact .refl s

/-! ## The other works -/

theorem safe_workNoticeEnable (tag : Byte) (w : Word16) (s : State) :
    Safe s (workNoticeEnable tag w s) := by
  unfold workNoticeEnable
  split
  · exact .of_control ⟨rfl, rfl, rfl, id, .inl⟩ rfl rfl
  · exact .of_view rfl

theorem safe_workNoticeClear (tag : Byte) (w : Word16) (s : State) :
    Safe s (workNoticeClear tag w s) := by unfold workNoticeClear; split <;> exact .of_view rfl

theorem safe_workSilenceSet (tag : Byte) (n : Nat) (s : State) : Safe s (workSilenceSet tag n s) := by
  unfold workSilenceSet
  split
  · exact .of_view rfl
  · dsimp only
    split <;> exact .of_control ⟨rfl, rfl, rfl, id, .inl⟩ rfl rfl

theorem safe_workZoneSet (tag : Byte) (z l : Nat) (m : Option Bool) (s : State) :
    Safe s (workZoneSet tag z l m s) := by
  unfold workZoneSet
  split
  · split
    · exact .of_view rfl
    · refine Safe.then_view ?_ (view_reply _ _ _ _)
      unfold setLevel
      dsimp only
      split
      · exact .of_control ⟨rfl, rfl, rfl, id, .inl⟩ rfl rfl
      · exact .of_control ⟨rfl, rfl, rfl, id, .inl⟩ rfl rfl
  · exact .of_view rfl

theorem safe_workPollSet (tag : Byte) (w : Word16) (g : Nat) (s : State) :
    Safe s (workPollSet tag w g s) := by
  unfold workPollSet
  split
  · have cfg : Safe s (s.setCfg { s.control.cfg with
        supervision := { s.control.cfg.supervision with enables := w, gap := g * 10 } }) :=
      safe_setCfg rfl
    exact (cfg.then_view (view_applyPoll w (g * 10) s)).then_view (view_reply _ _ _ _)
  · exact .of_view rfl

theorem view_workModuleClear (tag : Byte) (n : Nat) (s : State) :
    view (workModuleClear tag n s) = view s := by
  unfold workModuleClear
  split
  · rfl
  · split <;> rfl

theorem view_workModuleRestore (tag : Byte) (n : Nat) (s : State) :
    view (workModuleRestore tag n s) = view s := by
  unfold workModuleRestore
  split
  · rfl
  · split
    · rw [view_reply, view_restoreModule]
    · rfl

theorem view_workAmpRead (tag : Byte) (m w : Nat) (s : State) : view (workAmpRead tag m w s) = view s := by
  unfold workAmpRead
  split
  · rfl
  · exact view_beginPass _ s

theorem view_workAmpWrite (tag : Byte) (m w : Nat) (v : Word16) (s : State) :
    view (workAmpWrite tag m w v s) = view s := by
  unfold workAmpWrite
  split
  · rfl
  · exact view_beginPass _ s

theorem safe_workCueGo (tag : Byte) (n : Nat) (s : State) : Safe s (workCueGo tag n s) := by
  unfold workCueGo
  split
  · exact .of_view rfl
  · split
    · exact safe_arriveCue _ _ s
    · exact .of_view rfl

theorem safe_workCueSet (tag : Byte) (n p : Nat) (s : State) : Safe s (workCueSet tag n p s) := by
  unfold workCueSet
  split
  · exact .of_view rfl
  · split
    · exact .of_view rfl
    · split
      · exact safe_arriveCue _ _ s
      · exact .of_view rfl

theorem view_workCueWrite (tag : Byte) (n k : Nat) (l : List (Option CueAction)) (s : State) :
    view (workCueWrite tag n k l s) = view s := by unfold workCueWrite; split <;> rfl

theorem view_workCueErase (tag : Byte) (n k : Nat) (s : State) :
    view (workCueErase tag n k s) = view s := by
  unfold workCueErase
  split
  · rfl
  · dsimp only
    split <;> rfl

theorem safe_workHouseClose (tag : Byte) (n : Nat) (f : Option Bool) (s : State) :
    Safe s (workHouseClose tag n f s) := by
  unfold workHouseClose
  split
  · rename_i a flag _
    split
    · exact .of_view rfl
    next open_ =>
      have run : s.control.running = true := by simpa using (not_or.1 open_).1
      refine Safe.then_view ?_ (view_reply _ _ _ _)
      unfold closeHouse
      dsimp only
      have seal_ : Safe s (s.serve (fun env sv => sealHouse env a sv)) :=
        .of_serve _ s (lit_sealHouse a run)
      refine Safe.then_view (Safe.then_view (Safe.then_view seal_ ?_)
        (view_serve (fun env sv => ?_) _)) (view_serve (lampView_judgeHoldings · a ·) _)
      · rfl
      · exact kept_engineHouseClosed (kept_lampView _) env a sv rfl
  · exact .of_view rfl

theorem safe_workHouseOpen (tag : Byte) (n : Nat) (s : State) : Safe s (workHouseOpen tag n s) := by
  unfold workHouseOpen
  split
  · exact .of_view rfl
  next a _ =>
    split
    · exact .of_view rfl
    · have opens : Safe s (s.serve (fun env sv => openHouse env a sv)) :=
        .of_serve _ s (lit_openHouse s.env a s.svc)
      exact opens.then_view ((view_reply _ _ _ _).trans (view_updCue _ a _))

/-- A request that a service decides: the lamps stay right when the service keeps them. -/
theorem safe_answerWith (tag : Byte) (kind : RequestKind) {f : Env → Services → Answer × Services}
    (s : State) (lit : Lit s.env s.svc → Lit s.env (f s.env s.svc).2) :
    Safe s (answerWith tag kind f s) := by
  have serves : Safe s { s with svc := (f s.env s.svc).2 } := .of_lit rfl rfl lit
  exact serves.then_view (view_reply tag kind (f s.env s.svc).1 _)

theorem safe_workAdmitOpen (tag : Byte) (n sec : Nat) (m : Option Bool) (s : State) :
    Safe s (workAdmitOpen tag n sec m s) := by
  unfold workAdmitOpen
  split
  · refine safe_answerWith _ _ s fun h => ?_
    unfold admitOpenAnswer
    split <;> exact lit_admitOpen _ _ _ _ _ _ h
  · exact .of_view rfl

theorem safe_workAdmitClose (tag : Byte) (n : Nat) (s : State) : Safe s (workAdmitClose tag n s) := by
  unfold workAdmitClose
  split
  · refine safe_answerWith _ _ s fun h => ?_
    unfold admitCloseAnswer
    split <;> exact lit_admitClose _ _ _ _ h
  · exact .of_view rfl

/-! ## Events -/

theorem view_silenceExpired (s : State) : view (silenceExpired s) = view s := by
  have lost (env : Env) (sv : Services) : lampView (abandonWhere .hostLost
      (fun sl => decide (0 < sl.toReceive)) (raise env .silence sv)) = lampView sv :=
    kept_abandonWhere (kept_lampView (lampView sv)) _ _ _ (lampView_raise env .silence sv)
  unfold silenceExpired
  split
  · exact (view_serve lost _).trans (view_updLink s _)
  · rfl

theorem view_testExpired (z : ZoneId) (src : TestSource) (s : State) :
    view (testExpired z src s) = view s := by
  unfold testExpired
  split
  · exact view_serve (fun env sv => kept_endTest (kept_lampView _) env src z sv rfl) s
  · rfl

theorem view_overrideAsserted (s : State) : view (overrideAsserted s) = view s := by
  unfold overrideAsserted
  split
  · rfl
  · refine (view_serve (fun env sv => ?_) _).trans rfl
    split
    · exact kept_overrideClaim (kept_lampView _) env _ rfl
    · rfl

theorem view_overrideReleased (s : State) : view (overrideReleased s) = view s := by
  unfold overrideReleased
  split
  · refine (view_serve (fun env sv => ?_) _).trans rfl
    split
    · exact kept_releaseAll (kept_lampView _) env .override _ rfl
    · rfl
  · rfl

theorem view_pollGapExpired (s : State) : view (pollGapExpired s) = view s := by
  unfold pollGapExpired
  split
  · simp
  · rfl

theorem safe_cuePressed (a : Aud) (s : State) : Safe s (cuePressed a s) := by
  unfold cuePressed
  dsimp only
  split
  · split
    · exact .of_view rfl
    · refine Safe.trans (.of_view ?_) (safe_arriveCue a _ _)
      rfl
  · exact .refl s

theorem view_cueReleased (a : Aud) (s : State) : view (cueReleased a s) = view s := by
  unfold cueReleased; split <;> rfl

theorem view_cueSettled (a : Aud) (b : Bool) (s : State) : view (cueSettled a b s) = view s := by
  unfold cueSettled; split <;> rfl

theorem safe_levelUpdated (a : Aud) (l : List (Option Int)) (s : State) :
    Safe s (levelUpdated a l s) := by
  unfold levelUpdated
  dsimp only
  split
  · split
    · exact .of_lit rfl rfl (lit_musicResumed s.env a _ s.svc)
    · exact .of_view rfl
  · exact .of_view rfl

theorem view_openTimerExpired (a : Aud) (s : State) : view (openTimerExpired a s) = view s := by
  unfold openTimerExpired
  split
  · exact view_serve (fun env sv => kept_gapOpened (kept_lampView _) env a sv rfl) _
  · rfl

theorem view_setLiveKey (key : LiveInput) (f : FilterState) (b : Bool) (s : State) :
    view (setLiveKey key f b s) = view s := by cases key <;> rfl

theorem view_liveKeyPressed (key : LiveInput) (s : State) : view (liveKeyPressed key s) = view s := by
  unfold liveKeyPressed
  split
  · exact (view_serve (fun env sv => kept_livePress (kept_lampView _) env key sv rfl) _).trans
      (view_setLiveKey key _ _ s)
  · rfl

theorem view_liveKeyReleased (key : LiveInput) (s : State) :
    view (liveKeyReleased key s) = view s := by
  unfold liveKeyReleased
  split
  · exact (view_serve (fun env sv => kept_liveRelease (kept_lampView _) env key sv rfl) _).trans
      (view_setLiveKey key _ _ s)
  · rfl

theorem view_liveKeySettled (key : LiveInput) (s : State) : view (liveKeySettled key s) = view s := by
  unfold liveKeySettled
  split
  · exact view_setLiveKey key _ _ s
  · rfl

theorem safe_entranceEvent (e : EntranceId) (b : Bool) (s : State) : Safe s (entranceEvent e b s) := by
  unfold entranceEvent
  split
  · exact .refl s
  · have line : Safe s (setSensor e b s) := .of_view (view_svc (lampView_putEntrance e _ s.svc rfl))
    exact line.trans (.of_serve _ _ (lit_sensorEvent _ e b _))

end Sys2Proof.Proofs.Steady
end

section
/-! PROOFS. Every command and every step: what they do to the waiting commands, the settings memory and
the lamps (O3, O58, O59). -/

namespace Sys2Proof.Proofs.Steady

open Sys2Proof Sys2Proof.Machine Sys2Proof.Laws

/-! ## The works that a BODY asks for (spec/09 section 9.1) -/

theorem safe_answer (tag : Byte) (kind : RequestKind) {f : Env → Services → Answer × Services}
    (hf : ∀ env sv, lampView (f env sv).2 = lampView sv) (s : State) :
    Safe s (answerWith tag kind f s) := .of_view (view_answerWith tag kind hf s)

theorem safe_workTestStart (tag : Byte) (n : Nat) (s : State) : Safe s (workTestStart tag n s) :=
  safe_answer _ _ (fun env sv => kept_startTest (kept_lampView _) env .link n sv rfl) s

theorem safe_workTestStop (tag : Byte) (n : Nat) (s : State) : Safe s (workTestStop tag n s) :=
  safe_answer _ _ (fun env sv => kept_stopTest (kept_lampView _) env .link n sv rfl) s

theorem safe_workFeed (tag : Byte) (i o f : Nat) (b : Block) (s : State) :
    Safe s (workFeed tag i o f b s) :=
  safe_answer _ _ (fun env sv => kept_feedSlot (kept_lampView _) env i o f b sv rfl) s

theorem safe_workClipArm (tag : Byte) (n id len : Nat) (c : Option StartCondition) (t : Nat)
    (s : State) : Safe s (workClipArm tag n id len c t s) :=
  safe_answer _ _ (fun env sv => lampView_clipArm env n id len c t sv) s

theorem safe_workClipDisarm (tag : Byte) (n id : Nat) (s : State) : Safe s (workClipDisarm tag n id s) :=
  safe_answer _ _ (fun env sv => kept_clipDisarm (kept_lampView _) env n id sv rfl) s

theorem safe_workClipStart (tag : Byte) (n : Nat) (s : State) : Safe s (workClipStart tag n s) :=
  safe_answer _ _ (fun env sv => lampView_clipStart env n sv) s

theorem safe_workClipStop (tag : Byte) (n : Nat) (s : State) : Safe s (workClipStop tag n s) :=
  safe_answer _ _ (fun env sv => kept_clipStop (kept_lampView _) env n sv rfl) s

theorem safe_workModeScripted (tag : Byte) (n : Nat) (s : State) : Safe s (workModeScripted tag n s) :=
  safe_answer _ _ (fun env sv => kept_modeScripted (kept_lampView _) env n sv rfl) s

theorem safe_workModeStanding (tag : Byte) (n id len : Nat) (s : State) :
    Safe s (workModeStanding tag n id len s) :=
  safe_answer _ _ (fun env sv => kept_modeStanding (kept_lampView _) env n id len sv rfl) s

theorem safe_workCallPost (tag : Byte) (f : CallFields) (s : State) : Safe s (workCallPost tag f s) :=
  safe_answer _ _ (fun env sv => lampView_callPost env f sv) s

theorem safe_workCallRelease (tag : Byte) (id : Nat) (s : State) : Safe s (workCallRelease tag id s) :=
  safe_answer _ _ (fun _ sv => kept_callRelease (kept_lampView _) id sv rfl) s

theorem safe_workCallEnd (tag : Byte) (id : Nat) (s : State) : Safe s (workCallEnd tag id s) :=
  safe_answer _ _ (fun env sv => kept_callEnd (kept_lampView _) env id sv rfl) s

theorem safe_workCallCancel (tag : Byte) (id : Nat) (s : State) : Safe s (workCallCancel tag id s) :=
  safe_answer _ _ (fun env sv => kept_callCancel (kept_lampView _) env id sv rfl) s

theorem safe_workCallFinished (tag : Byte) (s : State) : Safe s (workCallFinished tag s) :=
  safe_answer _ _ (fun _ sv => lampView_takeFinished sv) s

theorem safe_workEntranceClear (tag : Byte) (n : Nat) (s : State) :
    Safe s (workEntranceClear tag n s) :=
  safe_answer _ _ (fun _ sv => lampView_clearLatches n sv) s

theorem safe_workMode (tag : Byte) (n : Nat) (s : State) : Safe s (workMode tag n s) := by
  match n with
  | 0 => exact safe_workModeConfig tag s
  | 1 => exact safe_workModeRun tag s
  | _ + 2 => exact .of_view rfl

theorem safe_workTest (tag : Byte) (z n : Nat) (s : State) : Safe s (workTest tag z n s) := by
  match n with
  | 0 => exact safe_workTestStop tag z s
  | 1 => exact safe_workTestStart tag z s
  | _ + 2 => exact .of_view rfl

theorem safe_lowWork (kind : RequestKind) (tag : Byte) (b : List Byte) (w : State → State)
    (e : lowWork kind tag b = some w) (s : State) : Safe s (w s) := by
  unfold lowWork at e
  split at e
  case h_7 =>
    rw [← ofLength_some e]
    exact safe_workMode tag _ s
  case h_8 =>
    unfold configBody at e
    split at e
    · cases e
    · split at e
      · rw [← ofLength_some e]; exact safe_workConfigWrite tag _ _ s
      · split at e
        · cases e; exact safe_workConfigWrite tag _ _ s
        · cases e
  case h_14 =>
    rw [← ofLength_some e]
    exact safe_workTest tag _ _ s
  case h_21 => cases e
  all_goals rw [← ofLength_some e]
  · exact .of_view rfl
  · exact .of_view rfl
  · exact safe_workNoticeEnable tag _ s
  · exact .of_view rfl
  · exact safe_workNoticeClear tag _ s
  · exact safe_workSilenceSet tag _ s
  · exact .of_view rfl
  · exact safe_workSettingsSave tag s
  · exact safe_workSettingsLoad tag s
  · exact safe_workZoneSet tag _ _ _ s
  · exact .of_view rfl
  · exact safe_workPollSet tag _ _ s
  · exact .of_view rfl
  · exact .of_view (view_workModuleClear tag _ s)
  · exact .of_view (view_workModuleRestore tag _ s)
  · exact .of_view (view_workAmpRead tag _ _ s)
  · exact .of_view (view_workAmpWrite tag _ _ _ s)

theorem safe_midWork (kind : RequestKind) (tag : Byte) (b : List Byte) (w : State → State)
    (e : midWork kind tag b = some w) (s : State) : Safe s (w s) := by
  unfold midWork at e
  split at e
  case h_1 =>
    unfold cueWriteBody at e
    split at e
    · cases e
    · dsimp only at e
      split at e
      · obtain ⟨l, -, rfl⟩ := Option.map_eq_some_iff.1 e
        exact .of_view (view_workCueWrite tag _ _ _ s)
      · cases e
        exact .of_view (view_workCueWrite tag _ _ _ s)
  case h_9 => rw [← ofLength_some e]; exact safe_workFeed tag _ _ _ _ s
  case h_11 => rw [← ofLength_some e]; exact safe_workClipArm tag _ _ _ _ _ s
  case h_15 =>
    unfold channelModeBody at e
    split at e <;> cases e
    · exact safe_workModeScripted tag _ s
    · exact safe_workModeStanding tag _ _ _ s
    · exact .of_view rfl
    · exact .of_view rfl
  case h_17 => cases e
  all_goals rw [← ofLength_some e]
  · exact .of_view (view_workCueErase tag _ _ s)
  · exact .of_view rfl
  · exact safe_workCueGo tag _ s
  · exact safe_workCueSet tag _ _ s
  · exact .of_view rfl
  · exact .of_view rfl
  · exact .of_view rfl
  · exact .of_view rfl
  · exact safe_workClipStart tag _ s
  · exact safe_workClipStop tag _ s
  · exact safe_workClipDisarm tag _ _ s
  · exact .of_view rfl

theorem safe_highWork (kind : RequestKind) (tag : Byte) (b : List Byte) (w : State → State)
    (e : highWork kind tag b = some w) (s : State) : Safe s (w s) := by
  unfold highWork at e
  split at e
  case h_1 =>
    unfold callPostBody at e
    split at e
    · rw [← ofLength_some e]
      exact safe_workCallPost tag _ s
    · split at e
      · cases e; exact .of_view rfl
      · cases e
  case h_13 => cases e
  all_goals rw [← ofLength_some e]
  · exact safe_workCallRelease tag _ s
  · exact safe_workCallEnd tag _ s
  · exact safe_workCallCancel tag _ s
  · exact .of_view rfl
  · exact safe_workCallFinished tag s
  · exact safe_workHouseOpen tag _ s
  · exact safe_workHouseClose tag _ _ s
  · exact safe_workAdmitOpen tag _ _ _ s
  · exact safe_workAdmitClose tag _ s
  · exact .of_view rfl
  · exact safe_workEntranceClear tag _ s

theorem safe_bodyWork (kind : RequestKind) (tag : Byte) (b : List Byte) (w : State → State)
    (e : bodyWork kind tag b = some w) (s : State) : Safe s (w s) := by
  unfold bodyWork at e
  split at e
  · exact safe_lowWork kind tag b w e s
  · split at e
    · exact safe_midWork kind tag b w e s
    · exact safe_highWork kind tag b w e s

/-! ## Acceptance, the receiver, the transmitter -/

theorem safe_accept (tag : Byte) (kind : RequestKind) {w : State → State} (hw : ∀ s, Safe s (w s))
    (s : State) : Safe s (accept tag kind w s) := by
  unfold accept
  split
  · exact .of_view rfl
  · have joined : Safe s (joinList tag kind s) := .of_view rfl
    exact (joined.trans (hw _)).then_view (view_settled _)

theorem safe_validFrame (s : State) : Safe s (validFrame s) := .of_view rfl

theorem safe_takeFrame (f : List Byte) (s : State) : Safe s (takeFrame f s) := by
  have valid := safe_validFrame s
  unfold takeFrame
  dsimp only
  split
  · refine valid.trans ?_
    unfold acceptFrame
    split
    · exact .of_view rfl
    · split
      · exact .of_view rfl
      next work e => exact safe_accept _ _ (safe_bodyWork _ _ _ work e) _
  · exact valid

theorem safe_hunt (n : Nat) (kept : List KeptByte) (s : State) : Safe s (hunt n kept s) := by
  induction n generalizing kept s with
  | zero => exact .of_view rfl
  | succ n ih =>
    cases kept with
    | nil => exact .of_view rfl
    | cons first rest =>
      unfold hunt
      split
      · exact ih _ s
      · exact .of_view rfl
      · exact (safe_takeFrame _ s).trans (ih _ _)

theorem safe_linkByte (b : Byte) (f : Bool) (s : State) : Safe s (linkByte b f s) := by
  unfold linkByte
  dsimp only
  split
  · exact safe_hunt _ _ s
  · exact safe_hunt _ _ s

/-! ## Every command -/

/-- What every command keeps. -/
structure Good (s t : State) : Prop where
  pending : t.pending = s.pending
  memory : Memory.wf s.control.memory = true → Memory.wf t.control.memory = true
  lamps : LampsRight s → LampsRight t

theorem Good.refl (s : State) : Good s s := ⟨rfl, id, id⟩

theorem Good.then_view {s t u : State} (h : Good s t) (v : view u = view t) : Good s u := by
  have control := control_of_view v
  refine ⟨(pending_of_view v).trans h.pending, fun m => by rw [control]; exact h.memory m,
    fun right => ?_⟩
  obtain ⟨lit, load, held⟩ := lampsRight_iff.1 (h.lamps right)
  have lit' : Lit u.env u.svc := Lit.of_env (e := t.env)
    (congrArg (·.cfg.entrances) control) (fun r => (congrArg (·.running) control).symm.trans r)
    (lit.of_view (lampView_of_view v))
  exact lampsRight_iff.2 ⟨lit', by rw [control]; exact load, by rw [control]; exact held⟩

theorem Good.of_view {s t : State} (v : view t = view s) : Good s t := (Good.refl s).then_view v

theorem Safe.good {s t : State} (h : Safe s t) (up : s.control.holding = false) : Good s t :=
  ⟨h.pending, h.memory, h.lamps up⟩

theorem good_of_request {tag : Byte} {kind : RequestKind} {w : State → State} {s t : State}
    (e : request tag kind w s = .next t) (hw : ∀ s, Safe s (w s)) : Good s t := by
  unfold request at e
  cases e
  split
  · exact .refl s
  next up =>
    have up : s.control.holding = false := by simpa using up
    split
    · exact ((safe_validFrame s).trans (safe_accept tag kind hw _)).good up
    · exact (safe_validFrame s).good up

theorem good_of_event {w : State → State} {s t : State} (e : event w s = .next t)
    (hw : ∀ s, Safe s (w s)) : Good s t := by
  unfold event at e
  cases e
  split
  · exact .refl s
  next up => exact ((hw s).then_view (view_settled _)).good (by simpa using up)

/-- An event that a service takes and that leaves lamps and house states. -/
theorem good_of_service {f : Env → Services → Services} {s t : State}
    (e : event (fun s => s.serve f) s = .next t) (hf : ∀ env sv, lampView (f env sv) = lampView sv) :
    Good s t := good_of_event e fun s => .of_view (view_serve hf s)

/-- An event that a service takes and that keeps the lamps right. -/
theorem good_of_house {f : Env → Services → Services} {s t : State}
    (e : event (fun s => s.serve f) s = .next t) (hf : ∀ env sv, Lit env sv → Lit env (f env sv)) :
    Good s t := good_of_event e fun s => .of_serve f s (hf s.env s.svc)

/-- R193: in reset the lamps are OFF, the houses OPEN and the part in CONFIG. -/
theorem lampsRight_beginReset (cause : ResetCause) (s : State) : LampsRight (beginReset cause s) := by
  refine lampsRight_iff.2 ⟨(lit_config_iff rfl).2 ⟨fun e => ?_, fun a => by cases a <;> rfl⟩,
    fun _ => rfl, fun _ => rfl⟩
  show (look (Vector.replicate 12 Entrance.fresh) e).lamp = .off
  rw [look_replicate]
  rfl

theorem good_beginReset (cause : ResetCause) (s : State) : Good s (beginReset cause s) :=
  ⟨rfl, id, fun _ => lampsRight_beginReset cause s⟩

/-- R193, R194: the end of a reset; a start-up load begins in CONFIG. -/
theorem good_leaveReset (m1 m0 : Bool) {s : State} (held : s.control.holding = true) :
    Good s (leaveReset m1 m0 s) := by
  unfold leaveReset
  extract_lets s1 pins s2
  have lampsOf {t : State} (lamps : lampView t.svc = lampView s.svc)
      (running : t.control.running = s.control.running) (right : LampsRight s) : LampsRight t := by
    have config := right.held held
    have lit := (lit_config_iff config).1 (lampsRight_iff.1 right).1
    exact lampsRight_iff.2 ⟨(lit_config_iff (running.trans config)).2
      ⟨fun e => (lamp_of_lampView lamps e).trans (lit.1 e),
        fun a => (houseState_of_lampView lamps a).trans (lit.2 a)⟩,
      fun _ => running.trans config, fun _ => running.trans config⟩
  split
  · exact ⟨rfl, id, lampsOf rfl rfl⟩
  · have v := view_beginRound s2
    have pending := pending_of_view v
    have control := control_of_view v
    have lamps := lampView_of_view v
    have running := congrArg (fun c : PartControl => c.running) control
    refine ⟨?_, fun m => ?_, lampsOf ?_ ?_⟩
    · exact pending
    · rw [control]; exact m
    · exact lamps
    · exact running

theorem good_frameSent (s : State) : Good s (frameSent s) := by
  unfold frameSent
  split
  · exact .refl s
  · exact .of_view rfl
  · dsimp only
    split
    · exact ⟨rfl, id, fun _ => lampsRight_beginReset _ _⟩
    · exact .of_view rfl
  · exact .of_view rfl
  · exact .of_view rfl

theorem exec_good (c : Instr) (s t : State) (e : exec c s = .next t) : Good s t := by
  have row : ∀ c, commandRow c s = .next t → Good s t := fun c e =>
    good_of_event e fun s => by
      split
      · exact safe_endLine _ s
      · exact .refl s
  have K := fun sv => kept_lampView (lampView sv)
  cases c with
  | powerOn => cases e; exact good_beginReset _ s
  | supplyDip => cases e; exact good_beginReset _ s
  | resetLine => cases e; exact ⟨rfl, id, fun _ => lampsRight_beginReset _ _⟩
  | resetEnd x y =>
    cases e
    split
    next held =>
      have leaves := (good_leaveReset x y (s := { s with pins := { s.pins with rst := true } })
        held).then_view (view_settled _)
      exact ⟨leaves.pending, leaves.memory,
        fun right => leaves.lamps ⟨right.lamps, right.config, right.load, right.held⟩⟩
    · exact .refl s
  | startLoadDone => exact good_of_event e safe_startLoadDone
  | linkByteReceived b f => exact good_of_event e (safe_linkByte b f)
  | frameTimeout =>
    simp only [exec, execFrameTimeout] at e
    exact good_of_event e fun s => by
      split
      · exact .refl s
      · exact safe_hunt _ _ s
  | frameSent =>
    cases e
    split
    · exact .refl s
    · exact good_frameSent s
  | silenceTimerExpiry => exact good_of_event e fun s => .of_view (view_silenceExpired s)
  | ident tag => exact good_of_request e fun s => .of_view rfl
  | reset tag => exact good_of_request e fun s => .of_view rfl
  | noticeEnable tag w => exact good_of_request e (safe_workNoticeEnable tag w)
  | noticeResume tag => exact good_of_request e fun s => .of_view rfl
  | noticeClear tag w => exact good_of_request e (safe_workNoticeClear tag w)
  | silenceSet tag n => exact good_of_request e (safe_workSilenceSet tag n)
  | modeRun tag => exact good_of_request e (safe_workModeRun tag)
  | modeConfig tag => exact good_of_request e (safe_workModeConfig tag)
  | configWrite tag i r => exact good_of_request e (safe_workConfigWrite tag i r)
  | configRead tag i => exact good_of_request e fun s => .of_view rfl
  | settingsSave tag => exact good_of_request e (safe_workSettingsSave tag)
  | settingsSaveDone b => exact good_of_event e (safe_settingsSaveDone b)
  | settingsLoad tag => exact good_of_request e (safe_workSettingsLoad tag)
  | settingsLoadDone => exact good_of_event e safe_settingsLoadDone
  | settingsPageWriteTimeout => exact good_of_event e safe_pageWriteTimeout
  | zoneSet tag z l m => exact good_of_request e (safe_workZoneSet tag z l m)
  | zoneStatus tag z => exact good_of_request e fun s => .of_view rfl
  | testToneStart tag z => exact good_of_request e (safe_workTestStart tag z)
  | testToneStop tag z => exact good_of_request e (safe_workTestStop tag z)
  | testLimitExpiry z src => exact good_of_event e fun s => .of_view (view_testExpired z src s)
  | overrideAsserted => exact good_of_event e fun s => .of_view (view_overrideAsserted s)
  | overrideReleased => exact good_of_event e fun s => .of_view (view_overrideReleased s)
  | pollSet tag w g => exact good_of_request e (safe_workPollSet tag w g)
  | moduleStatus tag m => exact good_of_request e fun s => .of_view rfl
  | moduleClear tag m => exact good_of_request e fun s => .of_view (view_workModuleClear tag m s)
  | moduleRestore tag m => exact good_of_request e fun s => .of_view (view_workModuleRestore tag m s)
  | ampRead tag m w => exact good_of_request e fun s => .of_view (view_workAmpRead tag m w s)
  | ampWrite tag m w v => exact good_of_request e fun s => .of_view (view_workAmpWrite tag m w v s)
  | busTransactionEnd w => exact good_of_event e fun s => .of_view (view_busEnd _ s)
  | busAnswerTimeout => exact good_of_event e fun s => .of_view (view_busEnd _ s)
  | pollGapExpiry => exact good_of_event e fun s => .of_view (view_pollGapExpired s)
  | cuePress a => exact good_of_event e (safe_cuePressed a)
  | cueLineRelease a => exact good_of_event e fun s => .of_view (view_cueReleased a s)
  | lockoutExpiry a =>
    simp only [exec, execLockoutExpiry] at e
    exact good_of_event e fun s => .of_view rfl
  | cueGo tag a => exact good_of_request e (safe_workCueGo tag a)
  | cueSet tag a p => exact good_of_request e (safe_workCueSet tag a p)
  | cueWrite tag a n l => exact good_of_request e fun s => .of_view (view_workCueWrite tag a n l s)
  | cueErase tag a n => exact good_of_request e fun s => .of_view (view_workCueErase tag a n s)
  | cueRead tag a n => exact good_of_request e fun s => .of_view rfl
  | cueStatus tag a => exact good_of_request e fun s => .of_view rfl
  | captureRead tag a => exact good_of_request e fun s => .of_view rfl
  | levelUpdate a l => exact good_of_event e (safe_levelUpdated a l)
  | openTimerExpiry a => exact good_of_event e fun s => .of_view (view_openTimerExpired a s)
  | gapStatus tag a => exact good_of_request e fun s => .of_view rfl
  | feed tag i o f b => exact good_of_request e (safe_workFeed tag i o f b)
  | streamStatus tag => exact good_of_request e fun s => .of_view rfl
  | blockPlayed i => exact good_of_service e fun env sv => kept_blockPlayed (K sv) env i sv rfl
  | starveTimerExpiry i => exact good_of_service e fun _ sv => kept_starveExpired (K sv) i sv rfl
  | liveKeyPress k => exact good_of_event e fun s => .of_view (view_liveKeyPressed k s)
  | liveKeyRelease k => exact good_of_event e fun s => .of_view (view_liveKeyReleased k s)
  | clipArm tag d id len c t => exact good_of_request e (safe_workClipArm tag d id len c t)
  | clipDisarm tag d id => exact good_of_request e (safe_workClipDisarm tag d id)
  | clipStart tag d => exact good_of_request e (safe_workClipStart tag d)
  | clipStop tag d => exact good_of_request e (safe_workClipStop tag d)
  | channelModeScripted tag d => exact good_of_request e (safe_workModeScripted tag d)
  | channelModeStanding tag d id len => exact good_of_request e (safe_workModeStanding tag d id len)
  | channelStatus tag d => exact good_of_request e fun s => .of_view rfl
  | latestStartPassed d =>
    simp only [exec, execLatestStartPassed] at e
    exact good_of_event e fun s => .of_view (by
      split
      · exact view_serve (fun env sv => kept_latestPassed (K sv) env d sv rfl) s
      · rfl)
  | resumeLimitExpiry d =>
    exact good_of_service e fun env sv => kept_resumeLimitExpired (K sv) env d sv rfl
  | callPost tag f => exact good_of_request e (safe_workCallPost tag f)
  | callRelease tag i => exact good_of_request e (safe_workCallRelease tag i)
  | callEnd tag i => exact good_of_request e (safe_workCallEnd tag i)
  | callCancel tag i => exact good_of_request e (safe_workCallCancel tag i)
  | callStatus tag i => exact good_of_request e fun s => .of_view rfl
  | callFinished tag => exact good_of_request e (safe_workCallFinished tag)
  | callExpiry i => exact good_of_service e fun env sv => kept_callExpired (K sv) env i sv rfl
  | spacingExpiry i => exact good_of_service e fun _ sv => kept_spacingExpired (K sv) i sv rfl
  | breakExpiry i => exact good_of_service e fun env sv => kept_breakExpired (K sv) env i sv rfl
  | micTimerExpiry i => exact good_of_service e fun env sv => kept_micExpired (K sv) env i sv rfl
  | chimeEnd o => exact good_of_service e (lampView_chimeEnded o)
  | entranceSensorEvent x b => exact good_of_event e (safe_entranceEvent x b)
  | houseClose tag a f => exact good_of_request e (safe_workHouseClose tag a f)
  | houseOpen tag a => exact good_of_request e (safe_workHouseOpen tag a)
  | admitOpen tag a n m => exact good_of_request e (safe_workAdmitOpen tag a n m)
  | admitClose tag a => exact good_of_request e (safe_workAdmitClose tag a)
  | windowExpiry a => exact good_of_house e fun env sv => lit_windowExpired env a sv
  | graceExpiry a => exact good_of_house e fun env sv => lit_graceExpired env a sv
  | entranceStatus tag a => exact good_of_request e fun s => .of_view rfl
  | entranceClear tag x => exact good_of_request e (safe_workEntranceClear tag x)
  | consoleIdleExpiry =>
    simp only [exec, execConsoleIdleExpiry] at e
    exact good_of_event e fun s => .of_view (by split <;> rfl)
  | consoleCharacter c f => exact good_of_event e (safe_consoleCharacter c f)
  | consoleStatus => exact row _ e
  | consoleZoneStatus z => exact row _ e
  | consoleModuleStatus m => exact row _ e
  | consoleTestStart z => exact row _ e
  | consoleTestStop z => exact row _ e
  | softCue a => exact row _ e
  | consoleAmpRead m w => exact row _ e
  | cueLineSettled a b => exact good_of_event e fun s => .of_view (view_cueSettled a b s)
  | liveKeySettled k => exact good_of_event e fun s => .of_view (view_liveKeySettled k s)

/-- Every command answers a next state: no arm of `exec` faults or refuses (log 24). -/
theorem exec_goesOn (c : Instr) (s : State) : goesOn (exec c s) := by
  cases c <;> exact ⟨_, rfl⟩

/-! ## The millisecond -/

theorem lampView_tick (sv : Services) : lampView sv.tick = lampView sv := rfl

theorem view_sampleFast (s : State) : view (sampleFast s) = view s := by
  unfold sampleFast; split <;> rfl

theorem look_ofFn {α : Type} {n : Nat} (f : Fin n → α) (i : Fin n) : look (Vector.ofFn f) i = f i := by
  simp [look]

theorem view_sampleSlow (s : State) : view (sampleSlow s) = view s := by
  unfold sampleSlow
  split
  · refine congrArg (fun l => (s.pending, s.control, l)) (lampView_ext (fun e => ?_) fun _ => rfl)
    rw [look_ofFn]
  · rfl

/-- A millisecond puts commands into the queue and leaves lamps and memory to the works left to do. -/
theorem good_tick (s : State) : (Memory.wf s.control.memory = true →
      Memory.wf (tick s).control.memory = true) ∧ (LampsRight s → LampsRight (tick s)) := by
  unfold tick
  split
  · exact ⟨id, id⟩
  next up =>
    have up : s.control.holding = false := by simpa using up
    have finished : Safe s (finishWork s) := (((safe_resumeFiring .one s).trans
      (safe_resumeFiring .two _))).then_view (view_settled _)
    have counted : view (sampleSlow (sampleFast (finishWork s).count)) = view (finishWork s) :=
      (view_sampleSlow _).trans ((view_sampleFast _).trans rfl)
    have good := (finished.then_view counted).good up
    exact ⟨good.memory, fun right => ⟨(good.lamps right).lamps, (good.lamps right).config,
      (good.lamps right).load, (good.lamps right).held⟩⟩

theorem step_good {s t : State} (e : step s = .next t) : (Memory.wf s.control.memory = true →
      Memory.wf t.control.memory = true) ∧ (LampsRight s → LampsRight t) := by
  unfold step at e
  split at e
  · cases e
    exact good_tick s
  next c rest _ =>
    have good := exec_good c _ t e
    exact ⟨good.memory, fun right => good.lamps ⟨right.lamps, right.config, right.load, right.held⟩⟩

theorem step_goesOn (s : State) : goesOn (step s) := by
  unfold step
  split
  · exact ⟨_, rfl⟩
  · exact exec_goesOn _ _

/-- Settles O58: every command is `Good`, and so is a millisecond. -/
theorem stepsKeepTheLamps : Obligations.StepsKeepTheLamps := fun _ _ right e => (step_good e).2 right

/-- Settles O59: the settings memory is written by a save only, through `Memory.write`. -/
theorem stepsKeepTheMemory : Obligations.StepsKeepTheMemory := fun _ _ wf e => (step_good e).1 wf

/-- Settles O3: no arm of `exec` stops the part, and no work looks at the waiting commands. -/
theorem stepsGoOnAndLeaveTheQueue : Obligations.StepsGoOnAndLeaveTheQueue :=
  ⟨step_goesOn, fun c s t e => (exec_good c s t e).pending⟩

end Sys2Proof.Proofs.Steady
end

section
/-! PROOFS. The link port's own requests (R172-R175, R178, R179), requests that are not accepted (R168),
the end of a frame (R171), resets (R193), and the two latches that a request empties (R35, R163). -/

namespace Sys2Proof.Proofs.Link

open Sys2Proof Sys2Proof.Machine Sys2Proof.Laws Sys2Proof.Proofs.Cues

/-! ## What a number names -/

@[simp] theorem zoneOf_val (z : ZoneId) : zoneOf z.val = some z := dif_pos z.isLt

@[simp] theorem entranceOf_val (e : EntranceId) : entranceOf e.val = some e := dif_pos e.isLt

@[simp] theorem moduleOf_number (m : ModuleId) : moduleOf (m.val + 1) = some m := by
  have := m.isLt
  simp only [moduleOf]
  rw [dif_pos (by omega)]
  rfl

theorem zoneOf_eq_none {n : Nat} (h : 19 < n) : zoneOf n = none := dif_neg (by omega)

theorem entranceOf_eq_none {n : Nat} (h : 11 < n) : entranceOf n = none := dif_neg (by omega)

theorem moduleOf_eq_none {n : Nat} (h : n = 0 ∨ 12 < n) : moduleOf n = none := dif_neg (by omega)

/-! ## Requests and events that act at once -/

/-- An event whose work sends no report and owes no walk ends with what that work gives. -/
theorem event_eq_of_work {s u : State} (h : Still s) {w : State → State} (hw : w s = u)
    (hr : u.svc.reports = s.svc.reports := by rfl) (hd : u.svc.walkDue = s.svc.walkDue := by rfl) :
    event w s = .next u := by
  subst hw
  exact event_quiet h w (hr.trans h.reports) (hd.trans h.walk)

/-- A request whose work is known, and the reports it sends. -/
theorem request_of_work {s u : State} (h : Ready s) {tag : Byte} {kind : RequestKind}
    {w : State → State} (hw : w (taken tag kind s) = u) : request tag kind w s = .next u.settled := by
  rw [request_ready h, hw]

theorem event_of_work {s u : State} (h : Still s) {w : State → State} (hw : w s = u) :
    event w s = .next u.settled := by rw [event_still h, hw]

/-! ## Requests that are not accepted (R168, R175, R179) -/

/-- The command that carries a request runs the request's work. -/
theorem exec_requestOf {c : Instr} {tag : Byte} {kind : RequestKind}
    (h : requestOf c = some (tag, kind)) :
    ∃ w : State → State, ∀ s, exec c s = request tag kind w s := by
  cases c <;> cases h <;> exact ⟨_, fun _ => rfl⟩

theorem validFrame_eq (s : State) : validFrame s = { s with svc := { s.svc with
    link := { s.svc.link with standalone := false, silenceLeft := silenceAfterFrame s } } } := by
  unfold validFrame silenceAfterFrame State.updLink Services.setLink startSilence
  split <;> rfl

/-- R168: an immediate reply, or nothing when four wait. -/
theorem sendImmediate_eq (tag kind : Byte) (body : List Byte) (s : State) :
    sendImmediate tag kind body s = { s with svc := { s.svc with link := { s.svc.link with
      tx := s.svc.link.tx ++
        (if 4 ≤ (s.svc.link.tx.filter TxItem.isImmediate).length then []
         else [.immediate tag kind body]) } } } := by
  simp only [sendImmediate, State.updLink, Services.setLink]
  split
  · rw [List.append_nil]
  · rfl

/-- Settles O4: the three ways a request frame is not accepted. -/
theorem requestsNotAccepted : Obligations.RequestsNotAccepted := by
  intro c tag kind s names
  obtain ⟨w, runs⟩ := exec_requestOf names
  rw [runs s]
  unfold request
  refine ⟨fun held => by rw [held]; rfl, fun up off => ?discarded, fun up on full => ?busy⟩
  case discarded =>
    rw [up, off]
    exact congrArg _ (validFrame_eq s)
  case busy =>
    rw [up, on, validFrame_eq]
    unfold accept
    refine congrArg _ (((if_neg Bool.false_ne_true).trans (if_pos rfl)).trans ((if_pos full).trans ?_))
    exact sendImmediate_eq tag (replyCode kind) [Status.busy.code] _

/-! ## Resets (R193) -/

theorem beginReset_blocksAtReset (cause : ResetCause) (s : State) :
    BlocksAtReset (beginReset cause s) := by
  obtain ⟨_, _, _, _, zones, override, modules, supervisor, cues, quiet, pool, channels, keys, calls,
    houses, entrances, link, console⟩ := Invariants.reset_blocksAtReset
  exact ⟨rfl, rfl, rfl, rfl, zones, override, modules, supervisor, cues, quiet, pool, channels, keys,
    calls, houses, entrances, link, console⟩

theorem beginReset_cause (cause : ResetCause) (s : State) (h : cause ≠ .powerOn) :
    (beginReset cause s).control.cause = if s.control.holding then s.control.cause else cause := by
  simp [beginReset, State.inReset, h]

/-- The end of a reset that begins a start-up load, or the first round. -/
theorem leaveReset_settled (m1 m0 : Bool) {s : State} (reports : s.svc.reports = [])
    (walk : s.svc.walkDue = false) : (leaveReset m1 m0 s).settled = leaveReset m1 m0 s := by
  have svc : (leaveReset m1 m0 s).svc = s.svc := by
    unfold leaveReset beginRound
    cases m1
    · dsimp only
      split
      · contradiction
      · split <;> rfl
    · rfl
  exact settled_rest _ (by rw [svc, reports]) (by rw [svc, walk])

/-- R27: a round that begins changes the poll machine only. -/
theorem beginRound_eq (s : State) : ∃ p, beginRound s = { s with sup := { s.sup with poll := p } } := by
  unfold beginRound
  split <;> exact ⟨_, rfl⟩

/-- R193: after a reset in WAIT the part is as the reset left it, with the straps read and the poll
machine begun. -/
theorem leaveReset_wait (m0 : Bool) (s : State) : ∃ p, leaveReset false m0 s
    = { s with
        control := { s.control with holding := false, strap := .wait, fastLink := m0 }
        pins := { s.pins with mode1 := false, mode0 := m0 }, sup := { s.sup with poll := p } } :=
  beginRound_eq _

/-- Settles O5: the resets begin with `beginReset`; `leaveReset` ends them. -/
theorem resetsBeginAndEnd : Obligations.ResetsBeginAndEnd := by
  refine ⟨fun s => ⟨?powerOn, ?supplyDip, ?resetLine⟩, fun m1 m0 s => ⟨fun up => ?up, ?ends⟩⟩
  case powerOn =>
    exact ⟨_, rfl, beginReset_blocksAtReset _ _, by simp [beginReset, State.inReset], rfl, rfl, rfl, rfl,
      rfl⟩
  case supplyDip =>
    exact ⟨_, rfl, beginReset_blocksAtReset _ _, beginReset_cause _ _ (by decide), rfl, rfl, rfl, rfl,
      rfl⟩
  case resetLine =>
    exact ⟨_, rfl, beginReset_blocksAtReset _ _, beginReset_cause _ _ (by decide), rfl, rfl, rfl, rfl,
      rfl⟩
  case up => simp [exec, execResetEnd, up]
  case ends =>
    intro held reports walk
    have ran : exec (.resetEnd m1 m0) s
        = .next (leaveReset m1 m0 { s with pins := { s.pins with rst := true } }) := by
      have settles := leaveReset_settled m1 m0 (s := { s with pins := { s.pins with rst := true } })
        reports walk
      simp only [exec, execResetEnd, held, if_true, settles]
    refine ⟨_, ran, ?_⟩
    cases m1 with
    | true => exact ⟨rfl, rfl, rfl, rfl, rfl, rfl, rfl, rfl, rfl, rfl, rfl, rfl, rfl, rfl, rfl⟩
    | false =>
      obtain ⟨p, waits⟩ := leaveReset_wait m0 { s with pins := { s.pins with rst := true } }
      rw [waits]
      exact ⟨rfl, rfl, rfl, rfl, rfl, rfl, rfl, rfl, rfl, rfl, rfl, rfl, rfl, rfl, rfl⟩

/-! ## The end of a frame (R171, R174, R179) -/

theorem exec_frameSent {s : State} (up : s.control.holding = false) :
    exec .frameSent s = .next (frameSent s) := by
  simp [exec, execFrameSent, up]

/-- Settles O8: one equation of `frameSent` for each head of the transmit queue. -/
theorem frameSentMovesTheQueue : Obligations.FrameSentMovesTheQueue := by
  intro s up
  rw [exec_frameSent up]
  refine ⟨fun tx => ?_, fun tag kind b1 b2 more rest tx => ?_, fun tag kind b rest tx other => ?_,
    fun tag b rest tx => ?_, fun tag kind b rest tx => ?_, fun b rest tx => ?_⟩
  · simp only [frameSent, tx]
  · simp only [frameSent, tx]
    rfl
  · simp only [frameSent, tx, other, if_false]
    rfl
  · simp only [frameSent, tx, if_true]
    exact ⟨_, rfl, beginReset_blocksAtReset _ _,
      (beginReset_cause _ _ (by decide)).trans (by simp [up]), rfl, rfl⟩
  · simp only [frameSent, tx]
    rfl
  · simp only [frameSent, tx]
    rfl

/-! ## IDENT and RESET (R178, R179) -/

/-- R178: the eight items of IDENT, byte by byte. -/
theorem identBytes_eq (c : PartControl) (l : LinkPort) : identBytes c l
    = [0x24, 0x48, 1, if c.running then 1 else 0, match c.strap with | .wait => 0 | .self => 1,
       if c.fastLink then 2 else 1,
       match c.cause with | .powerOn => 0 | .supplyDip => 1 | .resetLine => 2 | .linkReset => 3,
       if l.standalone then 0 else 1, BitVec.ofNat 8 c.cfg.link.silence] := by
  have state : u8 (if c.running then 1 else 0) = [if c.running then 1 else 0] := by split <;> rfl
  have rate : u8 (if c.fastLink then 2 else 1) = [if c.fastLink then 2 else 1] := by split <;> rfl
  rw [identBytes, state, rate]
  obtain ⟨running, cfg, strap, fastLink, cause, _⟩ := c
  cases strap <;> cases cause <;> rfl

/-- Settles O10: the works of IDENT and RESET. -/
theorem identAndResetAnswer : Obligations.IdentAndResetAnswer := by
  refine ⟨fun tag s h => request_eq_of_work h ?ident, fun tag s h => ⟨_, request_eq_of_work h rfl, rfl⟩⟩
  case ident =>
    rw [workIdent, reply_eq, identBytes_eq]
    rfl

/-! ## NOTICE-CLEAR and SILENCE-SET (R172, R175) -/

theorem kindSetLegal_iff (w : Word16) : kindSetLegal w = true ↔ w &&& 0xF000 = 0 := beq_iff_eq

theorem workNoticeClear_legal (tag : Byte) {w : Word16} (s : State) (h : w &&& 0xF000 = 0) :
    workNoticeClear tag w s = answered tag .noticeClear .ok (w16 (s.svc.link.pendingKinds &&& ~~~w))
      { s with svc := { s.svc with link := { s.svc.link with
        pendingKinds := s.svc.link.pendingKinds &&& ~~~w } } } :=
  if_pos ((kindSetLegal_iff w).2 h)

theorem workNoticeClear_range (tag : Byte) {w : Word16} (s : State) (h : w &&& 0xF000 ≠ 0) :
    workNoticeClear tag w s = answered tag .noticeClear .range [] s :=
  if_neg fun legal => h ((kindSetLegal_iff w).1 legal)

theorem workSilenceSet_range (tag : Byte) {n : Nat} (s : State) (h : 60 < n) :
    workSilenceSet tag n s = answered tag .silenceSet .range [] s := if_pos h

/-- R175: the silence time is written, and in RUN the timer restarts with it. -/
theorem workSilenceSet_legal (tag : Byte) {n : Nat} (s : State) (h : n ≤ 60) :
    workSilenceSet tag n s = answered tag .silenceSet .ok []
      { s with
        control := { s.control with cfg := { s.control.cfg with
          link := { s.control.cfg.link with silence := n } } }
        svc := { s.svc with link := { s.svc.link with
          silenceLeft := if s.control.running then (if n = 0 then none else some (n * 1000))
            else s.svc.link.silenceLeft } } } := by
  unfold workSilenceSet
  rw [if_neg (Nat.not_lt.2 h)]
  dsimp only [State.setCfg]
  split <;> rfl

/-- Settles O11: the works of NOTICE-CLEAR and SILENCE-SET, within and out of range. -/
theorem noticeClearAndSilenceSet : Obligations.NoticeClearAndSilenceSet := by
  refine ⟨fun tag w s h => ⟨fun legal => ?_, fun bad => ?_⟩,
    fun tag n s h => ⟨fun bad => ?_, fun legal => ?_⟩⟩
  · exact request_eq_of_work h (workNoticeClear_legal tag _ legal)
  · exact request_eq_of_work h (workNoticeClear_range tag _ bad)
  · exact request_eq_of_work h (workSilenceSet_range tag _ bad)
  · refine (request_eq_of_work h (workSilenceSet_legal tag _ legal)).trans ?_
    cases run : s.control.running <;> simp [run, taken, silenceAfterFrame]

/-! ## NOTICE-ENABLE and NOTICE-RESUME (R173, R174) -/

/-- R174: judging the gate sends the notice that is owed and closes the gate, or changes nothing. -/
theorem judgeNotice_eq (env : Env) (l : LinkPort) : judgeNotice env l =
    { l with
      gateOpen := l.gateOpen && !noticeOwed env.cfg.link.enables l
      tx := l.tx ++ (if noticeOwed env.cfg.link.enables l then
        [.notice (noticeBody l.pendingKinds env.run)] else []) } := by
  unfold judgeNotice
  split
  next owed => simp [owed]
  next owed => simp [owed]

theorem judgeGate_eq (s : State) : judgeGate s
    = { s with svc := { s.svc with link := judgeNotice s.env s.svc.link } } := rfl

/-- A reply in the queue is no notice. -/
theorem any_isNotice_reply (tx : List TxItem) (tag : Byte) (kind : RequestKind)
    (bodies : List (List Byte)) :
    (tx ++ [TxItem.reply tag kind bodies]).any TxItem.isNotice = tx.any TxItem.isNotice := by
  simp [TxItem.isNotice]

/-- R174: a gate judged right after a reply, told from the queue before it. -/
theorem judgeNotice_reply (env : Env) (l : LinkPort) (tag : Byte) (kind : RequestKind)
    (bodies : List (List Byte)) :
    judgeNotice env { l with tx := l.tx ++ [.reply tag kind bodies] } =
    { l with
      gateOpen := l.gateOpen && !noticeOwed env.cfg.link.enables l
      tx := l.tx ++ [.reply tag kind bodies] ++ (if noticeOwed env.cfg.link.enables l then
        [.notice (noticeBody l.pendingKinds env.run)] else []) } := by
  have owed : noticeOwed env.cfg.link.enables { l with tx := l.tx ++ [.reply tag kind bodies] }
      = noticeOwed env.cfg.link.enables l :=
    congrArg (fun b => l.gateOpen && (l.pendingKinds &&& env.cfg.link.enables != 0) && !b)
      (any_isNotice_reply l.tx tag kind bodies)
  rw [judgeNotice_eq, owed]

theorem workNoticeEnable_legal (tag : Byte) {w : Word16} (s : State) (h : w &&& 0xF000 = 0) :
    workNoticeEnable tag w s = judgeGate (answered tag .noticeEnable .ok [] (setEnables w s)) :=
  if_pos ((kindSetLegal_iff w).2 h)

theorem workNoticeEnable_range (tag : Byte) {w : Word16} (s : State) (h : w &&& 0xF000 ≠ 0) :
    workNoticeEnable tag w s = answered tag .noticeEnable .range [] s :=
  if_neg fun legal => h ((kindSetLegal_iff w).1 legal)

theorem workNoticeResume_eq (tag : Byte) (s : State) : workNoticeResume tag s
    = judgeGate ((answered tag .noticeResume .ok (w16 s.svc.link.pendingKinds) s).updLink
        fun l => { l with gateOpen := true }) := rfl

/-- Settles O12: the reply, then the gate judged. -/
theorem noticeEnableAndResume : Obligations.NoticeEnableAndResume := by
  intro tag w s h
  refine ⟨fun bad => request_eq_of_work h (workNoticeEnable_range tag _ bad), fun legal => ?enable,
    ?resume⟩
  case enable =>
    have work := workNoticeEnable_legal tag (taken tag .noticeEnable s) legal
    rw [judgeGate_eq] at work
    have judged := judgeNotice_reply (setEnables w (taken tag .noticeEnable s)).env
      (setEnables w (taken tag .noticeEnable s)).svc.link tag .noticeEnable [[0x00]]
    refine ⟨_, request_eq_of_work h work, rfl, ⟨?_, ?_⟩, ?_, rfl, rfl, rfl, rfl⟩
    · exact (congrArg LinkPort.gateOpen judged :)
    · exact (congrArg LinkPort.tx judged :)
    · exact (congrArg LinkPort.pendingKinds judged :)
  case resume =>
    have work := workNoticeResume_eq tag (taken tag .noticeResume s)
    rw [judgeGate_eq] at work
    have judged := judgeNotice_reply s.env
      { (taken tag .noticeResume s).svc.link with gateOpen := true } tag .noticeResume
      [0x00 :: w16 s.svc.link.pendingKinds]
    refine ⟨_, request_eq_of_work h work, ⟨?_, ?_⟩, ?_, rfl, rfl, rfl, rfl, rfl⟩
    · exact (congrArg LinkPort.gateOpen judged :)
    · exact (congrArg LinkPort.tx judged :)
    · exact (congrArg LinkPort.pendingKinds judged :)

/-! ## MODULE-CLEAR and ENTRANCE-CLEAR (R35, R163) -/

/-- Settles O23: MODULE-CLEAR for a number that names no module, one, or all. -/
theorem moduleClearEmptiesTheLatch : Obligations.ModuleClearEmptiesTheLatch := by
  intro tag n s h
  refine ⟨fun other one => request_eq_of_work h ?_, fun m named => request_eq_of_work h ?_,
    fun all => request_eq_of_work h ?_⟩
  · rw [workModuleClear, if_neg one, moduleOf_eq_none other]
    rfl
  · have one : n ≠ 255 := by have := m.isLt; omega
    rw [workModuleClear, if_neg one, named, moduleOf_number]
    rfl
  · exact if_pos all

/-- R163: the fault latch emptied. -/
theorem clearLatch_eq (sv : Services) (e : EntranceId) : clearLatch sv e
    = { sv with entrances := (put sv.entrances e
        { look sv.entrances e with openedWhileSealed := false, leftOpen := false }) } := rfl

/-- A fold that replaces each record of a table by a function of it replaces them all. -/
theorem foldl_put_map {α : Type} {n : Nat} (f : α → α) (v : Vector α n) :
    (List.finRange n).foldl (fun acc i => put acc i (f (look acc i))) v = v.map f := by
  refine table_ext fun i => ?_
  have key : ∀ (l : List (Fin n)) (v : Vector α n), l.Nodup →
      look (l.foldl (fun acc i => put acc i (f (look acc i))) v) i
        = if i ∈ l then f (look v i) else look v i := by
    intro l
    induction l with
    | nil => intro v _; rfl
    | cons j rest ih =>
      intro v nodup
      obtain ⟨fresh, nodup⟩ := List.nodup_cons.1 nodup
      rw [List.foldl_cons, ih _ nodup]
      by_cases eq : i = j
      · subst eq; simp [fresh]
      · simp [eq, look_put_of_ne _ (Ne.symm eq)]
  rw [key _ _ (List.nodup_finRange n), if_pos (List.mem_finRange i), look_map]

theorem clearAll_eq (sv : Services) : allEntrances.foldl clearLatch sv
    = { sv with entrances := sv.entrances.map (fun x =>
        { x with openedWhileSealed := false, leftOpen := false }) } := by
  rw [← foldl_put_map]
  have key : ∀ (l : List EntranceId) (sv : Services), l.foldl clearLatch sv
      = { sv with entrances := l.foldl (fun acc e => put acc e
          { look acc e with openedWhileSealed := false, leftOpen := false }) sv.entrances } := by
    intro l
    induction l with
    | nil => intro sv; rfl
    | cons e rest ih => intro sv; rw [List.foldl_cons, ih]; rfl
  exact key _ sv

/-- Settles O52: ENTRANCE-CLEAR for a number that names no entrance, one, or all. -/
theorem entranceClearEmptiesTheLatch : Obligations.EntranceClearEmptiesTheLatch := by
  intro tag n s h
  refine ⟨fun other one => request_eq_of_work h ?_, fun e named => request_eq_of_work h ?_,
    fun all => request_eq_of_work h ?_⟩
  · rw [workEntranceClear, answerWith, clearLatches, if_neg one, entranceOf_eq_none other]
    rfl
  · have one : n ≠ 255 := by have := e.isLt; omega
    rw [workEntranceClear, answerWith, clearLatches, if_neg one, named, entranceOf_val]
    rfl
  · rw [workEntranceClear, answerWith, clearLatches, if_pos all, clearAll_eq]
    rfl

end Sys2Proof.Proofs.Link
end

section
/-! PROOFS. The loop supervisor's requests (R34, R37-R39): MODULE-RESTORE, AMP-READ and AMP-WRITE. -/

namespace Sys2Proof.Proofs.Passes

open Sys2Proof Sys2Proof.Machine Sys2Proof.Laws Sys2Proof.Proofs.Cues Sys2Proof.Proofs.Link

/-! ## The arbiter (R36) -/

/-- R36: while a transaction is in flight nothing is granted. -/
theorem grantBus_held {s : State} (h : s.sup.bus.isSome) : grantBus s = s := by
  obtain ⟨t, flight⟩ := Option.isSome_iff_exists.1 h
  unfold grantBus
  rw [flight]

/-- R36: the protective write that waits longest takes an idle bus. -/
theorem grantBus_protective {s : State} {m : ModuleId} {b : Bool} {rest : List (ModuleId × Bool)}
    (idle : s.sup.bus = none) (queue : s.sup.protective = (m, b) :: rest) :
    grantBus s = { s with sup := { s.sup with
      protective := rest
      bus := some { user := .protective, module_ := m, word := 8
                    value := some (if b then 1 else 0) } } } := by
  unfold grantBus
  rw [idle, queue]
  rfl

/-! ## Pass-throughs (R37-R39) -/

theorem passCheck_range (s : State) {n w : Nat} (write : Bool) (h : n = 0 ∨ 12 < n ∨ 15 < w) :
    passCheck s n w write = .error .range := by
  unfold passCheck
  by_cases named : n = 0 ∨ 12 < n
  · rw [moduleOf_eq_none named]
  · have long : 15 < w := by omega
    cases moduleOf n with
    | none => rfl
    | some m => exact if_pos long

section named

variable (s : State) (m : ModuleId) {w : Nat} (write : Bool) (word : w ≤ 15)

include word

theorem passCheck_busy (h : s.sup.pass.isSome) :
    passCheck s (m.val + 1) w write = .error .busy := by
  unfold passCheck
  rw [moduleOf_number]
  exact (if_neg (by omega)).trans (if_pos h)

/-- R37, R39: with no pass-through pending only a write of word 8 to a tripped module is refused. -/
theorem passCheck_free (h : s.sup.pass = none) : passCheck s (m.val + 1) w write
    = if write && w == 8 && (look s.sup.modules m).tripped then .error .state else .ok m := by
  unfold passCheck
  rw [moduleOf_number, h]
  exact (if_neg (by omega)).trans (if_neg (by simp))

end named

theorem workAmpRead_error {tag : Byte} {n w : Nat} {st : Status} {s : State}
    (h : passCheck s n w false = .error st) :
    workAmpRead tag n w s = answered tag .ampRead st [] s := by
  rw [workAmpRead, h]
  rfl

theorem workAmpWrite_error {tag : Byte} {n w : Nat} {v : Word16} {st : Status} {s : State}
    (h : passCheck s n w true = .error st) :
    workAmpWrite tag n w v s = answered tag .ampWrite st [] s := by
  rw [workAmpWrite, h]
  rfl

theorem workAmpRead_ok {tag : Byte} {n w : Nat} {m : ModuleId} {s : State}
    (h : passCheck s n w false = .ok m) : workAmpRead tag n w s
      = beginPass { asker := .link tag, module_ := m, word := w, value := none } s := by
  rw [workAmpRead, h]

theorem workAmpWrite_ok {tag : Byte} {n w : Nat} {v : Word16} {m : ModuleId} {s : State}
    (h : passCheck s n w true = .ok m) : workAmpWrite tag n w v s
      = beginPass { asker := .link tag, module_ := m, word := w, value := some v } s := by
  rw [workAmpWrite, h]

/-- R36, R37: a pass-through that may reach its module takes an idle bus with no protective write. -/
theorem beginPass_granted (p : PassThrough) {s : State} (idle : s.sup.bus = none)
    (queue : s.sup.protective = []) (open_ : passBarred s p = false) :
    beginPass p s = { s with sup := { s.sup with
      pass := some p
      bus := some { user := .passThrough, module_ := p.module_, word := p.word, value := p.value } } } :=
  grantBus_pass p (s.setSup { s.sup with pass := some p }) idle queue rfl open_

/-- R36, R37: a pass-through waits for the transaction in flight. -/
theorem beginPass_waits (p : PassThrough) {s : State} (flight : s.sup.bus.isSome) :
    beginPass p s = { s with sup := { s.sup with pass := some p } } :=
  grantBus_held (s := s.setSup { s.sup with pass := some p }) flight

theorem read_not_barred (s : State) (asker : Asker) (m : ModuleId) (w : Nat) :
    passBarred s { asker := asker, module_ := m, word := w, value := none } = false := rfl

/-- R39: only a write of word 8 to a tripped module is barred. -/
theorem write_not_barred {s : State} (asker : Asker) {m : ModuleId} {w : Nat} (v : Word16)
    (h : w ≠ 8 ∨ (look s.sup.modules m).tripped = false) :
    passBarred s { asker := asker, module_ := m, word := w, value := some v } = false := by
  rcases h with other | up
  · simp [passBarred, other]
  · simp [passBarred, up]

/-- Settles O26: AMP-READ and AMP-WRITE, refused, granted the bus, or waiting for it. -/
theorem passThroughsAreAccepted : Obligations.PassThroughsAreAccepted := by
  intro tag n w v s h
  have free_check (kind : RequestKind) (write : Bool) {m : ModuleId} {w : Nat} (word : w ≤ 15)
      (free : s.sup.pass = none) := passCheck_free (taken tag kind s) m write word free
  have writes {m : ModuleId} (word : w ≤ 15) (free : s.sup.pass = none)
      (ok : w ≠ 8 ∨ (look s.sup.modules m).tripped = false) :
      passCheck (taken tag .ampWrite s) (m.val + 1) w true = .ok m := by
    rw [free_check .ampWrite true word free, taken_sup]
    rcases ok with other | up
    · simp [other]
    · simp [up]
  refine ⟨fun bad => ?range, fun m named word busy => ?busy, fun m named free down => ?state,
    fun m named word free idle queue => ?granted, fun m named word free flight => ?waits⟩
  case range =>
    exact ⟨request_eq_of_work h (workAmpRead_error (passCheck_range _ false bad)),
      request_eq_of_work h (workAmpWrite_error (passCheck_range _ true bad))⟩
  case busy =>
    subst named
    exact ⟨request_eq_of_work h (workAmpRead_error (passCheck_busy _ m false word busy)),
      request_eq_of_work h (workAmpWrite_error (passCheck_busy _ m true word busy))⟩
  case state =>
    subst named
    refine request_eq_of_work h (workAmpWrite_error ?_)
    rw [free_check .ampWrite true (by decide) free, taken_sup]
    exact if_pos (by simp [down])
  case granted =>
    subst named
    refine ⟨?_, fun ok => ?_⟩
    · exact request_eq_of_work h ((workAmpRead_ok (free_check .ampRead false word free)).trans
        (beginPass_granted (s := taken tag .ampRead s) _ idle queue (read_not_barred _ _ _ _)))
    · exact request_eq_of_work h ((workAmpWrite_ok (writes word free ok)).trans
        (beginPass_granted (s := taken tag .ampWrite s) _ idle queue (write_not_barred _ v ok)))
  case waits =>
    subst named
    refine ⟨?_, fun ok => ?_⟩
    · exact request_eq_of_work h ((workAmpRead_ok (free_check .ampRead false word free)).trans
        (beginPass_waits (s := taken tag .ampRead s) _ flight))
    · exact request_eq_of_work h ((workAmpWrite_ok (writes word free ok)).trans
        (beginPass_waits (s := taken tag .ampWrite s) _ flight))

/-! ## MODULE-RESTORE (R34) -/

/-- R33: a queue that a protective write has entered is not empty. -/
theorem queueProtective_ne_nil (m : ModuleId) (b : Bool) (q : List (ModuleId × Bool)) :
    queueProtective m b q ≠ [] := by
  unfold queueProtective
  split
  · cases q with
    | nil => contradiction
    | cons p rest => exact List.cons_ne_nil _ _
  · simp

/-- R36: while a protective write waits, the arbiter touches its queue and the bus only. -/
theorem grantBus_of_protective {s : State} (h : s.sup.protective ≠ []) :
    ∃ q b, grantBus s = { s with sup := { s.sup with protective := q, bus := b } } := by
  obtain ⟨⟨m, b⟩, rest, queue⟩ := List.exists_cons_of_ne_nil h
  cases flight : s.sup.bus with
  | some t => exact ⟨s.sup.protective, s.sup.bus, grantBus_held (by simp [flight])⟩
  | none => exact ⟨_, _, grantBus_protective flight queue⟩

theorem reply_mem (tag : Byte) (kind : RequestKind) (st : Status) (bytes : List Byte) (s : State) :
    .reply tag kind [st.code :: bytes] ∈ (answered tag kind st bytes s).svc.link.tx :=
  List.mem_append_right _ (List.mem_singleton.2 rfl)

/-- R34: the records and the queue of a module that is restored, before the arbiter. -/
def restored (m : ModuleId) (s : State) : State :=
  resolveModule ((s.updModule m (fun r =>
    { r with tripped := false, run := 0, state := .unknown })).protect m true) m

theorem restored_keeps (m : ModuleId) (s : State) :
    (restored m s).sup
      = { s.sup with
          modules := put s.sup.modules m
            { look s.sup.modules m with tripped := false, run := 0, state := .unknown }
          protective := queueProtective m true s.sup.protective }
    ∧ (restored m s).svc.slots = s.svc.slots ∧ (restored m s).control = s.control
    ∧ (restored m s).cue = s.cue := by
  unfold restored
  obtain ⟨sup, control, cue, _, slots, _, _⟩ := resolveModule_onDrive
    ((s.updModule m (fun r => { r with tripped := false, run := 0, state := .unknown })).protect m true) m
  exact ⟨sup, slots, control, cue⟩

theorem restoreModule_eq (m : ModuleId) (s : State) : restoreModule m s = grantBus (restored m s) := rfl

theorem workModuleRestore_tripped (tag : Byte) {m : ModuleId} {s : State}
    (down : (look s.sup.modules m).tripped = true) :
    workModuleRestore tag (m.val + 1) s
      = answered tag .moduleRestore .ok [] (grantBus (restored m s)) := by
  rw [workModuleRestore, moduleOf_number]
  simp only [down, if_true]
  rw [restoreModule_eq, reply_eq]

/-- Settles O24: MODULE-RESTORE refused, and of a tripped module. -/
theorem moduleRestoreUntrips : Obligations.ModuleRestoreUntrips := by
  intro tag n s h
  refine ⟨fun bad => request_eq_of_work h ?_, fun m named up => request_eq_of_work h ?_,
    fun m named down => ?restore⟩
  · rw [workModuleRestore, moduleOf_eq_none bad]
    rfl
  · rw [workModuleRestore, named, moduleOf_number]
    exact if_neg (by simp [up])
  case restore =>
    subst named
    refine ⟨_, request_of_work h (workModuleRestore_tripped tag down), ?_⟩
    obtain ⟨sup, slots, control, cue⟩ := restored_keeps m (taken tag .moduleRestore s)
    generalize restored m (taken tag .moduleRestore s) = t at sup slots control cue
    have waits : t.sup.protective ≠ [] := by
      rw [sup]
      exact queueProtective_ne_nil _ _ _
    obtain ⟨q, b, granted⟩ := grantBus_of_protective waits
    refine ⟨?_, fun k other => ?_, fun flight => ?_, fun idle queue => ?_, reply_mem _ _ _ _ _, ?_, ?_, ?_⟩
    · rw [granted]
      exact (congrArg (fun u : Supervisor => look u.modules m) sup).trans (look_put_self _ _ _)
    · rw [granted]
      exact (congrArg (fun u : Supervisor => look u.modules k) sup).trans
        (look_put_of_ne _ (Ne.symm other) _)
    · rw [grantBus_held (by rw [sup]; exact flight)]
      exact ⟨(congrArg Supervisor.protective sup :), (congrArg Supervisor.bus sup :)⟩
    · have alone : t.sup.protective = [(m, true)] := by
        rw [sup]
        simp [queueProtective, queue]
      rw [grantBus_protective (by rw [sup]; exact idle) alone]
      exact ⟨rfl, rfl⟩
    · rw [granted]; exact slots
    · rw [granted]; exact control
    · rw [granted]; exact cue

end Sys2Proof.Proofs.Passes
end

section
/-! PROOFS. The polling set (R44): what POLL-SET writes and what becomes of the modules it drops. -/

namespace Sys2Proof.Proofs.Polling

open Sys2Proof Sys2Proof.Machine Sys2Proof.Laws Sys2Proof.Proofs.Cues Sys2Proof.Proofs.Link
  Sys2Proof.Proofs.Passes

/-! ## What the arbiter and the poll machine leave -/

/-- What the arbiter and the order of visits leave as it was. -/
structure OnBus (s t : State) : Prop where
  modules : t.sup.modules = s.sup.modules
  control : t.control = s.control
  cue : t.cue = s.cue
  slots : t.svc.slots = s.svc.slots

theorem OnBus.refl (s : State) : OnBus s s := ⟨rfl, rfl, rfl, rfl⟩

theorem OnBus.trans {a b c : State} (h : OnBus a b) (k : OnBus b c) : OnBus a c :=
  ⟨k.modules.trans h.modules, k.control.trans h.control, k.cue.trans h.cue, k.slots.trans h.slots⟩

theorem grantPoll_onBus (s : State) : OnBus s (grantPoll s) := by
  unfold grantPoll
  split <;> exact ⟨rfl, rfl, rfl, rfl⟩

theorem answerPass_onBus (p : PassThrough) (st : Status) (w : Option Word16) (s : State) :
    OnBus s (answerPass p st w s) := by
  unfold answerPass
  dsimp only
  split <;> exact ⟨rfl, rfl, rfl, rfl⟩

theorem grantBus_onBus (s : State) : OnBus s (grantBus s) := by
  unfold grantBus
  split
  · exact OnBus.refl s
  · exact ⟨rfl, rfl, rfl, rfl⟩
  · split
    · exact OnBus.trans (b := s.setSup { s.sup with pass := none }) ⟨rfl, rfl, rfl, rfl⟩
        ((answerPass_onBus _ _ _ _).trans (grantPoll_onBus _))
    · exact ⟨rfl, rfl, rfl, rfl⟩
  · exact grantPoll_onBus s

theorem beginRound_onBus (s : State) : OnBus s (beginRound s) := by
  obtain ⟨p, eq⟩ := beginRound_eq s
  rw [eq]
  exact ⟨rfl, rfl, rfl, rfl⟩

theorem nextVisit_onBus (m : ModuleId) (s : State) : OnBus s (nextVisit m s) := by
  unfold nextVisit
  split
  · exact ⟨rfl, rfl, rfl, rfl⟩
  · split <;> exact ⟨rfl, rfl, rfl, rfl⟩

theorem wakePoll_onBus (s : State) : OnBus s (wakePoll s) := by
  unfold wakePoll
  split
  · exact beginRound_onBus s
  · split
    · exact beginRound_onBus s
    · exact OnBus.refl s
  · exact OnBus.refl s

/-! ## The modules that POLL-SET drops (R44) -/

/-- R44: the record of a module whose poll enable goes from yes to no. -/
def droppedRecord (r : ModuleRecord) : ModuleRecord := { r with state := .unknown, caps := none, run := 0 }

theorem updModule_modules (s : State) (m : ModuleId) (f : ModuleRecord → ModuleRecord) :
    (s.updModule m f).sup.modules = put s.sup.modules m (f (look s.sup.modules m)) := rfl

/-- R44: what becomes of the visit of a dropped module. -/
def dropVisit (m : ModuleId) (s : State) : State :=
  match s.sup.poll with
  | .visit v =>
    if v.module_ = m then
      if (s.sup.bus.map (·.user)) = some .poll then s.setVisit { v with dropped := true }
      else nextVisit m s
    else s
  | _ => s

theorem dropModule_eq (s : State) (m : ModuleId) :
    dropModule s m = dropVisit m (resolveModule (s.updModule m droppedRecord) m) := by
  have record : (fun r : ModuleRecord => { r with state := .unknown, caps := none, run := 0 })
    = droppedRecord := rfl
  unfold dropModule
  rw [record]
  dsimp only
  generalize resolveModule (s.updModule m droppedRecord) m = t
  rfl

theorem dropVisit_onBus (m : ModuleId) (s : State) : OnBus s (dropVisit m s) := by
  unfold dropVisit
  split
  · split
    · split
      · exact ⟨rfl, rfl, rfl, rfl⟩
      · exact nextVisit_onBus _ _
    · exact OnBus.refl s
  · exact OnBus.refl s

/-- R44: a dropped module's record, and that the slots, the cue followers and the settings stay. -/
theorem dropModule_onBus (s : State) (m : ModuleId) :
    OnBus (s.updModule m droppedRecord) (dropModule s m) := by
  obtain ⟨sup, control, cue, _, slots, _, _⟩ := resolveModule_onDrive (s.updModule m droppedRecord) m
  rw [dropModule_eq]
  exact OnBus.trans ⟨congrArg Supervisor.modules sup, control, cue, slots⟩ (dropVisit_onBus _ _)

theorem foldl_dropModule_modules (l : List ModuleId) (s : State) (k : ModuleId) :
    look (l.foldl dropModule s).sup.modules k
      = if k ∈ l then droppedRecord (look s.sup.modules k) else look s.sup.modules k := by
  induction l generalizing s with
  | nil => rfl
  | cons m rest ih =>
    rw [List.foldl_cons, ih, (dropModule_onBus s m).modules, updModule_modules, look_put]
    by_cases same : m = k
    · subst same
      simp [droppedRecord]
    · simp [same, Ne.symm same]

theorem foldl_dropModule_keeps (l : List ModuleId) (s : State) :
    (l.foldl dropModule s).control = s.control ∧ (l.foldl dropModule s).cue = s.cue
      ∧ (l.foldl dropModule s).svc.slots = s.svc.slots :=
  ⟨foldl_keeps State.control _ (fun t m => (dropModule_onBus t m).control) l s,
    foldl_keeps State.cue _ (fun t m => (dropModule_onBus t m).cue) l s,
    foldl_keeps (fun t => t.svc.slots) _ (fun t m => (dropModule_onBus t m).slots) l s⟩

/-! ## POLL-SET (R44) -/

/-- The configuration with new poll enables and a new gap. -/
def withPoll (c : Configuration) (w : Word16) (gap : Nat) : Configuration :=
  { c with supervision := { c.supervision with enables := w, gap := gap } }

/-- The modules that new enables drop. -/
def droppedBy (c : Configuration) (w : Word16) (gap : Nat) : List ModuleId :=
  allModules.filter (fun m => pollEnabled c m && !pollEnabled (withPoll c w gap) m)

theorem applyPoll_eq (w : Word16) (gap : Nat) (s : State) : applyPoll w gap s
    = grantBus (wakePoll ((droppedBy s.control.cfg w gap).foldl dropModule
        (s.setCfg (withPoll s.control.cfg w gap)))) := rfl

theorem applyPoll_onBus (w : Word16) (gap : Nat) (s : State) :
    OnBus ((droppedBy s.control.cfg w gap).foldl dropModule (s.setCfg (withPoll s.control.cfg w gap)))
      (applyPoll w gap s) := by
  rw [applyPoll_eq]
  exact (wakePoll_onBus _).trans (grantBus_onBus _)

theorem mem_droppedBy (c : Configuration) (w : Word16) (gap : Nat) (m : ModuleId) :
    m ∈ droppedBy c w gap ↔ pollEnabled c m = true ∧ w.getLsbD (m.val + 1) = false := by
  simp [droppedBy, allModules, withPoll, pollEnabled]

theorem pollSetLegal_iff (w : Word16) (g : Nat) :
    (pollMaskLegal w && between 1 255 g) = true ↔ w &&& 0xE001 = 0 ∧ 1 ≤ g ∧ g ≤ 255 := by
  simp only [pollMaskLegal, between, Bool.and_eq_true, beq_iff_eq, decide_eq_true_eq]

theorem workPollSet_legal (tag : Byte) {w : Word16} {g : Nat} (s : State) (mask : w &&& 0xE001 = 0)
    (fits : g < 256) (some_ : g ≠ 0) :
    workPollSet tag w g s = answered tag .pollSet .ok [] (applyPoll w (g * 10) s) :=
  if_pos ((pollSetLegal_iff w g).2 ⟨mask, by omega, by omega⟩)

theorem workPollSet_range (tag : Byte) {w : Word16} {g : Nat} (s : State)
    (h : w &&& 0xE001 ≠ 0 ∨ g = 0) : workPollSet tag w g s = answered tag .pollSet .range [] s :=
  if_neg fun legal => by
    obtain ⟨mask, low, _⟩ := (pollSetLegal_iff w g).1 legal
    exact h.elim (· mask) (by omega)

/-- Settles O25: POLL-SET refused, and what it writes. -/
theorem pollSetWritesEnables : Obligations.PollSetWritesEnables := by
  intro tag w g s h fits
  refine ⟨fun bad => request_eq_of_work h (workPollSet_range tag _ bad), fun mask some_ => ?_⟩
  refine ⟨_, request_of_work h (workPollSet_legal tag _ mask fits some_), ?_⟩
  obtain ⟨modules, control, cue, slots⟩ := applyPoll_onBus w (g * 10) (taken tag .pollSet s)
  obtain ⟨control', cue', slots'⟩ := foldl_dropModule_keeps
    (droppedBy s.control.cfg w (g * 10))
    ((taken tag .pollSet s).setCfg (withPoll s.control.cfg w (g * 10)))
  have dropped := foldl_dropModule_modules (droppedBy s.control.cfg w (g * 10))
    ((taken tag .pollSet s).setCfg (withPoll s.control.cfg w (g * 10)))
  generalize applyPoll w (g * 10) (taken tag .pollSet s) = t at modules control cue slots
  refine ⟨control.trans control', fun m => ?_, reply_mem _ _ _ _ _, slots.trans slots', cue.trans cue'⟩
  refine (congrArg (look · m) modules).trans ((dropped m).trans ?_)
  simp only [mem_droppedBy]
  rfl

end Sys2Proof.Proofs.Polling
end

section
/-! PROOFS. The end of a transaction of the module bus (R25, R33, R36-R39). -/

namespace Sys2Proof.Proofs.BusEnds

open Sys2Proof Sys2Proof.Machine Sys2Proof.Laws Sys2Proof.Proofs.Cues Sys2Proof.Proofs.Link
  Sys2Proof.Proofs.Passes Sys2Proof.Proofs.Polling

/-! ## Who takes the end of a transaction -/

/-- The bus with no transaction in flight. -/
def offBus (s : State) : State := s.setSup { s.sup with bus := none }

theorem busEnd_idle {s : State} (answer : Option Word16) (h : s.sup.bus = none) :
    busEnd answer s = s := by
  unfold busEnd
  rw [h]

section users

variable {s : State} (answer : Option Word16) {m : ModuleId} {w : Nat} {v : Option Word16}

theorem busEnd_pass (h : s.sup.bus = some { user := .passThrough, module_ := m, word := w, value := v }) :
    busEnd answer s = grantBus (passEnd answer (offBus s)) := by
  unfold busEnd
  rw [h]
  rfl

theorem busEnd_protective
    (h : s.sup.bus = some { user := .protective, module_ := m, word := w, value := v }) :
    busEnd answer s = grantBus (protectiveEnd m answer (offBus s)) := by
  unfold busEnd
  rw [h]
  rfl

theorem busEnd_poll (h : s.sup.bus = some { user := .poll, module_ := m, word := w, value := v }) :
    busEnd answer s = grantBus (pollEnd answer (offBus s)) := by
  unfold busEnd
  rw [h]
  rfl

end users

/-! ## The bus after a transaction -/

/-- R36: the arbiter does not read the module records when no pass-through waits. -/
theorem nextOnBus_modules (sup : Supervisor) (ms : Vector ModuleRecord 12) :
    nextOnBus { sup with modules := ms } = { nextOnBus sup with modules := ms } := by
  unfold nextOnBus
  dsimp only
  split <;> rfl

theorem nextOnBus_poll (sup : Supervisor) :
    (nextOnBus sup).poll = sup.poll ∧ (nextOnBus sup).pass = sup.pass
      ∧ (nextOnBus sup).modules = sup.modules := by
  unfold nextOnBus
  split <;> exact ⟨rfl, rfl, rfl⟩

/-- R36: with nothing else waiting the poll machine gets the bus. -/
theorem grantPoll_next {s : State} (idle : s.sup.bus = none) (queue : s.sup.protective = [])
    (pass : s.sup.pass = none) : grantPoll s = { s with sup := nextOnBus s.sup } := by
  have granted := grantBus_next s idle (Or.inl pass)
  unfold grantBus at granted
  rwa [idle, queue, pass] at granted

/-- R36, R39: a write of word 8 to a tripped module is answered STATE when its turn comes. -/
theorem grantBus_barred {s : State} {q : PassThrough} {tag : Byte} (idle : s.sup.bus = none)
    (queue : s.sup.protective = []) (pass : s.sup.pass = some q) (barred : passBarred s q = true)
    (link : q.asker = .link tag) (write : q.value.isSome) :
    grantBus s = answered tag .ampWrite .state []
      { s with sup := nextOnBus { s.sup with pass := none } } := by
  have turn : grantBus s
      = grantPoll (answerPass q .state none (s.setSup { s.sup with pass := none })) := by
    unfold grantBus
    rw [idle, queue, pass]
    exact if_pos barred
  have reply : answerPass q .state none (s.setSup { s.sup with pass := none })
      = answered tag .ampWrite .state [] (s.setSup { s.sup with pass := none }) := by
    unfold answerPass
    rw [link, write]
    rfl
  rw [turn, reply, grantPoll_next (s := answered tag .ampWrite .state []
    (s.setSup { s.sup with pass := none })) idle queue rfl]
  rfl

/-! ## An absent module (R28, R33) -/

/-- R28, R33: the record of a module that is found ABSENT. -/
def absentRecord (r : ModuleRecord) : ModuleRecord := { r with state := .absent, caps := none }

theorem makeAbsent_keeps (m : ModuleId) (s : State) :
    (makeAbsent m s).sup
      = { s.sup with modules := put s.sup.modules m (absentRecord (look s.sup.modules m)) }
    ∧ (makeAbsent m s).svc.slots = s.svc.slots ∧ (makeAbsent m s).control = s.control := by
  obtain ⟨sup, control, _, _, slots, _, _⟩ := makeAbsent_onDrive m s
  exact ⟨sup, slots, control⟩

/-- R28, R33: an absent module is as tripped as it was. -/
theorem tripped_put_absent (ms : Vector ModuleRecord 12) (p k : ModuleId) :
    (look (put ms p (absentRecord (look ms p))) k).tripped = (look ms k).tripped := by
  rw [look_put]
  split
  next same => subst same; rfl
  next => rfl

/-! ## The end of a pass-through (R38, R39) -/

section pass

variable {s : State} {tag : Byte} {p : ModuleId} {w : Nat} {val : Option Word16}

/-- The link's pass-through that is in flight. -/
def linkPass (tag : Byte) (p : ModuleId) (w : Nat) (val : Option Word16) : PassThrough :=
  { asker := .link tag, module_ := p, word := w, value := val }

/-- The state with no pass-through pending and no transaction in flight. -/
def passOver (s : State) : State := { s with sup := { s.sup with bus := none, pass := none } }

theorem passEnd_noAnswer (h : s.sup.pass = some (linkPass tag p w val)) :
    passEnd none (offBus s)
      = answered tag (if val.isSome then .ampWrite else .ampRead) .noAnswer [] (passOver s) := by
  unfold passEnd
  have pass : (offBus s).sup.pass = some (linkPass tag p w val) := h
  rw [pass]
  cases val <;> rfl

theorem passEnd_written (x v : Word16) (h : s.sup.pass = some (linkPass tag p w (some x))) :
    passEnd (some v) (offBus s) = answered tag .ampWrite .ok [] (passOver s) := by
  unfold passEnd
  have pass : (offBus s).sup.pass = some (linkPass tag p w (some x)) := h
  rw [pass]
  rfl

theorem passEnd_read (v : Word16) (h : s.sup.pass = some (linkPass tag p w none)) :
    passEnd (some v) (offBus s) = answered tag .ampRead .ok (w16 v)
      (if w = 3 then carryFaults p v (passOver s) else passOver s) := by
  unfold passEnd
  have pass : (offBus s).sup.pass = some (linkPass tag p w none) := h
  rw [pass]
  rfl

end pass

/-- R36: what an answered pass-through leaves to the arbiter. -/
theorem grantBus_answered (tag : Byte) (kind : RequestKind) (st : Status) (bytes : List Byte) {t : State}
    (idle : t.sup.bus = none) (free : t.sup.pass = none) :
    grantBus (answered tag kind st bytes t)
      = answered tag kind st bytes { t with sup := nextOnBus t.sup } := by
  rw [grantBus_next (answered tag kind st bytes t) idle (Or.inl free)]
  rfl

section ends

variable {s : State} {p : ModuleId} {w : Nat} {val : Option Word16}

/-- R38, R39: the end of the link's pass-through in flight. -/
theorem passThroughEnds (h : Still s) (tag : Byte) (v : Word16)
    (flight : s.sup.bus = some { user := .passThrough, module_ := p, word := w, value := val })
    (pass : s.sup.pass = some (linkPass tag p w val)) :
    let next := nextOnBus { s.sup with bus := none, pass := none }
    exec .busAnswerTimeout s = .next (answered tag (if val.isSome then .ampWrite else .ampRead)
      .noAnswer [] { s with sup := next })
    ∧ (val = none → w ≠ 3 → exec (.busTransactionEnd v) s
      = .next (answered tag .ampRead .ok (w16 v) { s with sup := next }))
    ∧ (val = none → w = 3 → exec (.busTransactionEnd v) s = .next (answered tag .ampRead .ok (w16 v)
        { s with sup := nextOnBus { s.sup with
            bus := none, pass := none
            modules := put s.sup.modules p ({ look s.sup.modules p with
              latch := (look s.sup.modules p).latch.union (wordFaults v)
              carried := (look s.sup.modules p).carried.union (wordFaults v) } : ModuleRecord) } }))
    ∧ (val.isSome → exec (.busTransactionEnd v) s
      = .next (answered tag .ampWrite .ok [] { s with sup := next })) := by
  refine ⟨?_, fun read other => ?_, fun read three => ?_, fun write => ?_⟩
  · refine event_eq_of_work h ((busEnd_pass none flight).trans ?_)
    rw [passEnd_noAnswer pass]
    exact grantBus_answered _ _ _ _ (t := passOver s) rfl rfl
  · subst read
    refine event_eq_of_work h ((busEnd_pass (some v) flight).trans ?_)
    rw [passEnd_read v pass, if_neg other]
    exact grantBus_answered _ _ _ _ (t := passOver s) rfl rfl
  · subst read
    refine event_eq_of_work h ((busEnd_pass (some v) flight).trans ?_)
    rw [passEnd_read v pass, if_pos three]
    exact grantBus_answered _ _ _ _ (t := carryFaults p v (passOver s)) rfl rfl
  · obtain ⟨x, rfl⟩ := Option.isSome_iff_exists.1 write
    refine event_eq_of_work h ((busEnd_pass (some v) flight).trans ?_)
    rw [passEnd_written x v pass]
    exact grantBus_answered _ _ _ _ (t := passOver s) rfl rfl

/-- A protective write's end with nothing but protective writes and visits waiting. -/
theorem protectiveEnds (h : Still s) (v : Word16)
    (flight : s.sup.bus = some { user := .protective, module_ := p, word := w, value := val })
    (waits : s.sup.pass = none ∨ s.sup.protective ≠ []) :
    let next := nextOnBus { s.sup with bus := none }
    exec (.busTransactionEnd v) s = .next { s with sup := next }
    ∧ ∃ u : State, exec .busAnswerTimeout s = .next u.settled
      ∧ u.sup.bus = next.bus ∧ u.sup.protective = next.protective ∧ u.sup.poll = s.sup.poll
      ∧ u.sup.pass = s.sup.pass ∧ (look u.sup.modules p).state = .absent ∧ (look u.sup.modules p).caps = none
      ∧ (look u.sup.modules p).tripped = (look s.sup.modules p).tripped
      ∧ (∀ k, k ≠ p → look u.sup.modules k = look s.sup.modules k)
      ∧ u.svc.slots = s.svc.slots ∧ u.control = s.control := by
  refine ⟨event_eq_of_work h ((busEnd_protective (some v) flight).trans
    (grantBus_next (offBus s) rfl waits)), ?_⟩
  refine ⟨_, event_of_work h (busEnd_protective none flight), ?_⟩
  obtain ⟨sup, slots, control⟩ := makeAbsent_keeps p (offBus s)
  have ended : protectiveEnd p none (offBus s) = makeAbsent p (offBus s) := rfl
  rw [ended]
  generalize makeAbsent p (offBus s) = t at sup slots control
  have granted := grantBus_next t (by rw [sup]; rfl) (by rw [sup]; exact waits)
  rw [sup, nextOnBus_modules] at granted
  obtain ⟨poll, pass, modules⟩ := nextOnBus_poll (offBus s).sup
  rw [granted]
  refine ⟨rfl, rfl, poll, pass, ?_, ?_, ?_, fun k other => ?_, slots, control⟩
  · exact congrArg ModuleRecord.state (look_put_self _ p _)
  · exact congrArg ModuleRecord.caps (look_put_self _ p _)
  · exact tripped_put_absent _ p p
  · exact look_put_of_ne _ (Ne.symm other) _

/-- A protective write's end while a pass-through waits that may reach its module. -/
theorem protectiveEnds_pass (h : Still s) (v : Word16) {q : PassThrough}
    (flight : s.sup.bus = some { user := .protective, module_ := p, word := w, value := val })
    (queue : s.sup.protective = []) (pass : s.sup.pass = some q)
    (open_ : q.value = none ∨ q.word ≠ 8 ∨ (look s.sup.modules q.module_).tripped = false) :
    let granted : Transaction :=
      { user := .passThrough, module_ := q.module_, word := q.word, value := q.value }
    exec (.busTransactionEnd v) s = .next { s with sup := { s.sup with bus := some granted } }
    ∧ ∃ u : State, exec .busAnswerTimeout s = .next u.settled
      ∧ u.sup.bus = some granted ∧ u.sup.pass = some q
      ∧ (look u.sup.modules p).state = .absent ∧ (look u.sup.modules p).caps = none := by
  have passes : ∀ t : State, (look t.sup.modules q.module_).tripped
      = (look s.sup.modules q.module_).tripped → passBarred t q = false := by
    intro t same
    unfold passBarred
    rw [same]
    rcases open_ with read | other | up
    · simp [read]
    · simp [other]
    · simp [up]
  refine ⟨event_eq_of_work h ((busEnd_protective (some v) flight).trans
    (grantBus_pass q (offBus s) rfl queue pass (passes _ rfl))), ?_⟩
  refine ⟨_, event_of_work h (busEnd_protective none flight), ?_⟩
  obtain ⟨sup, slots, control⟩ := makeAbsent_keeps p (offBus s)
  have ended : protectiveEnd p none (offBus s) = makeAbsent p (offBus s) := rfl
  rw [ended]
  generalize makeAbsent p (offBus s) = t at sup slots control
  rw [grantBus_pass q t (by rw [sup]; rfl) (by rw [sup]; exact queue) (by rw [sup]; exact pass)
    (passes t (by rw [sup]; exact tripped_put_absent _ _ _)), sup]
  refine ⟨rfl, pass, ?_, ?_⟩
  · exact congrArg ModuleRecord.state (look_put_self _ p _)
  · exact congrArg ModuleRecord.caps (look_put_self _ p _)

/-- A protective write's end while a write of word 8 to a tripped module waits. -/
theorem protectiveEnds_barred (h : Still s) (v : Word16) {q : PassThrough}
    (flight : s.sup.bus = some { user := .protective, module_ := p, word := w, value := val })
    (queue : s.sup.protective = []) (pass : s.sup.pass = some q) (tag : Byte)
    (link : q.asker = .link tag) (write : q.value.isSome) (eight : q.word = 8)
    (down : (look s.sup.modules q.module_).tripped = true) :
    let next := nextOnBus { s.sup with bus := none, pass := none }
    exec (.busTransactionEnd v) s
      = .next (answered tag .ampWrite .state [] { s with sup := next })
    ∧ ∃ u : State, exec .busAnswerTimeout s = .next u.settled
      ∧ u.sup.bus = next.bus ∧ u.sup.pass = none
      ∧ .reply tag .ampWrite [[Status.state.code]] ∈ u.svc.link.tx
      ∧ (look u.sup.modules p).state = .absent ∧ (look u.sup.modules p).caps = none := by
  have barred : ∀ t : State, (look t.sup.modules q.module_).tripped
      = (look s.sup.modules q.module_).tripped → passBarred t q = true := by
    intro t same
    unfold passBarred
    rw [same, down, write, eight]
    rfl
  refine ⟨event_eq_of_work h ((busEnd_protective (some v) flight).trans
    (grantBus_barred (s := offBus s) rfl queue pass (barred _ rfl) link write)), ?_⟩
  refine ⟨_, event_of_work h (busEnd_protective none flight), ?_⟩
  obtain ⟨sup, slots, control⟩ := makeAbsent_keeps p (offBus s)
  have ended : protectiveEnd p none (offBus s) = makeAbsent p (offBus s) := rfl
  rw [ended]
  generalize makeAbsent p (offBus s) = t at sup slots control
  rw [grantBus_barred (s := t) (by rw [sup]; rfl) (by rw [sup]; exact queue)
    (by rw [sup]; exact pass) (barred t (by rw [sup]; exact tripped_put_absent _ _ _)) link write, sup]
  have modules := nextOnBus_modules { (offBus s).sup with pass := none }
    (put s.sup.modules p (absentRecord (look s.sup.modules p)))
  obtain ⟨_, free, _⟩ := nextOnBus_poll { (offBus s).sup with pass := none }
  refine ⟨(congrArg Supervisor.bus modules :), (congrArg Supervisor.pass modules :).trans free,
    reply_mem _ _ _ _ _, ?_, ?_⟩
  · exact (congrArg (fun u : Supervisor => (look u.modules p).state) modules).trans
      (congrArg ModuleRecord.state (look_put_self _ p _))
  · exact (congrArg (fun u : Supervisor => (look u.modules p).caps) modules).trans
      (congrArg ModuleRecord.caps (look_put_self _ p _))

/-- A read of a visit that is not answered. -/
theorem visitUnanswered (h : Still s) {x : Visit}
    (flight : s.sup.bus = some { user := .poll, module_ := x.module_, word := w, value := none })
    (visit : s.sup.poll = .visit x) (stays : x.dropped = false) :
    ∃ u : State, exec .busAnswerTimeout s = .next u.settled
      ∧ (look u.sup.modules x.module_).state = .absent
      ∧ (look u.sup.modules x.module_).caps = none
      ∧ u.svc.slots = s.svc.slots ∧ u.control.cfg = s.control.cfg := by
  refine ⟨_, event_of_work h (busEnd_poll none flight), ?_⟩
  have ended : pollEnd none (offBus s) = nextVisit x.module_ (makeAbsent x.module_ (offBus s)) := by
    have poll : (offBus s).sup.poll = .visit x := visit
    unfold pollEnd
    rw [poll]
    dsimp only
    rw [stays]
    rfl
  obtain ⟨sup, slots, control⟩ := makeAbsent_keeps x.module_ (offBus s)
  rw [ended]
  generalize makeAbsent x.module_ (offBus s) = t at sup slots control
  obtain ⟨modules, control', _, slots'⟩ := (nextVisit_onBus x.module_ t).trans (grantBus_onBus _)
  rw [modules, control', slots', sup]
  refine ⟨?_, ?_, slots, congrArg _ control⟩
  · exact congrArg ModuleRecord.state (look_put_self _ _ _)
  · exact congrArg ModuleRecord.caps (look_put_self _ _ _)

end ends

/-- Settles O27: an idle bus, and the end of a transaction of each user. -/
theorem transactionsEnd : Obligations.TransactionsEnd := by
  intro v s h
  refine ⟨fun idle => ⟨event_eq_of_work h (busEnd_idle _ idle), event_eq_of_work h (busEnd_idle _ idle)⟩,
    fun p tag w val flight pass => passThroughEnds h tag v flight pass,
    fun p w val flight waits => protectiveEnds h v flight waits,
    fun p w val q flight queue pass => ⟨fun open_ => protectiveEnds_pass h v flight queue pass open_,
      fun tag link write eight down => protectiveEnds_barred h v flight queue pass tag link write eight down⟩,
    fun x w flight visit stays => visitUnanswered h flight visit stays⟩

end Sys2Proof.Proofs.BusEnds
end

section
/-! PROOFS. The poll machine (R27-R32) and the drive state of a loop zone (R40-R43). -/

namespace Sys2Proof.Proofs.Visits

open Sys2Proof Sys2Proof.Machine Sys2Proof.Laws Sys2Proof.Proofs.Cues Sys2Proof.Proofs.Link
  Sys2Proof.Proofs.Passes Sys2Proof.Proofs.Polling Sys2Proof.Proofs.BusEnds

/-! ## The order of visits (R27) -/

/-- R27: the round that begins. -/
def roundOf (c : Configuration) : PollState :=
  match allModules.find? (fun m => c.supervision.enables.getLsbD (m.val + 1)) with
  | some m => .visit { module_ := m, step := 1, faulty := false, warm := false, dropped := false }
  | none => .idle

theorem beginRound_round (s : State) :
    beginRound s = { s with sup := { s.sup with poll := roundOf s.control.cfg } } := by
  unfold beginRound roundOf pollEnabled
  generalize allModules.find? _ = first
  cases first with
  | some m => rfl
  | none => rfl

theorem nextVisit_after (m : ModuleId) (s : State) :
    nextVisit m s = { s with sup := { s.sup with poll := afterVisit s m } } := by
  unfold nextVisit afterVisit pollEnabled
  dsimp only
  generalize allModules.find? _ = next
  cases next with
  | some k => rfl
  | none =>
    dsimp only
    generalize allModules.any _ = enabled
    cases enabled with
    | true => rfl
    | false => rfl

/-- The poll machine stands at the start of a visit, or between visits. -/
def Begins (p : PollState) : Prop := ∀ v, p = .visit v → v.step = 1

theorem roundOf_begins (c : Configuration) : Begins (roundOf c) := by
  intro v visit
  unfold roundOf at visit
  split at visit <;> cases visit
  rfl

theorem afterVisit_begins (s : State) (m : ModuleId) : Begins (afterVisit s m) := by
  intro v visit
  unfold afterVisit at visit
  dsimp only at visit
  split at visit
  · cases visit
    rfl
  · split at visit <;> cases visit

/-- R27, R28: a visit that begins reads word 0; in GAP and IDLE the bus stays idle. -/
theorem nextOnBus_begins {sup : Supervisor} (queue : sup.protective = []) (begins : Begins sup.poll) :
    nextOnBus sup = { sup with bus := firstRead sup.poll } := by
  unfold nextOnBus
  rw [queue]
  cases poll : sup.poll with
  | visit v =>
    dsimp only
    rw [begins v poll]
    rfl
  | _ => rfl

/-! ## The gap between rounds (R27) -/

theorem pollGapExpired_gap {s : State} {e : Nat} (h : s.sup.poll = .gap e) :
    pollGapExpired s
      = grantBus { s with sup := { s.sup with poll := roundOf s.control.cfg } } := by
  unfold pollGapExpired
  rw [h]
  exact congrArg grantBus (beginRound_round s)

theorem pollGapExpired_other {s : State} (h : ∀ e, s.sup.poll ≠ .gap e) : pollGapExpired s = s := by
  unfold pollGapExpired
  split
  next e gap => exact absurd gap (h e)
  next => rfl

/-- R27: the gap runs out. -/
theorem pollGapExpiry_acts (s : State) (h : Still s) :
    ((∀ e, s.sup.poll ≠ .gap e) → exec .pollGapExpiry s = .next s)
    ∧ (∀ e, s.sup.poll = .gap e → s.sup.bus.isSome →
        exec .pollGapExpiry s
          = .next { s with sup := { s.sup with poll := roundOf s.control.cfg } })
    ∧ (∀ e, s.sup.poll = .gap e → s.sup.bus = none → s.sup.protective = [] → s.sup.pass = none →
        exec .pollGapExpiry s = .next { s with sup := { s.sup with
          poll := roundOf s.control.cfg, bus := firstRead (roundOf s.control.cfg) } })
    ∧ (∀ e m b rest, s.sup.poll = .gap e → s.sup.bus = none → s.sup.protective = (m, b) :: rest →
        exec .pollGapExpiry s = .next { s with sup := { s.sup with
          poll := roundOf s.control.cfg, protective := rest
          bus := some { user := .protective, module_ := m, word := 8
                        value := some (if b then 1 else 0) } } })
    ∧ (∀ e, s.sup.poll = .gap e → goesOn (exec .pollGapExpiry s)) := by
  let t : State := { s with sup := { s.sup with poll := roundOf s.control.cfg } }
  refine ⟨fun other => event_eq_of_work h (pollGapExpired_other other),
    fun e gap flight => event_eq_of_work h ((pollGapExpired_gap gap).trans (grantBus_held (s := t) flight)),
    fun e gap idle queue free => event_eq_of_work h ((pollGapExpired_gap gap).trans ?_),
    fun e m b rest gap idle queue => event_eq_of_work h ((pollGapExpired_gap gap).trans
      (grantBus_protective (s := t) idle queue)), fun e _ => ⟨_, event_of_work h rfl⟩⟩
  have granted := grantBus_next t idle (Or.inl free)
  rwa [nextOnBus_begins (sup := t.sup) queue (roundOf_begins _)] at granted

/-! ## The drive state of a loop zone (R40, R41, R43) -/

theorem isLoopKind_iff (k : ZoneKind) : isLoopKind k = true ↔ k = .hallLoop ∨ k = .foyerLoop := by
  cases k <;> simp [isLoopKind]

theorem writeDrive_link (z : ZoneId) (d : DriveState) (b : Bool) (sv : Services) :
    (writeDrive z d b sv).link = sv.link := by
  unfold writeDrive
  dsimp only
  split <;> rfl

/-- R142: a zone that becomes FAILED leaves the unbroken sets; no other drive state touches the calls. -/
theorem writeDrive_calls (z : ZoneId) (d : DriveState) (b : Bool) (sv : Services) :
    (writeDrive z d b sv).calls
      = if d = .failed ∧ (look sv.zones z).drive ≠ .failed then
          sv.calls.map (fun k => if k.state = .playing then
            { k with unbroken := k.unbroken.filter (fun y => y != z) } else k)
        else sv.calls := by
  unfold writeDrive
  dsimp only
  split <;> rfl

/-- R40, R43: the link port and the calls after a loop zone is resolved. -/
theorem resolveZone_rest (z : ZoneId) (s : State)
    (h : isLoopKind (look s.control.cfg.zones z).kind = true) :
    (resolvedDrive s z = (look s.svc.zones z).drive → (resolveZone s z).svc.link = s.svc.link)
    ∧ (resolvedDrive s z ≠ (look s.svc.zones z).drive → (resolveZone s z).svc.link.pendingKinds
        = s.svc.link.pendingKinds ||| 0x0001)
    ∧ (resolveZone s z).svc.calls
        = (writeDrive z (resolvedDrive s z) (resolvedBackoff s z) s.svc).calls := by
  obtain ⟨_, _, _, same, changed⟩ := resolveZone_loop z s h
  refine ⟨fun e => ?_, fun e => ?_, ?_⟩
  · rw [same e]
    exact writeDrive_link z _ _ _
  · rw [changed e]
    exact (raise_kinds _ _ _).trans
      (congrArg (fun l : LinkPort => l.pendingKinds ||| 0x0001) (writeDrive_link z _ _ s.svc))
  · by_cases e : resolvedDrive s z = (look s.svc.zones z).drive
    · rw [same e]
    · rw [changed e]
      rfl

/-- R40-R43: what resolving a zone does. -/
theorem resolveZone_acts (z : ZoneId) (s : State) :
    let c := look s.control.cfg.zones z
    let old := look s.svc.zones z
    let u := resolveZone s z
    let new := look u.svc.zones z
    (c.kind ≠ .hallLoop → c.kind ≠ .foyerLoop → u = s)
    ∧ (c.kind = .hallLoop ∨ c.kind = .foyerLoop → DriveResolved z s u
      ∧ new = { old with drive := new.drive, backoff := new.backoff }
      ∧ (new.drive = old.drive → u.svc.link = s.svc.link)
      ∧ (new.drive ≠ old.drive → u.svc.link.pendingKinds = s.svc.link.pendingKinds ||| 0x0001)
      ∧ (new.drive = .failed → old.drive ≠ .failed → u.svc.calls = s.svc.calls.map (fun k =>
          if k.state = .playing then { k with unbroken := k.unbroken.filter (fun y => y != z) }
          else k))
      ∧ (new.drive ≠ .failed ∨ old.drive = .failed → u.svc.calls = s.svc.calls)
      ∧ (∀ y, y ≠ z → look u.svc.zones y = look s.svc.zones y)
      ∧ u.sup = s.sup ∧ u.control = s.control ∧ u.cue = s.cue ∧ u.svc.slots = s.svc.slots) := by
  intro c old u new
  refine ⟨fun hall foyer => ?_, fun loops => ?_⟩
  · have other : ¬ isLoopKind (look s.control.cfg.zones z).kind = true := fun loops =>
      ((isLoopKind_iff _).1 loops).elim hall foyer
    exact if_neg other
  · have loop := (isLoopKind_iff _).2 loops
    obtain ⟨resolved, record, others, _, _⟩ := resolveZone_loop z s loop
    obtain ⟨quiet, notice, calls⟩ := resolveZone_rest z s loop
    obtain ⟨sup, control, cue, _, slots, _, _⟩ := resolveZone_onDrive s z
    have drive : new.drive = resolvedDrive s z := congrArg ZoneRecord.drive record
    have backoff : new.backoff = resolvedBackoff s z := congrArg ZoneRecord.backoff record
    rw [writeDrive_calls] at calls
    refine ⟨resolved, ?_, fun e => quiet (drive ▸ e), fun e => notice (drive ▸ e), fun failed was => ?_,
      fun kept => ?_, others, sup, control, cue, slots⟩
    · rw [drive, backoff]
      exact record
    · exact calls.trans (if_pos ⟨drive ▸ failed, was⟩)
    · exact calls.trans (if_neg fun both => kept.elim (fun k => k (drive ▸ both.1)) both.2)

end Sys2Proof.Proofs.Visits
end

section
/-! PROOFS. The steps of a visit and its resolution (R28-R32). -/

namespace Sys2Proof.Proofs.VisitSteps

open Sys2Proof Sys2Proof.Machine Sys2Proof.Laws Sys2Proof.Proofs.Cues Sys2Proof.Proofs.Link
  Sys2Proof.Proofs.Passes Sys2Proof.Proofs.Polling Sys2Proof.Proofs.BusEnds Sys2Proof.Proofs.Visits

/-! ## The zones that list a module (R40) -/

/-- A fold reaches what one of its turns establishes, when every turn keeps it. -/
theorem foldl_reaches {α β : Type} {f : β → α → β} {inv goal : β → Prop} {x : α}
    (stays : ∀ b y, inv b → inv (f b y)) (hits : ∀ b, inv b → goal (f b x))
    (keeps : ∀ b y, inv b → goal b → goal (f b y)) :
    ∀ (l : List α) (b : β), x ∈ l → inv b → goal (l.foldl f b) := by
  have kept : ∀ (l : List α) (b : β), inv b → goal b → goal (l.foldl f b) := by
    intro l
    induction l with
    | nil => exact fun _ _ reached => reached
    | cons y rest ih => exact fun b start reached => ih _ (stays b y start) (keeps b y start reached)
  intro l
  induction l with
  | nil => exact fun _ mem => absurd mem List.not_mem_nil
  | cons y rest ih =>
    intro b mem start
    rcases List.mem_cons.1 mem with here | later
    · subst here
      exact kept rest _ (stays b x start) (hits b start)
    · exact ih _ later (stays b y start)

theorem resolved_of_onDrive {s t : State} (h : OnDrive s t) (z : ZoneId) :
    resolvedDrive t z = resolvedDrive s z ∧ resolvedBackoff t z = resolvedBackoff s z := by
  unfold resolvedDrive resolvedBackoff
  rw [h.sup, h.control]
  exact ⟨rfl, rfl⟩

/-- The drive fields of zone `z` in `t` are those that the module records of `s` give. -/
def ShowsDrive (s : State) (z : ZoneId) (t : State) : Prop :=
  (look t.svc.zones z).drive = resolvedDrive s z ∧ (look t.svc.zones z).backoff = resolvedBackoff s z

/-- R40: every loop zone that lists a module is resolved with it. -/
theorem resolveModule_shows (s : State) {m : ModuleId} {z : ZoneId}
    (loop : isLoopKind (look s.control.cfg.zones z).kind = true)
    (lists : m ∈ (look s.control.cfg.zones z).modules) : ShowsDrive s z (resolveModule s m) := by
  have own : ∀ t, OnDrive s t → ShowsDrive s z (resolveZone t z) := by
    intro t same
    obtain ⟨drive, backoff⟩ := resolved_of_onDrive same z
    obtain ⟨_, record, _, _, _⟩ := resolveZone_loop z t (by rw [same.control]; exact loop)
    exact ⟨(congrArg ZoneRecord.drive record).trans drive,
      (congrArg ZoneRecord.backoff record).trans backoff⟩
  have turn : ∀ t y, OnDrive s t → ShowsDrive s z t → ShowsDrive s z (resolveZone t y) := by
    intro t y same shown
    by_cases here : z = y
    · subst here
      exact own t same
    · by_cases other : isLoopKind (look t.control.cfg.zones y).kind = true
      · obtain ⟨_, _, others, _, _⟩ := resolveZone_loop y t other
        unfold ShowsDrive
        rw [others z here]
        exact shown
      · unfold resolveZone
        rw [if_neg other]
        exact shown
  unfold resolveModule
  refine foldl_reaches (x := z) (inv := OnDrive s) (fun t y same => ?_) (fun t same => ?_)
    (fun t y same shown => ?_) allZones s (mem_allZones z) (OnDrive.refl s)
  · split
    · exact same.trans (resolveZone_onDrive t y)
    · exact same
  · rw [if_pos (by rw [same.control]; simpa using lists)]
    exact own t same
  · split
    · exact turn t y same shown
    · exact shown

/-! ## The poll machine takes an answer -/

theorem pollEnd_dropped {s : State} {x : Visit} (answer : Option Word16) (visit : s.sup.poll = .visit x)
    (dropped : x.dropped = true) : pollEnd answer s = nextVisit x.module_ s := by
  unfold pollEnd
  rw [visit]
  exact if_pos dropped

theorem pollEnd_answer {s : State} {x : Visit} (v : Word16) (visit : s.sup.poll = .visit x)
    (stays : x.dropped = false) : pollEnd (some v) s = visitAnswer x v s := by
  unfold pollEnd
  rw [visit]
  exact if_neg (by simp [stays])

/-- R27, R36: what follows a visit, with no pass-through pending. -/
theorem grantBus_nextVisit {t : State} (m : ModuleId) (idle : t.sup.bus = none)
    (free : t.sup.pass = none) : grantBus (nextVisit m t)
      = { t with sup := nextOnBus { t.sup with poll := afterVisit t m } } := by
  rw [nextVisit_after]
  exact grantBus_next { t with sup := { t.sup with poll := afterVisit t m } } idle (Or.inl free)

/-- R27, R44: a dropped visit ends with the transaction in flight, whatever it brings. -/
theorem droppedVisit_ends (v : Word16) {x : Visit} {w : Nat} {s : State} (h : Still s)
    (visit : s.sup.poll = .visit x) (dropped : x.dropped = true) (queue : s.sup.protective = [])
    (free : s.sup.pass = none)
    (flight : s.sup.bus = some { user := .poll, module_ := x.module_, word := w, value := none }) :
    let next := afterVisit s x.module_
    let t : State := { s with sup := { s.sup with poll := next, bus := firstRead next } }
    exec (.busTransactionEnd v) s = .next t ∧ exec .busAnswerTimeout s = .next t := by
  intro next t
  have ends : ∀ answer, busEnd answer s = t := by
    intro answer
    rw [busEnd_poll answer flight, pollEnd_dropped (s := offBus s) answer visit dropped,
      grantBus_nextVisit (t := offBus s) x.module_ rfl free,
      nextOnBus_begins (sup := { (offBus s).sup with poll := afterVisit (offBus s) x.module_ }) queue
        (afterVisit_begins _ _)]
    rfl
  exact ⟨event_eq_of_work h (ends _), event_eq_of_work h (ends _)⟩

/-- R27, R36: the end of a visit, with no pass-through pending. -/
theorem visitOver_granted {s t : State} (m : ModuleId) (idle : t.sup.bus = none)
    (free : t.sup.pass = none) (control : t.control = s.control) :
    VisitOver m s (grantBus (nextVisit m t))
      ∧ (t.sup.protective = [] → (grantBus (nextVisit m t)).sup.bus = firstRead (afterVisit s m)) := by
  have after : afterVisit t m = afterVisit s m := by
    unfold afterVisit
    rw [control]
  rw [grantBus_nextVisit m idle free, after]
  obtain ⟨poll, _, _⟩ := nextOnBus_poll { t.sup with poll := afterVisit s m }
  have bus : t.sup.protective = [] →
      (nextOnBus { t.sup with poll := afterVisit s m }).bus = firstRead (afterVisit s m) := by
    intro queue
    rw [nextOnBus_begins (sup := { t.sup with poll := afterVisit s m }) queue (afterVisit_begins _ _)]
  refine ⟨⟨poll, fun user => ?_⟩, bus⟩
  cases queue : t.sup.protective with
  | nil => exact bus queue
  | cons p rest =>
    refine absurd ?_ user
    unfold nextOnBus
    dsimp only
    rw [queue]
    rfl

/-! ## The resolution of a visit (R32) -/

/-- R32: the record of a module after step 7. -/
def recordAfter (limit : Nat) (x : Visit) (r : ModuleRecord) : ModuleRecord :=
  (resolveRecord limit x r).1

/-- R32: whether step 7 trips a module. -/
def tripsNow (limit : Nat) (x : Visit) (r : ModuleRecord) : Bool := (resolveRecord limit x r).2

theorem tripsNow_eq (limit : Nat) (x : Visit) (r : ModuleRecord) :
    tripsNow limit x r = (x.faulty && decide (limit ≤ r.run + 1) && !r.tripped) := by
  unfold tripsNow resolveRecord visitResult
  cases x.faulty <;> cases x.warm <;> simp

theorem recordAfter_eq (limit : Nat) (x : Visit) (r : ModuleRecord) : recordAfter limit x r
    = { r with
        state := if x.faulty then .fault else if x.warm then .warn else .good
        run := if x.faulty then min limit (r.run + 1) else 0
        tripped := r.tripped || (x.faulty && decide (limit ≤ r.run + 1)) } := by
  unfold recordAfter resolveRecord visitResult
  cases x.faulty <;> cases x.warm <;> cases r.tripped <;> simp

/-- R32, R33: the record that step 7 writes, and the protective write of a trip. -/
def posted (x : Visit) (t : State) : State :=
  let limit := t.control.cfg.supervision.tripLimit
  let r := look t.sup.modules x.module_
  { t with sup := { t.sup with
    modules := put t.sup.modules x.module_ (recordAfter limit x r)
    protective := if tripsNow limit x r then queueProtective x.module_ false t.sup.protective
      else t.sup.protective } }

/-- R32: step 7 has judged a visit; the poll machine has not gone on yet. -/
def judged (x : Visit) (t : State) : State :=
  let limit := t.control.cfg.supervision.tripLimit
  let r := look t.sup.modules x.module_
  noticeModule r.state (recordAfter limit x r).state (tripsNow limit x r)
    (resolveModule (posted x t) x.module_)

theorem resolveVisit_eq (x : Visit) (t : State) :
    resolveVisit x t = nextVisit x.module_ (judged x t) := by
  have post : (if tripsNow t.control.cfg.supervision.tripLimit x (look t.sup.modules x.module_) then
      (t.updModule x.module_ fun _ => recordAfter t.control.cfg.supervision.tripLimit x
        (look t.sup.modules x.module_)).protect x.module_ false
      else t.updModule x.module_ fun _ => recordAfter t.control.cfg.supervision.tripLimit x
        (look t.sup.modules x.module_)) = posted x t := by
    unfold posted
    dsimp only
    split <;> rfl
  unfold judged
  rw [← post]
  rfl

/-- R43: a trip raises MODULE. -/
theorem noticeModule_trips (was now : ModuleState) (s : State) :
    (noticeModule was now true s).svc.link.pendingKinds &&& 0x0002 = 0x0002 := by
  unfold noticeModule
  rw [if_pos (Or.inr rfl)]
  exact (congrArg (· &&& 0x0002) (raise_kinds _ _ _)).trans (kinds_raised _ 0x0002)

theorem noticeModule_zones (was now : ModuleState) (trips : Bool) (s : State) :
    (noticeModule was now trips s).svc.zones = s.svc.zones := by
  unfold noticeModule
  split <;> rfl

/-- R32, R40: what step 7 leaves to the poll machine and the arbiter. -/
structure Judged (x : Visit) (t j : State) : Prop where
  modules : j.sup.modules = put t.sup.modules x.module_
    (recordAfter t.control.cfg.supervision.tripLimit x (look t.sup.modules x.module_))
  quiet : tripsNow t.control.cfg.supervision.tripLimit x (look t.sup.modules x.module_) = false →
    j.sup.protective = t.sup.protective
  trip : tripsNow t.control.cfg.supervision.tripLimit x (look t.sup.modules x.module_) = true →
    j.sup.protective = queueProtective x.module_ false t.sup.protective
      ∧ j.svc.link.pendingKinds &&& 0x0002 = 0x0002
  bus : j.sup.bus = t.sup.bus
  pass : j.sup.pass = t.sup.pass
  shows : ∀ z, isLoopKind (look t.control.cfg.zones z).kind = true →
    x.module_ ∈ (look t.control.cfg.zones z).modules → ShowsDrive j z j
  control : j.control = t.control
  cue : j.cue = t.cue
  slots : j.svc.slots = t.svc.slots

theorem judged_judged (x : Visit) (t : State) : Judged x t (judged x t) := by
  have zones : (judged x t).svc.zones = (resolveModule (posted x t) x.module_).svc.zones :=
    noticeModule_zones _ _ _ _
  have same : OnDrive (posted x t) (judged x t) :=
    (resolveModule_onDrive (posted x t) x.module_).trans (noticeModule_onDrive _ _ _ _)
  refine ⟨congrArg Supervisor.modules same.sup, fun quiet => ?_, fun trips => ⟨?_, ?_⟩,
    (congrArg Supervisor.bus same.sup :), (congrArg Supervisor.pass same.sup :), fun z loop lists => ?_,
    same.control, same.cue, same.slots⟩
  · exact (congrArg Supervisor.protective same.sup).trans (if_neg (by simp [quiet]))
  · exact (congrArg Supervisor.protective same.sup).trans (if_pos trips)
  · unfold judged
    dsimp only
    rw [trips]
    exact noticeModule_trips _ _ _
  · obtain ⟨drive, backoff⟩ := resolved_of_onDrive same z
    have shown := resolveModule_shows (posted x t) loop lists
    unfold ShowsDrive at shown ⊢
    rw [zones, drive, backoff]
    exact shown

/-- A state between the answer to a read and the resolution: module `m` of `s` has the record `read`. -/
structure Answered (m : ModuleId) (read : ModuleRecord) (s t : State) : Prop where
  modules : t.sup.modules = put s.sup.modules m read
  idle : t.sup.bus = none
  queue : t.sup.protective = []
  pass : t.sup.pass = none
  control : t.control = s.control
  cue : t.cue = s.cue
  slots : t.svc.slots = s.svc.slots

/-- R32: step 7 with nothing but visits waiting for the bus. -/
theorem resolveVisit_resolved {x : Visit} {read : ModuleRecord} {s t : State}
    (h : Answered x.module_ read s t) (run : read.run = (look s.sup.modules x.module_).run)
    (tripped : read.tripped = (look s.sup.modules x.module_).tripped) :
    (grantBus (resolveVisit x t)).sup.modules = put s.sup.modules x.module_
        (recordAfter s.control.cfg.supervision.tripLimit x read)
      ∧ VisitResolved x.module_ x.faulty x.warm s (grantBus (resolveVisit x t)) := by
  have now : look t.sup.modules x.module_ = read := by rw [h.modules, look_put_self]
  obtain ⟨modules, quiet, trip, bus, pass, shows, control, cue, slots⟩ := judged_judged x t
  rw [now, h.control] at modules quiet trip
  rw [h.control] at shows
  rw [resolveVisit_eq]
  generalize judged x t = j at *
  have idle := bus.trans h.idle
  have free := pass.trans h.pass
  have records : j.sup.modules = put s.sup.modules x.module_
      (recordAfter s.control.cfg.supervision.tripLimit x read) := by
    rw [modules, h.modules]
    exact table_ext fun k => by
      simp only [look_put]
      split <;> rfl
  obtain ⟨ends, _⟩ := visitOver_granted (t := j) x.module_ idle free (control.trans h.control)
  have kept := (nextVisit_onBus x.module_ j).trans (grantBus_onBus _)
  have granted := grantBus_nextVisit (t := j) x.module_ idle free
  have after : look (grantBus (nextVisit x.module_ j)).sup.modules x.module_
      = recordAfter s.control.cfg.supervision.tripLimit x read := by
    rw [kept.modules, records, look_put_self]
  refine ⟨kept.modules.trans records, ?_, ?_, ?_, fun up down => ?_, fun z loops lists => ?_, ends,
    fun k other => ?_, ⟨kept.slots.trans (slots.trans h.slots),
      kept.control.trans (control.trans h.control), kept.cue.trans (cue.trans h.cue)⟩⟩
  · rw [after, recordAfter_eq]
  · rw [after, recordAfter_eq, ← run]
  · rw [after, recordAfter_eq, ← run, ← tripped]
  · rw [after, recordAfter_eq] at down
    have trips : tripsNow s.control.cfg.supervision.tripLimit x read = true := by
      rw [tripsNow_eq]
      simpa [tripped, up] using down
    obtain ⟨queue, notice⟩ := trip trips
    rw [h.queue] at queue
    rw [granted]
    refine ⟨?_, notice⟩
    unfold nextOnBus
    dsimp only
    rw [queue]
    rfl
  · have drive := shows z ((isLoopKind_iff _).2 loops) lists
    have same : ShowsDrive (grantBus (nextVisit x.module_ j)) z (grantBus (nextVisit x.module_ j)) := by
      unfold ShowsDrive resolvedDrive resolvedBackoff at drive ⊢
      rw [kept.control, kept.modules, granted]
      exact drive
    exact driveResolved_of z _ _ same.1 same.2
  · rw [kept.modules, records, look_put_of_ne _ (Ne.symm other)]

/-- R31, R32: a fault hides what the temperature says. -/
theorem visitResolved_of_warm {m : ModuleId} {faulty warm warm' : Bool} {s u : State}
    (h : VisitResolved m faulty warm s u) (same : faulty = false → warm = warm') :
    VisitResolved m faulty warm' s u := by
  cases faulty with
  | false => exact same rfl ▸ h
  | true => exact ⟨h.state, h.run, h.tripped, h.takeDown, h.drive, h.next, h.others, h.rest⟩

end Sys2Proof.Proofs.VisitSteps
end

section
/-! PROOFS. What the poll machine makes of each answer (R28-R32). -/

namespace Sys2Proof.Proofs.VisitAnswers

open Sys2Proof Sys2Proof.Machine Sys2Proof.Laws Sys2Proof.Proofs.Cues Sys2Proof.Proofs.Link
  Sys2Proof.Proofs.Passes Sys2Proof.Proofs.Polling Sys2Proof.Proofs.BusEnds Sys2Proof.Proofs.Visits
  Sys2Proof.Proofs.VisitSteps

/-- A visit of a module in the poll set whose read has been sent, with nothing else waiting. -/
structure Reading (x : Visit) (word : Nat) (s : State) : Prop extends Still s where
  visit : s.sup.poll = .visit x
  stays : x.dropped = false
  queue : s.sup.protective = []
  free : s.sup.pass = none
  reads : s.sup.bus = some { user := .poll, module_ := x.module_, word := word, value := none }

/-- R28, R36: with nothing else waiting the visit's next word is read. -/
theorem nextOnBus_read {sup : Supervisor} {y : Visit} (queue : sup.protective = [])
    (visit : sup.poll = .visit y) : nextOnBus sup = { sup with
      bus := some { user := .poll, module_ := y.module_, word := stepWord y.step, value := none } } := by
  unfold nextOnBus
  rw [queue, visit]
  rfl

/-- R33, R36: a protective write that waits is next. -/
theorem nextOnBus_protective {sup : Supervisor} {m : ModuleId} {b : Bool} {rest : List (ModuleId × Bool)}
    (queue : sup.protective = (m, b) :: rest) : nextOnBus sup = { sup with
      protective := rest
      bus := some { user := .protective, module_ := m, word := 8
                    value := some (if b then 1 else 0) } } := by
  unfold nextOnBus
  rw [queue]

section steps

variable {x : Visit} {word : Nat} {s : State} (h : Reading x word s) (v : Word16)

include h

theorem busEnd_reading : busEnd (some v) s = grantBus (visitAnswer x v (offBus s)) := by
  rw [busEnd_poll (some v) h.reads, pollEnd_answer (s := offBus s) v h.visit h.stays]

/-- R36: with no pass-through pending the arbiter grants the next read or a protective write. -/
theorem visitAnswer_granted {t : State} (answer : visitAnswer x v (offBus s) = t)
    (idle : t.sup.bus = none) (free : t.sup.pass = none) :
    busEnd (some v) s = { t with sup := nextOnBus t.sup } := by
  rw [busEnd_reading h, answer, grantBus_next t idle (Or.inl free)]

/-- R28 step 1: no module answers with all ones. -/
theorem identity_absent (step : x.step = 1) (none_ : v = 0xFFFF) :
    ∃ u : State, exec (.busTransactionEnd v) s = .next u.settled
      ∧ u.sup.modules = put s.sup.modules x.module_
          { look s.sup.modules x.module_ with state := .absent, caps := none }
      ∧ VisitOver x.module_ s u ∧ u.svc.slots = s.svc.slots ∧ u.control = s.control := by
  refine ⟨_, event_of_work h.toStill (busEnd_reading h v), ?_⟩
  have answer : visitAnswer x v (offBus s) = nextVisit x.module_ (makeAbsent x.module_ (offBus s)) := by
    unfold visitAnswer
    rw [step]
    exact if_pos none_
  obtain ⟨sup, slots, control⟩ := makeAbsent_keeps x.module_ (offBus s)
  rw [answer]
  generalize makeAbsent x.module_ (offBus s) = t at sup slots control
  have kept := (nextVisit_onBus x.module_ t).trans (grantBus_onBus _)
  obtain ⟨ends, _⟩ := visitOver_granted (t := t) (s := s) x.module_ (by rw [sup]; rfl)
    (by rw [sup]; exact h.free) control
  exact ⟨kept.modules.trans (congrArg Supervisor.modules sup), ends, kept.slots.trans slots,
    kept.control.trans control⟩

omit h v

/-- R28 step 1: another module answers than before. -/
def exchanged (w : Word16) (r : ModuleRecord) : Bool :=
  match r.identity with | some old => decide (old ≠ w) | none => false

/-- R28 step 1: the record of a module that has answered its identity. -/
def identified (w : Word16) (r : ModuleRecord) : ModuleRecord :=
  if exchanged w r then { r with identity := some w, caps := none, run := 0, tripped := false }
  else { r with identity := some w }

theorem identified_identity (w : Word16) (r : ModuleRecord) : (identified w r).identity = some w := by
  unfold identified
  split <;> rfl

/-- R28 step 1: a module that was exchanged begins anew. -/
theorem identified_exchanged {w old : Word16} {r : ModuleRecord} (was : r.identity = some old)
    (other : old ≠ w) : (identified w r).tripped = false ∧ (identified w r).run = 0
      ∧ (identified w r).caps = none := by
  have new : exchanged w r = true := by
    unfold exchanged
    rw [was]
    exact decide_eq_true other
  unfold identified
  rw [if_pos new]
  exact ⟨rfl, rfl, rfl⟩

theorem visitIdentity_known (x : Visit) {w : Word16} (t : State) (known : w ≠ 0xFFFF) :
    ∃ k : State, OnDrive (t.updModule x.module_ (fun _ => identified w (look t.sup.modules x.module_))) k
      ∧ visitIdentity x w t = k.setVisit { x with step := 2 } := by
  have record : t.updModule x.module_ (fun r =>
      if exchanged w (look t.sup.modules x.module_) then
        { r with identity := some w, caps := none, run := 0, tripped := false }
      else { r with identity := some w })
      = t.updModule x.module_ (fun _ => identified w (look t.sup.modules x.module_)) := rfl
  unfold visitIdentity
  rw [if_neg known]
  change ∃ k, _ ∧ (if exchanged w (look t.sup.modules x.module_) then
    resolveModule (t.updModule x.module_ (fun r =>
      if exchanged w (look t.sup.modules x.module_) then
        { r with identity := some w, caps := none, run := 0, tripped := false }
      else { r with identity := some w })) x.module_
    else t.updModule x.module_ (fun r =>
      if exchanged w (look t.sup.modules x.module_) then
        { r with identity := some w, caps := none, run := 0, tripped := false }
      else { r with identity := some w })).setVisit _ = _
  rw [record]
  split
  · exact ⟨_, resolveModule_onDrive _ _, rfl⟩
  · exact ⟨_, OnDrive.refl _, rfl⟩

include h

/-- R28 step 1: a module has answered its identity. -/
theorem identity_read {v : Word16} (step : x.step = 1) (known : v ≠ 0xFFFF) :
    ∃ u : State, exec (.busTransactionEnd v) s = .next u.settled
      ∧ (look u.sup.modules x.module_).identity = some v ∧ u.sup.poll = .visit { x with step := 2 }
      ∧ u.sup.bus = some { user := .poll, module_ := x.module_, word := 2, value := none }
      ∧ (∀ old, (look s.sup.modules x.module_).identity = some old → old ≠ v →
          (look u.sup.modules x.module_).tripped = false ∧ (look u.sup.modules x.module_).run = 0
          ∧ (look u.sup.modules x.module_).caps = none)
      ∧ (∀ k, k ≠ x.module_ → look u.sup.modules k = look s.sup.modules k)
      ∧ u.svc.slots = s.svc.slots ∧ u.control = s.control := by
  obtain ⟨k, kept, eq⟩ := visitIdentity_known x (offBus s) known
  have answer : visitAnswer x v (offBus s) = k.setVisit { x with step := 2 } := by
    unfold visitAnswer
    rw [step]
    exact eq
  have sup := kept.sup
  have granted := visitAnswer_granted h v answer (by
    show k.sup.bus = none
    rw [sup]; rfl) (by
    show k.sup.pass = none
    rw [sup]; exact h.free)
  have queue : k.sup.protective = [] := by rw [sup]; exact h.queue
  have next := nextOnBus_read (sup := (k.setVisit { x with step := 2 }).sup) queue rfl
  rw [next] at granted
  have record : look k.sup.modules x.module_ = identified v (look s.sup.modules x.module_) := by
    rw [sup]
    exact look_put_self _ _ _
  refine ⟨_, event_of_work h.toStill granted, ?_, rfl, rfl, fun old was other => ?_, fun y other => ?_,
    kept.slots, kept.control⟩
  · exact (congrArg ModuleRecord.identity record).trans (identified_identity _ _)
  · obtain ⟨up, run, caps⟩ := identified_exchanged was other
    exact ⟨(congrArg ModuleRecord.tripped record).trans up, (congrArg ModuleRecord.run record).trans run,
      (congrArg ModuleRecord.caps record).trans caps⟩
  · show look k.sup.modules y = _
    rw [sup]
    exact look_put_of_ne _ (Ne.symm other) _

/-- A visit whose next read follows at once. -/
theorem read_follows {v : Word16} {y : Visit} {ms : Vector ModuleRecord 12} {w : Nat}
    (answer : visitAnswer x v (offBus s) = { s with sup := { s.sup with
      modules := ms, poll := .visit y, bus := none } })
    (word : stepWord y.step = w) :
    exec (.busTransactionEnd v) s = .next { s with sup := { s.sup with
      modules := ms, poll := .visit y
      bus := some { user := .poll, module_ := y.module_, word := w, value := none } } } := by
  refine event_eq_of_work h.toStill ((visitAnswer_granted h v answer rfl h.free).trans ?_)
  have next := nextOnBus_read (y := y)
    (sup := { s.sup with modules := ms, poll := .visit y, bus := none }) h.queue rfl
  rw [word] at next
  rw [next]

/-- R29, R31 step 3: the capabilities. -/
theorem caps_read (v : Word16) (step : x.step = 3) :
    exec (.busTransactionEnd v) s = .next { s with sup := { s.sup with
      modules := put s.sup.modules x.module_
        { look s.sup.modules x.module_ with
          caps := some { thermal := v.getLsbD 0, supply := v.getLsbD 1 }
          temperature := if v.getLsbD 0 then (look s.sup.modules x.module_).temperature else none }
      poll := .visit { x with step := 4 }
      bus := some { user := .poll, module_ := x.module_, word := 3, value := none } } } := by
  refine read_follows h ?_ rfl
  unfold visitAnswer
  rw [step]
  rfl

/-- R29 step 4: the latched faults. -/
theorem faults_read (v : Word16) (step : x.step = 4) :
    exec (.busTransactionEnd v) s = .next { s with sup := { s.sup with
      modules := put s.sup.modules x.module_
        { look s.sup.modules x.module_ with
          latch := (look s.sup.modules x.module_).latch.union (wordFaults v)
          carried := ⟨false, false, false, false, false⟩ }
      poll := .visit { x with
        step := 5
        faulty := x.faulty || ((wordFaults v).union (look s.sup.modules x.module_).carried).some }
      bus := some { user := .poll, module_ := x.module_, word := 4, value := none } } } := by
  refine read_follows h ?_ rfl
  unfold visitAnswer
  rw [step]
  rfl

/-- R28 step 2: the record once the state word has been read. -/
def shownOutput (v : Word16) (r : ModuleRecord) : ModuleRecord := { r with outputEnabled := some (v.getLsbD 1) }

/-- R33: the state before the visit goes on after step 2. -/
def outputTaken (v : Word16) (x : Visit) (s : State) : State :=
  let r := look s.sup.modules x.module_
  { s with sup := { s.sup with
    bus := none
    modules := put s.sup.modules x.module_ (shownOutput v r)
    protective := if r.tripped && v.getLsbD 1 then queueProtective x.module_ false s.sup.protective
      else s.sup.protective } }

omit h in
theorem visitState_eq (x : Visit) (v : Word16) (s : State) : visitState x v (offBus s) =
    if v.getLsbD 0 then (outputTaken v x s).setVisit
      { x with step := if (look s.sup.modules x.module_).caps = none then 3 else 4 }
    else nextVisit x.module_ (resolveModule ((outputTaken v x s).updModule x.module_
      (fun r => { r with state := .notReady })) x.module_) := by
  have caps : (offBus s).updModule x.module_ (shownOutput v) = (offBus s).updModule x.module_ (fun r =>
    { r with outputEnabled := some (v.getLsbD 1) }) := rfl
  have record : look ((offBus s).updModule x.module_ (shownOutput v)).sup.modules x.module_
      = shownOutput v (look s.sup.modules x.module_) := look_put_self _ _ _
  unfold visitState
  dsimp only
  rw [← caps, record]
  have taken_ : (if (shownOutput v (look s.sup.modules x.module_)).tripped && v.getLsbD 1 then
      ((offBus s).updModule x.module_ (shownOutput v)).protect x.module_ false
      else (offBus s).updModule x.module_ (shownOutput v)) = outputTaken v x s := by
    unfold outputTaken
    dsimp only
    by_cases trip : ((look s.sup.modules x.module_).tripped && v.getLsbD 1) = true
    · rw [if_pos trip]
      exact if_pos trip
    · rw [if_neg trip]
      exact if_neg trip
  rw [taken_]
  have step : stepAfterState (shownOutput v (look s.sup.modules x.module_))
      = if (look s.sup.modules x.module_).caps = none then 3 else 4 := by
    unfold stepAfterState shownOutput
    cases (look s.sup.modules x.module_).caps <;> rfl
  rw [step]

/-- R33: the write that takes a module's output down. -/
def takeDownOf (m : ModuleId) : Transaction :=
  { user := .protective, module_ := m, word := 8, value := some 0 }

/-- R28 step 2: a module that is ready. -/
theorem state_ready (v : Word16) (step : x.step = 2) (ready : v.getLsbD 0 = true) :
    exec (.busTransactionEnd v) s = .next { s with sup := { s.sup with
      modules := put s.sup.modules x.module_
        { look s.sup.modules x.module_ with outputEnabled := some (v.getLsbD 1) }
      poll := .visit { x with step := if (look s.sup.modules x.module_).caps = none then 3 else 4 }
      bus := some (if (look s.sup.modules x.module_).tripped && v.getLsbD 1 then takeDownOf x.module_
        else { user := .poll, module_ := x.module_
               word := if (look s.sup.modules x.module_).caps = none then 1 else 3, value := none }) } } := by
  have answer : visitAnswer x v (offBus s) = (outputTaken v x s).setVisit
      { x with step := if (look s.sup.modules x.module_).caps = none then 3 else 4 } := by
    unfold visitAnswer
    rw [step]
    exact (visitState_eq x v s).trans (if_pos ready)
  refine event_eq_of_work h.toStill ((visitAnswer_granted h v answer rfl h.free).trans ?_)
  by_cases trip : ((look s.sup.modules x.module_).tripped && v.getLsbD 1) = true
  · have queue : (outputTaken v x s).sup.protective = [(x.module_, false)] := by
      unfold outputTaken
      dsimp only
      rw [if_pos trip, h.queue]
      rfl
    have next := nextOnBus_protective (sup := ((outputTaken v x s).setVisit
      { x with step := if (look s.sup.modules x.module_).caps = none then 3 else 4 }).sup) queue
    rw [next, if_pos trip, ← h.queue]
    rfl
  · have queue : (outputTaken v x s).sup.protective = s.sup.protective := by
      unfold outputTaken
      exact if_neg trip
    have next := nextOnBus_read (sup := ((outputTaken v x s).setVisit
      { x with step := if (look s.sup.modules x.module_).caps = none then 3 else 4 }).sup)
      (queue.trans h.queue) rfl
    rw [next, if_neg trip]
    have word : stepWord (if (look s.sup.modules x.module_).caps = none then 3 else 4)
        = if (look s.sup.modules x.module_).caps = none then 1 else 3 := by
      split <;> rfl
    rw [word]
    dsimp only [State.setVisit, State.setSup]
    rw [queue]
    rfl

/-- R28 step 2: a module that is not ready. -/
theorem state_notReady (v : Word16) (step : x.step = 2) (down : v.getLsbD 0 = false) :
    ∃ u : State, exec (.busTransactionEnd v) s = .next u.settled
      ∧ u.sup.modules = put s.sup.modules x.module_
        { look s.sup.modules x.module_ with
          outputEnabled := some (v.getLsbD 1), state := .notReady }
      ∧ ((look s.sup.modules x.module_).tripped = true → v.getLsbD 1 = true →
          u.sup.bus = some (takeDownOf x.module_))
      ∧ ((look s.sup.modules x.module_).tripped = false ∨ v.getLsbD 1 = false →
          u.sup.bus = firstRead (afterVisit s x.module_))
      ∧ VisitOver x.module_ s u ∧ u.svc.slots = s.svc.slots ∧ u.control = s.control := by
  refine ⟨_, event_of_work h.toStill (busEnd_reading h v), ?_⟩
  have answer : visitAnswer x v (offBus s) = nextVisit x.module_ (resolveModule
      ((outputTaken v x s).updModule x.module_ (fun r => { r with state := .notReady })) x.module_) := by
    unfold visitAnswer
    rw [step]
    exact (visitState_eq x v s).trans (if_neg (ne_true_of_eq_false down))
  obtain ⟨sup, control, _, _, slots, _, _⟩ := resolveModule_onDrive
    ((outputTaken v x s).updModule x.module_ (fun r => { r with state := .notReady })) x.module_
  rw [answer]
  generalize resolveModule _ x.module_ = t at sup control slots
  have idle : t.sup.bus = none := by rw [sup]; rfl
  have free : t.sup.pass = none := by rw [sup]; exact h.free
  have queue : t.sup.protective = if (look s.sup.modules x.module_).tripped && v.getLsbD 1 then
      queueProtective x.module_ false s.sup.protective else s.sup.protective := by
    rw [sup]
    rfl
  have kept := (nextVisit_onBus x.module_ t).trans (grantBus_onBus _)
  obtain ⟨ends, first⟩ := visitOver_granted (t := t) (s := s) x.module_ idle free control
  refine ⟨kept.modules.trans ?_, fun was on => ?_, fun off => first ?_, ends, kept.slots.trans slots,
    kept.control.trans control⟩
  · rw [sup]
    refine table_ext fun k => ?_
    simp only [State.updModule, State.setSup, outputTaken, shownOutput, look_put]
    split <;> rfl
  · rw [if_pos (Bool.and_eq_true_iff.2 ⟨was, on⟩), h.queue] at queue
    rw [grantBus_nextVisit x.module_ idle free]
    exact congrArg Supervisor.bus (nextOnBus_protective
      (sup := { t.sup with poll := afterVisit t x.module_ }) queue)
  · have quiet : ((look s.sup.modules x.module_).tripped && v.getLsbD 1) = false :=
      Bool.and_eq_false_iff.2 off
    rw [quiet, h.queue] at queue
    exact queue

/-- R30 step 5: a reading below the window of the loop zone that lists the module. -/
def shortIn (s : State) (m : ModuleId) (v : Word16) : Bool :=
  match loopZoneOf s.control.cfg m with
  | some z => decide (v.toNat < (look s.control.cfg.zones z).windowLow)
  | none => false

/-- R30 step 5: a reading above the window of the loop zone that lists the module. -/
def openIn (s : State) (m : ModuleId) (v : Word16) : Bool :=
  match loopZoneOf s.control.cfg m with
  | some z => decide ((look s.control.cfg.zones z).windowHigh < v.toNat)
  | none => false

/-- R30: the record after step 5. -/
def measured (s : State) (m : ModuleId) (v : Word16) : ModuleRecord :=
  { look s.sup.modules m with
    resistance := some v.toNat
    loopShort := (look s.sup.modules m).loopShort || shortIn s m v
    loopOpen := (look s.sup.modules m).loopOpen || openIn s m v }

/-- The state with no transaction in flight and another record of a module. -/
def withRecord (m : ModuleId) (r : ModuleRecord) (s : State) : State :=
  { s with sup := { s.sup with bus := none, modules := put s.sup.modules m r } }

omit h in
theorem visitResistance_eq (x : Visit) (v : Word16) (s : State) : visitResistance x v (offBus s)
    = afterResistance { x with faulty := x.faulty || shortIn s x.module_ v || openIn s x.module_ v }
        (withRecord x.module_ (measured s x.module_ v) s) := by
  have cfg : (offBus s).control.cfg = s.control.cfg := rfl
  unfold visitResistance measured shortIn openIn
  dsimp only
  rw [cfg]
  cases loopZoneOf s.control.cfg x.module_ <;> rfl

omit h in
theorem answered_withRecord {m : ModuleId} (r : ModuleRecord) (queue : s.sup.protective = [])
    (free : s.sup.pass = none) : Answered m r s (withRecord m r s) :=
  ⟨rfl, rfl, queue, free, rfl, rfl, rfl⟩

omit h in
theorem visitAnswer_resistance (v : Word16) (step : x.step = 5) : visitAnswer x v (offBus s)
    = afterResistance { x with faulty := x.faulty || shortIn s x.module_ v || openIn s x.module_ v }
        (withRecord x.module_ (measured s x.module_ v) s) := by
  unfold visitAnswer
  rw [step]
  exact visitResistance_eq x v s

/-- R30, R31 step 5: a module with thermal sense is read on. -/
theorem resistance_thermal (v : Word16) (step : x.step = 5) {c : Caps}
    (caps : (look s.sup.modules x.module_).caps = some c) (thermal : c.thermal = true) :
    exec (.busTransactionEnd v) s = .next { s with sup := { s.sup with
      modules := put s.sup.modules x.module_ (measured s x.module_ v)
      poll := .visit { x with
        step := 6, faulty := x.faulty || shortIn s x.module_ v || openIn s x.module_ v }
      bus := some { user := .poll, module_ := x.module_, word := 5, value := none } } } := by
  refine read_follows h (y := { x with
    step := 6, faulty := x.faulty || shortIn s x.module_ v || openIn s x.module_ v }) ?_ rfl
  rw [visitAnswer_resistance v step]
  have record : (look (withRecord x.module_ (measured s x.module_ v) s).sup.modules x.module_).caps
      = some c := (congrArg ModuleRecord.caps (look_put_self _ _ _)).trans caps
  unfold afterResistance
  dsimp only
  rw [record]
  exact if_pos thermal

/-- R30, R32 step 5: a module without thermal sense is resolved. -/
theorem resistance_resolved (v : Word16) (step : x.step = 5)
    (cold : ∀ c, (look s.sup.modules x.module_).caps = some c → c.thermal = false) :
    ∃ u : State, exec (.busTransactionEnd v) s = .next u.settled
      ∧ (look u.sup.modules x.module_).resistance = (measured s x.module_ v).resistance
      ∧ (look u.sup.modules x.module_).loopShort = (measured s x.module_ v).loopShort
      ∧ (look u.sup.modules x.module_).loopOpen = (measured s x.module_ v).loopOpen
      ∧ (look u.sup.modules x.module_).latch = (look s.sup.modules x.module_).latch
      ∧ VisitResolved x.module_ (x.faulty || shortIn s x.module_ v || openIn s x.module_ v) x.warm s u := by
  refine ⟨_, event_of_work h.toStill (busEnd_reading h v), ?_⟩
  have answer : visitAnswer x v (offBus s) = resolveVisit
      { x with faulty := x.faulty || shortIn s x.module_ v || openIn s x.module_ v }
      (withRecord x.module_ (measured s x.module_ v) s) := by
    rw [visitAnswer_resistance v step]
    have record : (look (withRecord x.module_ (measured s x.module_ v) s).sup.modules x.module_).caps
        = (look s.sup.modules x.module_).caps :=
      (congrArg ModuleRecord.caps (look_put_self _ x.module_ (measured s x.module_ v)) :)
    unfold afterResistance
    dsimp only
    rw [record]
    cases caps : (look s.sup.modules x.module_).caps with
    | none => rfl
    | some c => exact if_neg (ne_true_of_eq_false (cold c caps))
  obtain ⟨modules, resolved⟩ := resolveVisit_resolved
    (x := { x with faulty := x.faulty || shortIn s x.module_ v || openIn s x.module_ v })
    (answered_withRecord (m := x.module_) (measured s x.module_ v) h.queue h.free) rfl rfl
  rw [answer]
  rw [modules, look_put_self, recordAfter_eq]
  exact ⟨rfl, rfl, rfl, rfl, resolved⟩

/-- R31: the record after step 6. -/
def sensed (s : State) (m : ModuleId) (v : Word16) : ModuleRecord :=
  { look s.sup.modules m with
    temperature := some v.toInt
    latch := { (look s.sup.modules m).latch with
      overtemp := (look s.sup.modules m).latch.overtemp
        || decide ((s.control.cfg.supervision.tripTemp : Int) ≤ v.toInt) } }

/-- R31, R32 step 6: the temperature, and the resolution. -/
theorem temperature_resolved (v : Word16) (step : x.step = 6) :
    let hot := x.faulty || decide ((s.control.cfg.supervision.tripTemp : Int) ≤ v.toInt)
    let warm := x.warm || decide ((s.control.cfg.supervision.warnTemp : Int) ≤ v.toInt)
    ∃ u : State, exec (.busTransactionEnd v) s = .next u.settled
      ∧ (look u.sup.modules x.module_).temperature = some v.toInt
      ∧ (look u.sup.modules x.module_).latch.overtemp = ((look s.sup.modules x.module_).latch.overtemp
          || decide ((s.control.cfg.supervision.tripTemp : Int) ≤ v.toInt))
      ∧ VisitResolved x.module_ hot warm s u := by
  intro hot warm
  refine ⟨_, event_of_work h.toStill (busEnd_reading h v), ?_⟩
  have answer : visitAnswer x v (offBus s) = resolveVisit
      { x with
        faulty := hot
        warm := x.warm || (decide ((s.control.cfg.supervision.warnTemp : Int) ≤ v.toInt)
          && !decide ((s.control.cfg.supervision.tripTemp : Int) ≤ v.toInt)) }
      (withRecord x.module_ (sensed s x.module_ v) s) := by
    unfold visitAnswer
    rw [step]
    rfl
  obtain ⟨modules, resolved⟩ := resolveVisit_resolved
    (x := { x with
      faulty := hot
      warm := x.warm || (decide ((s.control.cfg.supervision.warnTemp : Int) ≤ v.toInt)
        && !decide ((s.control.cfg.supervision.tripTemp : Int) ≤ v.toInt)) })
    (answered_withRecord (m := x.module_) (sensed s x.module_ v) h.queue h.free) rfl rfl
  rw [answer]
  refine ⟨?_, ?_, visitResolved_of_warm resolved fun cool => ?_⟩
  · rw [modules, look_put_self, recordAfter_eq]
    rfl
  · rw [modules, look_put_self, recordAfter_eq]
    rfl
  · rw [(Bool.or_eq_false_iff.1 cool).2, Bool.not_false, Bool.and_true]

end steps

theorem loopZoneOf_eq (cfg : Configuration) (m : ModuleId) : loopZoneOf cfg m
    = allZones.find? (fun z =>
        let c := look cfg.zones z
        (c.kind == .hallLoop || c.kind == .foyerLoop) && c.modules.contains m) := by
  have kinds : ∀ k, isLoopKind k = (k == .hallLoop || k == .foyerLoop) := by
    intro k
    cases k <;> rfl
  unfold loopZoneOf
  exact congrArg (allZones.find? ·) (funext fun z => congrArg (· && _) (kinds _))

/-- Settles O28: the steps of a visit, a dropped visit, the gap, and the drive state of a zone. -/
theorem pollMachineGoesOn : Obligations.PollMachineGoesOn := by
  refine ⟨fun v x s h visit stays queue free => ?steps,
    fun v x w s h visit dropped queue free flight =>
      droppedVisit_ends v h visit dropped queue free flight,
    fun s h => pollGapExpiry_acts s h, fun z s => resolveZone_acts z s⟩
  case steps =>
    intro m r reads
    have reading {w : Nat} (at_ : reads w) : Reading x w s := ⟨h, visit, stays, queue, free, at_⟩
    refine ⟨fun step at_ none_ => identity_absent (reading at_) v step none_,
      fun step at_ known => identity_read (reading at_) step known,
      fun step at_ => ⟨fun ready => state_ready (reading at_) v step ready,
        fun down => state_notReady (reading at_) v step down⟩,
      fun step at_ => caps_read (reading at_) v step, fun step at_ => faults_read (reading at_) v step,
      fun step at_ => ?five, fun step at_ => temperature_resolved (reading at_) v step⟩
    case five =>
      intro loop short opened read
      have loops : loop = loopZoneOf s.control.cfg m := (loopZoneOf_eq s.control.cfg m).symm
      have low : short = shortIn s m v := by
        unfold shortIn
        rw [← loops]
        rfl
      have high : opened = openIn s m v := by
        unfold openIn
        rw [← loops]
        rfl
      have same : read = measured s m v := by
        unfold measured
        rw [← low, ← high]
      rw [same, low, high]
      exact ⟨fun c caps thermal => resistance_thermal (reading at_) v step caps thermal,
        fun cold => resistance_resolved (reading at_) v step cold⟩

end Sys2Proof.Proofs.VisitAnswers
end

section
/-! PROOFS. MODE RUN (R187), the zones' levels (R3, R4) and what a zone carries (R2, R15). -/

namespace Sys2Proof.Proofs.Zones

open Sys2Proof Sys2Proof.Machine Sys2Proof.Laws Sys2Proof.Proofs.Cues Sys2Proof.Proofs.Link
  Sys2Proof.Proofs.Passes Sys2Proof.Proofs.Visits

/-! ## MODE RUN (R187) -/

/-- A frame that waits still waits after a notice is raised. -/
theorem mem_raise_tx {x : TxItem} {sv : Services} (env : Env) (k : NoticeKind) (h : x ∈ sv.link.tx) :
    x ∈ (raise env k sv).link.tx := by
  have eq := congrArg LinkPort.tx
    (judgeNotice_eq env { sv.link with pendingKinds := sv.link.pendingKinds ||| k.mask })
  refine (congrArg (x ∈ ·) eq).mpr ?_
  exact List.mem_append_left _ h

theorem workModeRun_running (tag : Byte) {s : State} (h : s.control.running = true) :
    workModeRun tag s = answered tag .mode .ok [] s := if_pos h

theorem workModeRun_busy (tag : Byte) {s : State} (h : s.control.running = false)
    (load : loading s.control = true) : workModeRun tag s = answered tag .mode .busy [] s :=
  (if_neg (ne_true_of_eq_false h)).trans (if_pos load)

theorem workModeRun_invalid (tag : Byte) {s : State} {i : Nat} (h : s.control.running = false)
    (load : loading s.control = false) (bad : firstFailure s.control.cfg = some i) :
    workModeRun tag s = answered tag .mode .range (u8 i) s := by
  unfold workModeRun
  rw [if_neg (ne_true_of_eq_false h), if_neg (ne_true_of_eq_false load), bad]
  rfl

theorem workModeRun_valid (tag : Byte) {s : State} (h : s.control.running = false)
    (load : loading s.control = false) (valid : firstFailure s.control.cfg = none) :
    workModeRun tag s = blocksEnterRun (answered tag .mode .ok [] (s.setRunning true)) := by
  unfold workModeRun
  rw [if_neg (ne_true_of_eq_false h), if_neg (ne_true_of_eq_false load), valid]
  rfl

/-- R187: the entry to RUN is the router's, and the start of the silence timer. -/
theorem blocksEnterRun_eq (s : State) : blocksEnterRun s = { s with svc :=
    { routerEnterRun s.env s.svc with
      link := startSilence s.control.cfg.link.silence (routerEnterRun s.env s.svc).link } } := rfl

/-- What the entry to RUN makes of the services beside the zones. -/
structure RunEntered (sv u : Services) : Prop where
  slots : u.slots = sv.slots
  houses : u.houses = sv.houses
  quiet : sv.override = false → u.link = sv.link
  kept : ∀ x ∈ sv.link.tx, x ∈ u.link.tx
  kinds : u.link.pendingKinds
    = if sv.override then sv.link.pendingKinds ||| 0x0200 else sv.link.pendingKinds

theorem routerEnterRun_entered (env : Env) (sv : Services) : RunEntered sv (routerEnterRun env sv) := by
  obtain ⟨x, on, eq⟩ := routerEnterRun_on env sv
  rw [eq]
  cases up : sv.override with
  | false =>
    exact ⟨on.slots, on.houses, fun _ => on.link, fun y mem => on.link ▸ mem,
      (congrArg LinkPort.pendingKinds on.link).trans (if_neg (ne_true_of_eq_false up)).symm⟩
  | true =>
    refine ⟨on.slots, on.houses, fun down => absurd (up.symm.trans down) (by decide),
      fun y mem => mem_raise_tx env .override (on.link ▸ mem), ?_⟩
    rw [if_pos rfl, raise_kinds, on.link, if_pos up]
    rfl

/-- Settles O13: MODE RUN refused, and the entry to RUN. -/
theorem modeRunEntersRun : Obligations.ModeRunEntersRun := by
  intro tag s h
  refine ⟨fun run => request_eq_of_work h (workModeRun_running tag run),
    fun off load => request_eq_of_work h (workModeRun_busy tag off load),
    fun off load i bad => request_eq_of_work h (workModeRun_invalid tag off load bad),
    fun off load valid => ⟨_, request_of_work h ((workModeRun_valid tag (s := taken tag .mode s) off load valid).trans
      (blocksEnterRun_eq _)), ?_⟩⟩
  have entered := routerEnterRun_entered
    (answered tag .mode .ok [] ((taken tag .mode s).setRunning true)).env
    (answered tag .mode .ok [] ((taken tag .mode s).setRunning true)).svc
  have zones := fun z => routerEnterRun_zone
    (answered tag .mode .ok [] ((taken tag .mode s).setRunning true)).env
    (answered tag .mode .ok [] ((taken tag .mode s).setRunning true)).svc z rfl
  refine ⟨rfl, rfl, entered.slots, entered.houses, rfl, rfl, rfl, fun down => ?_, ?_, entered.kinds,
    fun z => ?_⟩
  · exact congrArg LinkPort.tx (entered.quiet down)
  · exact entered.kept _ (List.mem_append_right _ (List.mem_singleton.2 rfl))
  · obtain ⟨drive, backoff, holds, free, taken_⟩ := zones z
    have loops (α : Type) (a b : α) : (if isLoopKind (look s.control.cfg.zones z).kind then a else b)
        = if (look s.control.cfg.zones z).kind = .hallLoop
            ∨ (look s.control.cfg.zones z).kind = .foyerLoop then a else b := by
      simp only [isLoopKind_iff]
    refine ⟨drive.trans (loops _ _ _), backoff.trans (loops _ _ _), holds, free, taken_⟩

end Sys2Proof.Proofs.Zones
end

section
/-! PROOFS. What an output carries (R2, R4, R15, R137) and ZONE-SET (R3). -/

namespace Sys2Proof.Proofs.Levels

open Sys2Proof Sys2Proof.Machine Sys2Proof.Laws Sys2Proof.Proofs.Cues Sys2Proof.Proofs.Link

/-! ## The tone of a chime (R137) -/

theorem tone_eq_pitch (k : RunningChime) : k.tone = pitch k.left k.chime := by
  obtain ⟨_, chime, left⟩ := k
  unfold RunningChime.tone
  cases chime with
  | noChime => rfl
  | single =>
    simp only [toneAt, chimePattern, chimeLength, pitch]
    split_ifs <;> grind
  | double =>
    simp only [toneAt, chimePattern, chimeLength, pitch]
    split_ifs <;> grind
  | rising3 =>
    simp only [toneAt, chimePattern, chimeLength, pitch]
    split_ifs <;> grind

/-! ## The parts of an output (R2, R15) -/

section output

variable {env : Env} {sv : Services} {z : ZoneId} (used : (look env.cfg.zones z).kind ≠ .unused)
  (heard : (look env.cfg.zones z).mute = false)

theorem zoneOutput_silent
    (h : (look env.cfg.zones z).kind = .unused ∨ (look env.cfg.zones z).mute = true) :
    zoneOutput env sv z = [] := if_pos h

include used heard

theorem not_silent : ¬ ((look env.cfg.zones z).kind = .unused ∨ (look env.cfg.zones z).mute = true) := by
  simp [used, heard]

/-- R15, R21: in CONFIG a zone carries its test, if any. -/
theorem zoneOutput_config (run : env.run = false) : zoneOutput env sv z =
    match (look sv.zones z).active with
    | some k => if k.who.isTest then
        [(.tone testToneLevel, effectiveAttenuation (look env.cfg.zones z) (look sv.zones z))] else []
    | none => [] := by
  unfold zoneOutput
  refine (if_neg (not_silent used heard)).trans ((if_pos (by rw [run]; rfl)).trans ?_)
  rfl

/-- R2: in RUN a zone with no claim carries its home source. -/
theorem zoneOutput_home (run : env.run = true) (free : (look sv.zones z).active = none) :
    zoneOutput env sv z = homeSource sv env (look env.cfg.zones z)
      (effectiveAttenuation (look env.cfg.zones z) (look sv.zones z)) := by
  unfold zoneOutput
  refine (if_neg (not_silent used heard)).trans ((if_neg (by rw [run]; simp)).trans ?_)
  rw [free]

/-- R15: the bed under a description claim. -/
def bedUnder (env : Env) (c : ZoneConfig) (att : Nat) (who : Claimant) : List Carried :=
  match bedDuck env who with
  | some duck => if c.kind = .description then programmeOf c.auditorium (att + duck) else []
  | none => []

/-- R15: in RUN a zone carries its active claimant, over the bed. -/
theorem zoneOutput_claimed (run : env.run = true) {k : Claim} (claim : (look sv.zones z).active = some k) :
    zoneOutput env sv z = (claimantSource env sv k.who).map (fun a =>
        (a, effectiveAttenuation (look env.cfg.zones z) (look sv.zones z)))
      ++ bedUnder env (look env.cfg.zones z)
        (effectiveAttenuation (look env.cfg.zones z) (look sv.zones z)) k.who := by
  unfold zoneOutput
  refine (if_neg (not_silent used heard)).trans ((if_neg (by rw [run]; simp)).trans ?_)
  rw [claim]
  rfl

end output

/-- R15: the bed under a clip or a live key, as the statement spells it. -/
theorem bedUnder_duck (env : Env) (c : ZoneConfig) (att : Nat) {who : Claimant} {d : ChannelId}
    (h : bedDuck env who = some (look env.cfg.channels d).duck) : bedUnder env c att who =
    match c.kind, c.auditorium with
    | .description, some a => [(.programme a, att + (look env.cfg.channels d).duck)]
    | _, _ => [] := by
  unfold bedUnder
  rw [h]
  cases c.kind <;> cases c.auditorium <;> rfl

/-- R137: what a chime's claimant carries. -/
theorem chimeSource_pitch (sv : Services) (o : ChimeOwner) (att : Nat) :
    (chimeSource sv o).map (fun a => ((a, att) : Carried))
      = match (sv.chimes.find? (fun x => x.owner == o)).bind (fun x => pitch x.left x.chime) with
        | some hz => [(.chime hz (-10), att)]
        | none => [] := by
  unfold chimeSource
  cases sv.chimes.find? (fun x => x.owner == o) with
  | none => rfl
  | some k =>
    dsimp only [Option.bind_some]
    rw [tone_eq_pitch]
    cases pitch k.left k.chime <;> rfl

/-- A slot's audio, as the statement spells it. -/
theorem slotSource_heard (sv : Services) (i : SlotId) (att : Nat) :
    (slotSource sv i).map (fun a => ((a, att) : Carried))
      = if (look sv.slots i).state = .playing then [(.slot i, att)] else [] := by
  unfold slotSource
  split <;> rfl

theorem isTest_iff (k : Claim) : k.who.isTest = true ↔ ∃ src, k.who = .test src := by
  unfold Claimant.isTest
  cases k.who <;> simp

/-- R15: the bed is under descriptions alone. -/
theorem bedUnder_none (env : Env) (c : ZoneConfig) (att : Nat) {who : Claimant}
    (h : bedDuck env who = none) : bedUnder env c att who = [] := by
  unfold bedUnder
  rw [h]

section home

variable (sv : Services) (env : Env) {c : ZoneConfig} (att : Nat) {a : Aud}

theorem homeSource_foyer (h : c.kind = .foyerLoop ∨ c.kind = .foyerSpeaker) :
    homeSource sv env c att = if c.foyerHome = .aux then [(.aux, att)] else [] := by
  unfold homeSource
  rcases h with kind | kind <;> rw [kind]

theorem homeSource_programme (aud : c.auditorium = some a)
    (h : c.kind = .hallLoop ∨ c.kind = .description) :
    homeSource sv env c att = [(.programme a, att)] := by
  unfold homeSource
  rcases h with kind | kind <;> rw [kind, aud] <;> rfl

theorem homeSource_lobby (aud : c.auditorium = some a) (h : c.kind = .lobby) :
    homeSource sv env c att = match (sv.houses.get a).state with
      | .opened => [(.aux, att)]
      | .sealed | .closing => [(.programme a, att)]
      | .admitting => [(.programme a, att + (env.cfg.auditoria.get a).relayDuck)] := by
  unfold homeSource
  rw [h, aud]
  dsimp only
  cases (sv.houses.get a).state <;> rfl

end home

/-- R136: what a call carries in each phase. -/
theorem claimantSource_call (env : Env) (sv : Services) {id : Nat} {x : Call}
    (h : findCall id sv = some x) : claimantSource env sv (.call id) = callSource sv x := by
  have found : sv.calls.find? (fun k => k.desc.callId == id) = some x := h
  unfold claimantSource
  dsimp only
  rw [found]

/-- R136: a call's audio in its message. -/
theorem callSource_message {sv : Services} {x : Call} (h : x.phase = some .message) (att : Nat) :
    (∀ n, x.desc.message = .liveMic n →
      (callSource sv x).map (fun a => ((a, att) : Carried)) = [(.callMic, att)])
    ∧ ∀ n i, x.desc.message = .stream n → x.slot = some i →
      (callSource sv x).map (fun a => ((a, att) : Carried))
        = if (look sv.slots i).state = .playing then [(.slot i, att)] else [] := by
  unfold callSource
  rw [h]
  refine ⟨fun n message => ?_, fun n i message slot => ?_⟩
  · rw [message]
    rfl
  · rw [message, slot]
    exact slotSource_heard sv i att

/-- R2, R4, R15: what the output of a zone carries. -/
theorem composed (z : ZoneId) (s : State) : Composed z (look s.control.cfg.zones z) (look s.svc.zones z)
    (effectiveAttenuation (look s.control.cfg.zones z) (look s.svc.zones z)) s := by
  refine ⟨rfl, fun h => zoneOutput_silent h, fun used heard run => ⟨fun k claim test => ?_, fun none_ => ?_⟩,
    fun heard run free => ⟨fun foyer => ?_, fun a aud => ⟨fun kinds => ?_, fun lobby => ?_⟩⟩,
    fun used heard run k claim => ?claimed⟩
  · rw [zoneOutput_config (env := s.env) used heard run, claim]
    exact if_pos ((isTest_iff k).2 test)
  · rw [zoneOutput_config (env := s.env) used heard run]
    cases claim : (look s.svc.zones z).active with
    | none => rfl
    | some k =>
      refine if_neg fun test => ?_
      obtain ⟨src, who⟩ := (isTest_iff k).1 test
      exact none_ k claim src who
  · have used : (look s.control.cfg.zones z).kind ≠ .unused := by
      rcases foyer with kind | kind <;> rw [kind] <;> decide
    rw [zoneOutput_home (env := s.env) used heard run free]
    exact homeSource_foyer _ _ _ foyer
  · have used : (look s.control.cfg.zones z).kind ≠ .unused := by
      rcases kinds with kind | kind <;> rw [kind] <;> decide
    rw [zoneOutput_home (env := s.env) used heard run free]
    exact homeSource_programme _ _ _ aud kinds
  · have used : (look s.control.cfg.zones z).kind ≠ .unused := by rw [lobby]; decide
    rw [zoneOutput_home (env := s.env) used heard run free]
    exact homeSource_lobby _ _ _ aud lobby
  case claimed =>
    dsimp only
    rw [zoneOutput_claimed (env := s.env) used heard run claim]
    refine ⟨fun who => ?_, fun src who => ?_, fun a who => ?_, fun d who i input => ?_,
      fun d who x active => ?_, fun id who x found => ?_⟩
    · rw [who, bedUnder_none _ _ _ rfl]
      rfl
    · rw [who, bedUnder_none _ _ _ rfl]
      rfl
    · rw [who, bedUnder_none _ _ _ rfl, List.append_nil]
      exact chimeSource_pitch s.svc (.window a) _
    · rw [who, bedUnder_duck (d := d) _ _ _ rfl]
      have source : claimantSource s.env s.svc (.live d) = [.liveIn i] := by
        unfold claimantSource
        dsimp only
        rw [show (look s.env.cfg.channels d).liveInput = some i from input]
      rw [source]
      rfl
    · rw [who, bedUnder_duck (d := d) _ _ _ rfl]
      have source : claimantSource s.env s.svc (.clip d) = slotSource s.svc x.slot := by
        unfold claimantSource
        dsimp only
        rw [active]
      rw [source, slotSource_heard]
      rfl
    · rw [who, bedUnder_none _ _ _ rfl, List.append_nil, claimantSource_call s.env s.svc found]
      refine ⟨fun phase => ?_, fun phase => ?_, fun phase => callSource_message phase _⟩
      · unfold callSource
        rw [phase]
        exact (chimeSource_pitch s.svc _ _).trans (by
          have id_ : x.desc.callId = id := by
            simpa using List.find?_some (show s.svc.calls.find? _ = some x from found)
          rw [id_]
          rfl)
      · unfold callSource
        rw [phase]
        rfl

/-! ## ZONE-SET (R3) -/

theorem workZoneSet_range (tag : Byte) {n level : Nat} (m : Option Bool) (s : State)
    (h : 19 < n ∨ 60 < level) : workZoneSet tag n level m s = answered tag .zoneSet .range [] s := by
  unfold workZoneSet
  split
  next z b named =>
    have low : n ≤ 19 := by
      by_contra high
      rw [zoneOf_eq_none (by omega)] at named
      cases named
    exact if_pos (by omega)
  next => rfl

theorem workZoneSet_none (tag : Byte) (n level : Nat) (s : State) :
    workZoneSet tag n level none s = answered tag .zoneSet .range [] s := by
  unfold workZoneSet
  split
  next flag => cases flag
  next => rfl

/-- R3: the level and the mute of a zone are written; a zone that a new mute silences is unheard. -/
theorem workZoneSet_legal (tag : Byte) (z : ZoneId) {level : Nat} (m : Bool) (s : State)
    (h : level ≤ 60) : workZoneSet tag z.val level (some m) s = answered tag .zoneSet .ok []
      { s with
        control := { s.control with cfg := { s.control.cfg with
          zones := put s.control.cfg.zones z
            ({ look s.control.cfg.zones z with level := level, mute := m } : ZoneConfig) } }
        svc := { s.svc with
          calls := if m && !(look s.control.cfg.zones z).mute then
              s.svc.calls.map (fun k => if k.state = .playing then
                { k with unbroken := k.unbroken.filter (fun y => y != z) } else k)
            else s.svc.calls } } := by
  have written : workZoneSet tag z.val level (some m) s
      = answered tag .zoneSet .ok [] (setLevel z level m s) := by
    unfold workZoneSet
    rw [zoneOf_val]
    exact if_neg (by omega)
  rw [written]
  unfold setLevel
  dsimp only
  split <;> rfl

/-- Settles O20: the output of a zone, and ZONE-SET refused and done. -/
theorem zoneSetWritesLevelAndMute : Obligations.ZoneSetWritesLevelAndMute := by
  refine ⟨fun z s => composed z s, fun tag n level m s h =>
    ⟨fun bad => request_eq_of_work h (workZoneSet_range tag _ _ bad),
      request_eq_of_work h (workZoneSet_none tag _ _ _), fun z named legal => ?_⟩⟩
  subst named
  exact request_eq_of_work h (workZoneSet_legal tag z m _ legal)

end Sys2Proof.Proofs.Levels
end

section
/-! PROOFS. The test tone (R19, R20). -/

namespace Sys2Proof.Proofs.Tests

open Sys2Proof Sys2Proof.Machine Sys2Proof.Laws Sys2Proof.Proofs.Cues Sys2Proof.Proofs.Link
  Sys2Proof.Proofs.Passes

/-! ## The limit timer of a test -/

@[simp] theorem testLeft_setTest (r : ZoneRecord) (src : TestSource) (t : Option Nat) :
    (r.setTest src t).testLeft src = t := by
  cases src <;> rfl

/-- A timer that stands still is not started by setting another, or the same, to none. -/
theorem testLeft_setTest_none {r : ZoneRecord} {src : TestSource} (other : TestSource)
    (h : r.testLeft src = none) : (r.setTest other none).testLeft src = none := by
  cases src <;> cases other <;> simp_all [ZoneRecord.setTest, ZoneRecord.testLeft]

/-- R7, R20: a removed claim stops a timer or leaves it. -/
theorem loseClaim_testLeft {z : ZoneId} {sv : Services} {src : TestSource} (c : Claim)
    (h : (look sv.zones z).testLeft src = none) :
    (look (loseClaim z sv c).zones z).testLeft src = none := by
  unfold loseClaim
  split
  · simpa [putZone] using testLeft_setTest_none _ h
  · exact h
  · exact h

theorem loseClaims_testLeft {z : ZoneId} {src : TestSource} (l : List Claim) {sv : Services}
    (h : (look sv.zones z).testLeft src = none) :
    (look (loseClaims z l sv).zones z).testLeft src = none :=
  foldl_inv (fun t => (look t.zones z).testLeft src = none) _ (fun _ c k => loseClaim_testLeft c k) l sv h

theorem release_testLeft (env : Env) (who : Claimant) {z : ZoneId} {sv : Services} {src : TestSource}
    (h : (look sv.zones z).testLeft src = none) :
    (look (release env who z sv).zones z).testLeft src = none := by
  have left : ∀ (r : ZoneRecord), r.testLeft src = none → ∀ (a : Option Claim) (l : List Claim),
      ({ r with active := a, stack := l } : ZoneRecord).testLeft src = none := by
    intro r none_ a l
    cases src <;> exact none_
  unfold release
  dsimp only
  split
  · unfold pop
    dsimp only
    split
    · rw [zone_zoneRelease]
      refine loseClaims_testLeft _ ?_
      simp only [putZone, look_put_self]
      exact left _ h _ _
    · rw [zone_zoneRelease]
      refine loseClaims_testLeft (z := z) _ ?_
      simp only [putZone, look_put_self]
      exact left _ h _ _
  · simp only [putZone, look_put_self]
    exact left _ h _ _

/-- R20: the end of a test. -/
theorem endTest_ends (env : Env) (src : TestSource) (z : ZoneId) (sv : Services) :
    (look (endTest env src z sv).zones z).testLeft src = none
      ∧ (look (endTest env src z sv).zones z).carries (.test src) = false
      ∧ (look (endTest env src z sv).zones z).stacks (.test src) = false
      ∧ (∀ y, y ≠ z → look (endTest env src z sv).zones y = look sv.zones y) := by
  obtain ⟨active, below⟩ := release_gone env (.test src) z
    (putZone z ((look sv.zones z).setTest src none) sv)
  refine ⟨release_testLeft env _ ?_, active, below, fun y other => ?_⟩
  · simp [putZone]
  · exact (zone_release other env _ _).trans (zone_putZone other _ _)

/-! ## A test that starts (R19) -/

/-- R19: a start is granted, or takes the zone in CONFIG. -/
structure Started (src : TestSource) (z : ZoneId) (sv u : Services) : Prop where
  active : (look u.zones z).active.map (·.who) = some (.test src)
  timer : (look u.zones z).testLeft src = some testLimit
  router : OnRouter sv u

theorem map_who_of_carries {r : ZoneRecord} {who : Claimant} (h : r.carries who = true) :
    r.active.map (·.who) = some who := by
  unfold ZoneRecord.carries at h
  cases active : r.active with
  | none => rw [active] at h; cases h
  | some c => rw [active] at h; simpa using h

section start

variable {env : Env} {z : ZoneId} (src : TestSource) (sv : Services)

theorem startTest_range {n : Nat}
    (h : 19 < n ∨ ∃ z : ZoneId, n = z.val ∧ (look env.cfg.zones z).kind = .unused) :
    startTest env src n sv = (.range, sv) := by
  unfold startTest
  rcases h with high | ⟨z, named, unused⟩
  · rw [zoneOf_eq_none high]
  · rw [named, zoneOf_val]
    exact if_pos unused

theorem stopTest_range {n : Nat}
    (h : 19 < n ∨ ∃ z : ZoneId, n = z.val ∧ (look env.cfg.zones z).kind = .unused) :
    stopTest env src n sv = (.range, sv) := by
  unfold stopTest
  rcases h with high | ⟨z, named, unused⟩
  · rw [zoneOf_eq_none high]
  · rw [named, zoneOf_val]
    exact if_pos unused

variable (used : (look env.cfg.zones z).kind ≠ .unused)

include used

theorem stopTest_state (h : (look sv.zones z).testLeft src = none) :
    stopTest env src z.val sv = (.state, sv) := by
  unfold stopTest
  rw [zoneOf_val]
  exact (if_neg used).trans (if_neg (by simp [h]))

theorem stopTest_ok (h : ((look sv.zones z).testLeft src).isSome) :
    stopTest env src z.val sv = (.ok, endTest env src z sv) := by
  unfold stopTest
  rw [zoneOf_val]
  exact (if_neg used).trans (if_pos h)

theorem startTest_state (run : env.run = true) (busy : (look sv.zones z).active ≠ none)
    (other : (look sv.zones z).carries (.test src) = false) :
    startTest env src z.val sv = (.state, sv) := by
  unfold startTest
  rw [zoneOf_val]
  refine (if_neg used).trans ?_
  dsimp only
  rw [if_pos run, if_neg (ne_true_of_eq_false other), if_neg busy]

/-- R19: a start on a zone that is free, carries the claimant's own test, or is in CONFIG. -/
theorem startTest_starts (h : env.run = true → (look sv.zones z).active = none
      ∨ (look sv.zones z).carries (.test src) = true) :
    ∃ u, startTest env src z.val sv = (.ok, u) ∧ Started src z sv u := by
  unfold startTest
  rw [zoneOf_val]
  dsimp only
  rw [if_neg used]
  by_cases run : env.run = true
  · rw [if_pos run]
    by_cases own : (look sv.zones z).carries (.test src) = true
    · rw [if_pos own]
      refine ⟨_, rfl, ?_, ?_, onRouter_putZone _ _ _⟩
      · simp only [putZone, look_put_self, setTest_claims]
        exact map_who_of_carries own
      · simp [putZone]
    · have free := (h run).resolve_right own
      rw [if_neg own, if_pos free]
      refine ⟨_, rfl, ?_, ?_, (onRouter_putZone _ _ _).trans (onRouter_grant _ _ _ _)⟩
      · rw [grant_active]
        rfl
      · have idle : (look (putZone z ((look sv.zones z).setTest src (some testLimit)) sv).zones z).active
            = none := by
          simp [putZone, setTest_claims, free]
        unfold grant
        dsimp only
        rw [idle]
        dsimp only
        rw [zone_zoneRelease]
        cases src <;> simp [putZone, ZoneRecord.setTest, ZoneRecord.testLeft]
  · rw [if_neg run]
    refine ⟨_, rfl, ?_, ?_, OnRouter.trans (b := replaceTest z src sv) ?_ (onRouter_putZone _ _ _)⟩
    · have active : (look (replaceTest z src sv).zones z).active = some ⟨1, .test src⟩ := by
        unfold replaceTest
        dsimp only
        split
        · simp [putZone]
        · split
          · simp [putZone]
          · rw [(loseClaim_claims _ _ _).1]
            simp [putZone]
      simp only [putZone, look_put_self, setTest_claims, active]
      rfl
    · simp [putZone]
    · unfold replaceTest
      dsimp only
      split
      · exact onRouter_putZone _ _ _
      · split
        · exact onRouter_putZone _ _ _
        · exact (onRouter_putZone _ _ _).trans (onRouter_loseClaim _ _ _)

end start

/-! ## TEST-TONE -/

theorem workTestStart_eq (tag : Byte) (n : Nat) (s : State) : workTestStart tag n s
    = answered tag .testTone (startTest s.env .link n s.svc).1 []
        { s with svc := (startTest s.env .link n s.svc).2 } := rfl

theorem workTestStop_eq (tag : Byte) (n : Nat) (s : State) : workTestStop tag n s
    = answered tag .testTone (stopTest s.env .link n s.svc).1 []
        { s with svc := (stopTest s.env .link n s.svc).2 } := rfl

theorem workTestStart_of {tag : Byte} {n : Nat} {s : State} {st : Status} {u : Services}
    (h : startTest s.env .link n s.svc = (st, u)) :
    workTestStart tag n s = answered tag .testTone st [] { s with svc := u } := by
  rw [workTestStart_eq, h]

theorem workTestStop_of {tag : Byte} {n : Nat} {s : State} {st : Status} {u : Services}
    (h : stopTest s.env .link n s.svc = (st, u)) :
    workTestStop tag n s = answered tag .testTone st [] { s with svc := u } := by
  rw [workTestStop_eq, h]

/-- Settles O21: TEST-TONE refused and done, and the limit timer. -/
theorem testsStartAndEnd : Obligations.TestsStartAndEnd := by
  refine ⟨fun tag n s h => ⟨fun bad => ⟨?_, ?_⟩, fun z named used => ?_⟩, fun z src s h => ⟨?_, ?_⟩⟩
  · exact request_eq_of_work h (workTestStart_of (startTest_range .link _ bad))
  · exact request_eq_of_work h (workTestStop_of (stopTest_range .link _ bad))
  · subst named
    refine ⟨fun still => ?_, fun runs => ?_, fun run busy other => ?_, fun may => ?_⟩
    · exact request_eq_of_work h (workTestStop_of
        (stopTest_state (env := (taken tag .testTone s).env) .link _ used still))
    · refine ⟨_, request_of_work h (workTestStop_of
        (stopTest_ok (env := (taken tag .testTone s).env) .link _ used runs)), ?_⟩
      obtain ⟨timer, carries, _, _⟩ := endTest_ends s.env .link z (taken tag .testTone s).svc
      exact ⟨timer, carries, reply_mem _ _ _ _ _, (onRouter_endTest _ _ _ _).slots, rfl⟩
    · exact request_eq_of_work h (workTestStart_of
        (startTest_state (env := (taken tag .testTone s).env) .link _ used run busy other))
    · obtain ⟨u, eq, started⟩ := startTest_starts (env := (taken tag .testTone s).env) .link
        (taken tag .testTone s).svc used may
      exact ⟨_, request_of_work h (workTestStart_of eq), started.active, started.timer,
        reply_mem _ _ _ _ _, started.router.slots, rfl⟩
  · exact fun still => event_eq_of_work h (if_neg (by simp [still]))
  · intro runs
    refine ⟨_, event_of_work h (if_pos runs), ?_⟩
    obtain ⟨timer, active, below, others⟩ := endTest_ends s.env src z s.svc
    have on := onRouter_endTest s.env src z s.svc
    exact ⟨timer, active, below, others, on.slots, on.channels, on.calls, rfl, rfl⟩

end Sys2Proof.Proofs.Tests
end

section
/-! PROOFS. The entrances of an auditorium: lamps, holdings and house records (R148, R151, R156, R159). -/

namespace Sys2Proof.Proofs.Houses

open Sys2Proof Sys2Proof.Machine Sys2Proof.Laws Sys2Proof.Proofs.Link

/-! ## A table written entry by entry -/

/-- A fold that replaces each record named in a list by a function of it. -/
theorem look_foldl_put {α : Type} {n : Nat} (f : Fin n → α → α) (i : Fin n) :
    ∀ (l : List (Fin n)) (v : Vector α n), l.Nodup →
      look (l.foldl (fun acc j => put acc j (f j (look acc j))) v) i
        = if i ∈ l then f i (look v i) else look v i := by
  intro l
  induction l with
  | nil => intro v _; rfl
  | cons j rest ih =>
    intro v nodup
    obtain ⟨fresh, nodup⟩ := List.nodup_cons.1 nodup
    rw [List.foldl_cons, ih _ nodup]
    by_cases eq : i = j
    · subst eq; simp [fresh]
    · simp [eq, look_put_of_ne _ (Ne.symm eq)]

/-! ## The entrances of an auditorium (R148) -/

theorem mem_entrancesOf (env : Env) (a : Aud) (e : EntranceId) :
    e ∈ entrancesOf env a ↔ (look env.cfg.entrances e).auditorium = some a := by
  simp [entrancesOf, allEntrances]

theorem entrancesOf_nodup (env : Env) (a : Aud) : (entrancesOf env a).Nodup :=
  (List.nodup_finRange 12).filter _

/-- R159: holding follows the house states and the sensed state. -/
theorem holdsNow_congr {env : Env} {e : EntranceId} {sv u : Services} (houses : u.houses = sv.houses)
    (sensed : (look u.entrances e).sensed = (look sv.entrances e).sensed) :
    holdsNow env e u = holdsNow env e sv := by
  unfold holdsNow
  rw [houses, sensed]

/-- R156, R157: who is not closed follows the sensed states. -/
theorem notClosed_congr {env : Env} {a : Aud} {sv u : Services}
    (sensed : ∀ e, (look u.entrances e).sensed = (look sv.entrances e).sensed) :
    notClosed env a u = notClosed env a sv := by
  unfold notClosed
  simp only [sensed]

/-! ## What touches the entrances and the router alone -/

/-- Nothing but the entrances and the router's own fields differ. -/
structure OnHolds (sv u : Services) : Prop where
  router : OnRouter { sv with entrances := u.entrances } u

namespace OnHolds

variable {a b c : Services}

theorem refl (a : Services) : OnHolds a a := ⟨OnRouter.refl a⟩

theorem ofRouter (h : OnRouter a b) : OnHolds a b := by
  constructor
  rw [h.entrances]
  exact h

theorem trans (h : OnHolds a b) (k : OnHolds b c) : OnHolds a c := by
  refine ⟨OnRouter.trans (b := { b with entrances := c.entrances }) ⟨?_⟩ k.router⟩
  exact congrArg (fun s : Services => { s with entrances := c.entrances }) h.router.same

theorem slots (h : OnHolds a b) : b.slots = a.slots := h.router.slots
theorem free (h : OnHolds a b) : b.free = a.free := h.router.free
theorem channels (h : OnHolds a b) : b.channels = a.channels := h.router.channels
theorem calls (h : OnHolds a b) : b.calls = a.calls := h.router.calls
theorem finished (h : OnHolds a b) : b.finished = a.finished := h.router.finished
theorem chimes (h : OnHolds a b) : b.chimes = a.chimes := h.router.chimes
theorem houses (h : OnHolds a b) : b.houses = a.houses := h.router.houses
theorem link (h : OnHolds a b) : b.link = a.link := h.router.link

end OnHolds

theorem onHolds_entrance (e : EntranceId) (x : Entrance) (sv : Services) :
    OnHolds sv (putEntrance e x sv) := ⟨OnRouter.refl _⟩

/-! ## Lamps (R151) -/

theorem setLamps_eq (env : Env) (a : Aud) (sv : Services) : setLamps env a sv
    = { sv with entrances := (setLamps env a sv).entrances } := by
  have key : ∀ (l : List EntranceId) (t : Services),
      l.foldl (fun acc e => putEntrance e
        { look acc.entrances e with
          lamp := lampFor (acc.houses.get a).state (look env.cfg.entrances e).admission } acc) t
      = { t with entrances := (l.foldl (fun acc e => putEntrance e
        { look acc.entrances e with
          lamp := lampFor (acc.houses.get a).state (look env.cfg.entrances e).admission } acc)
            t).entrances } := by
    intro l
    induction l with
    | nil => intro t; rfl
    | cons e rest ih => intro t; rw [List.foldl_cons, ih]; rfl
  exact key _ sv

theorem setLamps_onHolds (env : Env) (a : Aud) (sv : Services) : OnHolds sv (setLamps env a sv) := by
  constructor
  rw [← setLamps_eq]
  exact OnRouter.refl _

/-- R151: the lamps of an auditorium's entrances; the others stay. -/
theorem look_setLamps (env : Env) (a : Aud) (sv : Services) (e : EntranceId) :
    look (setLamps env a sv).entrances e
      = if (look env.cfg.entrances e).auditorium = some a then
          { look sv.entrances e with
            lamp := lampFor (sv.houses.get a).state (look env.cfg.entrances e).admission }
        else look sv.entrances e := by
  have key : ∀ (l : List EntranceId) (t : Services), t.houses = sv.houses →
      (l.foldl (fun acc e => putEntrance e
        { look acc.entrances e with
          lamp := lampFor (acc.houses.get a).state (look env.cfg.entrances e).admission } acc) t).entrances
      = l.foldl (fun acc e => put acc e
        { look acc e with
          lamp := lampFor (sv.houses.get a).state (look env.cfg.entrances e).admission }) t.entrances := by
    intro l
    induction l with
    | nil => intro t _; rfl
    | cons f rest ih =>
      intro t same
      rw [List.foldl_cons, ih (putEntrance f _ t) same, List.foldl_cons, same]
      rfl
  unfold setLamps
  rw [key _ sv rfl]
  refine (look_foldl_put (fun e (x : Entrance) => { x with
    lamp := lampFor (sv.houses.get a).state (look env.cfg.entrances e).admission }) e _ _
    (entrancesOf_nodup env a)).trans ?_
  simp only [mem_entrancesOf]

/-! ## Holdings (R159) -/

/-- R159: an entrance's holding is what it is judged to be; the rest is the router's. -/
theorem judgeHolding_on (env : Env) (sv : Services) (e : EntranceId) :
    OnRouter (putEntrance e { look sv.entrances e with holding := holdsNow env e sv } sv)
      (judgeHolding env sv e) := by
  unfold judgeHolding
  dsimp only
  cases now : holdsNow env e sv with
  | true =>
    cases was : (look sv.entrances e).holding with
    | false =>
      exact OnRouter.foldl (fun s z => onRouter_hold env z s) _ _
    | true =>
      have same : putEntrance e { look sv.entrances e with holding := true } sv = sv := by
        unfold putEntrance
        rw [← was, put_look]
      rw [same]
      exact OnRouter.refl sv
  | false =>
    cases was : (look sv.entrances e).holding with
    | true =>
      exact OnRouter.foldl (fun s z => onRouter_unhold env z s) _ _
    | false =>
      have same : putEntrance e { look sv.entrances e with holding := false } sv = sv := by
        unfold putEntrance
        rw [← was, put_look]
      rw [same]
      exact OnRouter.refl sv

theorem judgeHolding_onHolds (env : Env) (sv : Services) (e : EntranceId) :
    OnHolds sv (judgeHolding env sv e) :=
  (onHolds_entrance e _ sv).trans (OnHolds.ofRouter (judgeHolding_on env sv e))

theorem look_judgeHolding (env : Env) (sv : Services) (e f : EntranceId) :
    look (judgeHolding env sv e).entrances f
      = if e = f then { look sv.entrances e with holding := holdsNow env e sv }
        else look sv.entrances f := by
  rw [(judgeHolding_on env sv e).entrances]
  exact look_put _ _ _ _

theorem sensed_judgeHolding (env : Env) (sv : Services) (e f : EntranceId) :
    (look (judgeHolding env sv e).entrances f).sensed = (look sv.entrances f).sensed := by
  rw [look_judgeHolding]
  split
  next same => subst same; rfl
  next => rfl

theorem foldl_judgeHolding (env : Env) (f : EntranceId) :
    ∀ (l : List EntranceId) (sv : Services), l.Nodup →
      OnHolds sv (l.foldl (judgeHolding env) sv)
      ∧ look (l.foldl (judgeHolding env) sv).entrances f
        = if f ∈ l then { look sv.entrances f with holding := holdsNow env f sv }
          else look sv.entrances f := by
  intro l
  induction l with
  | nil => exact fun sv _ => ⟨OnHolds.refl sv, rfl⟩
  | cons e rest ih =>
    intro sv nodup
    obtain ⟨fresh, nodup⟩ := List.nodup_cons.1 nodup
    obtain ⟨on, looks⟩ := ih (judgeHolding env sv e) nodup
    have first := judgeHolding_onHolds env sv e
    refine ⟨first.trans on, ?_⟩
    rw [List.foldl_cons, looks,
      holdsNow_congr first.houses (sensed_judgeHolding env sv e f), look_judgeHolding]
    by_cases same : e = f
    · subst same
      simp [fresh]
    · simp [same, Ne.symm same]

/-- R159: every entrance of an auditorium is judged. -/
theorem judgeHoldings_onHolds (env : Env) (a : Aud) (sv : Services) :
    OnHolds sv (judgeHoldings env a sv) := by
  unfold judgeHoldings
  cases l : entrancesOf env a with
  | nil => exact OnHolds.refl sv
  | cons e rest => exact (foldl_judgeHolding env e _ sv (l ▸ entrancesOf_nodup env a)).1

theorem look_judgeHoldings (env : Env) (a : Aud) (sv : Services) (e : EntranceId) :
    look (judgeHoldings env a sv).entrances e
      = if (look env.cfg.entrances e).auditorium = some a then
          { look sv.entrances e with holding := holdsNow env e sv }
        else look sv.entrances e := by
  unfold judgeHoldings
  rw [(foldl_judgeHolding env e _ sv (entrancesOf_nodup env a)).2]
  simp only [mem_entrancesOf]

theorem sensed_judgeHoldings (env : Env) (a : Aud) (sv : Services) (e : EntranceId) :
    (look (judgeHoldings env a sv).entrances e).sensed = (look sv.entrances e).sensed := by
  rw [look_judgeHoldings]
  split <;> rfl

/-- R159: once judged, an entrance holds what it is to hold. -/
theorem holding_judgeHoldings (env : Env) {a : Aud} (sv : Services) {e : EntranceId}
    (h : (look env.cfg.entrances e).auditorium = some a) :
    (look (judgeHoldings env a sv).entrances e).holding = holdsNow env e (judgeHoldings env a sv) := by
  rw [holdsNow_congr (judgeHoldings_onHolds env a sv).houses (sensed_judgeHoldings env a sv e),
    look_judgeHoldings, if_pos h]

end Sys2Proof.Proofs.Houses
end

section
/-! PROOFS. Admission windows that close and open, and houses that open (R153-R160). -/

namespace Sys2Proof.Proofs.Windows

open Sys2Proof Sys2Proof.Machine Sys2Proof.Laws Sys2Proof.Proofs.Cues Sys2Proof.Proofs.Link
  Sys2Proof.Proofs.Passes Sys2Proof.Proofs.Houses

/-! ## The record of a house -/

theorem updHouse_houses (a b : Aud) (f : House → House) (sv : Services) :
    (updHouse a f sv).houses.get b = if a = b then f (sv.houses.get b) else sv.houses.get b :=
  get_updTwo _ _ _ _

theorem updHouse_self (a : Aud) (f : House → House) (sv : Services) :
    (updHouse a f sv).houses.get a = f (sv.houses.get a) := get_updTwo_self _ _ _

theorem updRecord_self (a : Aud) (f : WindowRecord → WindowRecord) (sv : Services) :
    (updRecord a f sv).houses.get a
      = { sv.houses.get a with record := (sv.houses.get a).record.map f } := get_updTwo_self _ _ _

theorem updHouse_other {a b : Aud} (h : b ≠ a) (f : House → House) (sv : Services) :
    (updHouse a f sv).houses.get b = sv.houses.get b := by
  rw [updHouse_houses, if_neg (Ne.symm h)]

/-! ## A window closes (R156) -/

/-- R156: the services once the lamps and the record are written, before the notice and the holdings. -/
def windowShut (env : Env) (a : Aud) (reason : CloseReason) (at_ : Nat) (sv : Services) : Services :=
  let waits := !(notClosed env a sv).isEmpty
  updRecord a (fun w =>
    { w with
      closed := some at_, closeReason := some reason
      grace := if waits then w.grace else .notNeeded })
    (setLamps env a (updHouse a (fun h =>
      { h with
        windowLeft := none, state := if waits then .closing else .sealed
        graceLeft := if waits then some ((env.cfg.auditoria.get a).grace * 1000) else none }) sv))

theorem closeWindow_eq (env : Env) (a : Aud) (reason : CloseReason) (at_ : Nat) (sv : Services) :
    closeWindow env a reason at_ sv
      = judgeHoldings env a (raise env .window (windowShut env a reason at_ sv)) := rfl

theorem windowShut_houses (env : Env) (a : Aud) (reason : CloseReason) (at_ : Nat) (sv : Services) :
    (windowShut env a reason at_ sv).houses.get a
      = { sv.houses.get a with
          windowLeft := none
          state := if notClosed env a sv = [] then .sealed else .closing
          graceLeft := if notClosed env a sv = [] then none
            else some ((env.cfg.auditoria.get a).grace * 1000)
          record := (sv.houses.get a).record.map (fun w => { w with
            closed := some at_, closeReason := some reason
            grace := if notClosed env a sv = [] then .notNeeded else w.grace }) } := by
  unfold windowShut
  dsimp only
  rw [updRecord_self, (setLamps_onHolds env a _).houses, updHouse_self]
  cases notClosed env a sv <;> rfl

theorem windowShut_others (env : Env) {a b : Aud} (h : b ≠ a) (reason : CloseReason) (at_ : Nat)
    (sv : Services) : (windowShut env a reason at_ sv).houses.get b = sv.houses.get b := by
  unfold windowShut
  dsimp only
  rw [updRecord, updHouse_other h, (setLamps_onHolds env a _).houses, updHouse_other h]

/-- R156: what closing a window leaves, and the lamps. -/
theorem windowShut_rest (env : Env) (a : Aud) (reason : CloseReason) (at_ : Nat) (sv : Services) :
    (windowShut env a reason at_ sv).slots = sv.slots
      ∧ (windowShut env a reason at_ sv).channels = sv.channels
      ∧ (windowShut env a reason at_ sv).chimes = sv.chimes
      ∧ ∀ e, (look env.cfg.entrances e).auditorium = some a →
        (look (windowShut env a reason at_ sv).entrances e).lamp = .red := by
  unfold windowShut
  dsimp only
  have on := setLamps_onHolds env a (updHouse a (fun h =>
    { h with
      windowLeft := none, state := if !(notClosed env a sv).isEmpty then .closing else .sealed
      graceLeft := if !(notClosed env a sv).isEmpty then
        some ((env.cfg.auditoria.get a).grace * 1000) else none }) sv)
  refine ⟨on.slots, on.channels, on.chimes, fun e own => ?_⟩
  refine (congrArg Entrance.lamp (look_setLamps env a _ e)).trans ?_
  rw [if_pos own, updHouse_self]
  cases notClosed env a sv <;> rfl

/-- R156: an admission window has closed. -/
theorem closeWindow_closed {s u : State} {env : Env} (a : Aud) (reason : CloseReason)
    (cfg : env.cfg = s.control.cfg)
    (svc : u.svc = closeWindow env a reason (s.cue.get a).clock s.svc) (sup : u.sup = s.sup)
    (cue : u.cue = s.cue) (control : u.control = s.control) : WindowClosed a reason s u := by
  have same : notClosed env a s.svc = notClosed s.env a s.svc := by
    unfold notClosed admissionEntrances entrancesOf
    rw [cfg]
    rfl
  rw [closeWindow_eq] at svc
  have shut := windowShut_houses env a reason (s.cue.get a).clock s.svc
  have others := fun b (other : b ≠ a) =>
    windowShut_others env other reason (s.cue.get a).clock s.svc
  obtain ⟨slots, channels, chimes, lamps⟩ := windowShut_rest env a reason (s.cue.get a).clock s.svc
  generalize windowShut env a reason (s.cue.get a).clock s.svc = t at svc shut others slots channels chimes lamps
  have on := judgeHoldings_onHolds env a (raise env .window t)
  have houses : u.svc.houses = t.houses := by rw [svc]; exact on.houses
  rw [same, cfg] at shut
  refine ⟨?_, ⟨?_, ?_⟩, fun w rec => ?_, fun e own => ?_, fun e own => ?_, ?_, fun b other => ?_,
    ⟨?_, ?_, ?_, sup, cue, control⟩⟩
  · rw [houses, shut]
  · rw [houses, shut]
  · rw [houses, shut]
  · rw [houses, shut]
    exact congrArg (Option.map _) rec
  · rw [svc, look_judgeHoldings, if_pos (by rw [cfg]; exact own)]
    exact lamps e (by rw [cfg]; exact own)
  · have held := holding_judgeHoldings env (raise env .window t) (e := e) (a := a)
      (by rw [cfg]; exact own)
    rw [svc, held]
    unfold holdsNow
    rw [cfg]
    rfl
  · rw [svc, on.link]
    exact (congrArg (· &&& 0x0080) (raise_kinds _ _ _)).trans (kinds_raised _ 0x0080)
  · rw [houses, others b other]
  · rw [svc]; exact on.slots.trans slots
  · rw [svc]; exact on.channels.trans channels
  · rw [svc]; exact on.chimes.trans chimes

/-- What a state says of a window does not change with the reply that follows. -/
theorem windowClosed_answered {a : Aud} {reason : CloseReason} {s u : State} {tag tag' : Byte}
    {kind kind' : RequestKind} {st : Status} {bytes : List Byte}
    (h : WindowClosed a reason (taken tag kind s) u) :
    WindowClosed a reason s (answered tag' kind' st bytes u) :=
  ⟨h.house, h.timers, h.record, h.lamps, h.holds, h.notice, h.other, h.rest⟩

theorem clock_get (s : State) (a : Aud) : s.env.clock.get a = (s.cue.get a).clock := by
  cases a <;> rfl

/-! ## ADMIT-CLOSE and the window timer (R156) -/

theorem admitClose_state {env : Env} {a : Aud} (reason : CloseReason) {sv : Services}
    (h : env.run = false ∨ (sv.houses.get a).state ≠ .admitting) :
    admitClose env a reason sv = (.state, sv) :=
  if_neg fun both => h.elim (fun off => absurd (off.symm.trans both.1) (by decide)) (fun k => k both.2)

theorem admitClose_ok {env : Env} {a : Aud} (reason : CloseReason) {sv : Services} (run : env.run = true)
    (open_ : (sv.houses.get a).state = .admitting) :
    admitClose env a reason sv = (.ok, closeWindow env a reason (env.clock.get a) sv) :=
  if_pos ⟨run, open_⟩

theorem workAdmitClose_range {tag : Byte} {n : Nat} (s : State) (h : audOf n = none) :
    workAdmitClose tag n s = answered tag .admitClose .range [] s := by
  unfold workAdmitClose
  rw [h]
  rfl

theorem workAdmitClose_state {tag : Byte} {a : Aud} {s : State}
    (h : s.control.running = false ∨ (s.svc.houses.get a).state ≠ .admitting) :
    workAdmitClose tag (audNumber a) s = answered tag .admitClose .state [] s := by
  unfold workAdmitClose answerWith
  rw [audOf_audNumber]
  dsimp only
  rw [admitClose_state (env := s.env) .request h]
  rfl

/-- R156: the services once a request has closed the window. -/
def shutByRequest (a : Aud) (s : State) : State :=
  { s with svc := closeWindow s.env a .request (s.cue.get a).clock s.svc }

theorem shutByRequest_closed (a : Aud) (s : State) : WindowClosed a .request s (shutByRequest a s) :=
  closeWindow_closed a .request (env := s.env) rfl rfl rfl rfl rfl

theorem workAdmitClose_ok {tag : Byte} {a : Aud} {s : State} (run : s.control.running = true)
    (open_ : (s.svc.houses.get a).state = .admitting) :
    workAdmitClose tag (audNumber a) s = answered tag .admitClose .ok
      [if notClosed s.env a s.svc = [] then 1 else 3] (shutByRequest a s) := by
  have house := (shutByRequest_closed a s).house
  unfold workAdmitClose answerWith
  rw [audOf_audNumber]
  dsimp only
  rw [admitClose_ok (env := s.env) .request run open_, clock_get]
  have code : u8 (houseCode ((shutByRequest a s).svc.houses.get a).state)
      = [if notClosed s.env a s.svc = [] then 1 else 3] := by
    rw [house]
    split <;> rfl
  rw [← code]
  rfl

/-! ## The grace timer (R157) -/

/-- R150: LEFT-OPEN is latched at each entrance of a list. -/
theorem foldl_latchLeftOpen (env : Env) :
    ∀ (l : List EntranceId) (sv : Services),
      let u := l.foldl (latchLeftOpen env) sv
      (∀ e, look u.entrances e = { look sv.entrances e with
        leftOpen := (look sv.entrances e).leftOpen || l.contains e })
      ∧ u.houses = sv.houses ∧ u.slots = sv.slots ∧ u.channels = sv.channels
      ∧ (sv.link.pendingKinds &&& 0x0100 = 0x0100 → u.link.pendingKinds &&& 0x0100 = 0x0100)
      ∧ (l ≠ [] → u.link.pendingKinds &&& 0x0100 = 0x0100) := by
  intro l
  induction l with
  | nil =>
    exact fun sv => ⟨fun e => by simp, rfl, rfl, rfl, fun h => h, fun h => absurd rfl h⟩
  | cons e rest ih =>
    intro sv
    obtain ⟨latches, houses, slots, channels, keeps, _⟩ := ih (latchLeftOpen env sv e)
    have raised : (latchLeftOpen env sv e).link.pendingKinds &&& 0x0100 = 0x0100 :=
      (congrArg (· &&& 0x0100) (raise_kinds env .entrance _)).trans (kinds_raised _ 0x0100)
    refine ⟨fun f => ?_, houses, slots, channels, fun _ => keeps raised, fun _ => keeps raised⟩
    have here : look (latchLeftOpen env sv e).entrances f
        = if e = f then { look sv.entrances e with leftOpen := true } else look sv.entrances f :=
      look_put _ _ _ _
    rw [List.foldl_cons, latches f, here]
    by_cases same : e = f
    · subst same
      simp
    · simp [same, Ne.symm same]

/-- R157: CLOSING has ended in SEALED. -/
structure Sealed (env : Env) (a : Aud) (outcome : GraceOutcome) (left : List EntranceId)
    (sv u : Services) : Prop where
  house : u.houses.get a = { sv.houses.get a with
    state := .sealed, graceLeft := none
    record := (sv.houses.get a).record.map (fun w => { w with grace := outcome, leftOpen := left }) }
  others : ∀ b, b ≠ a → u.houses.get b = sv.houses.get b
  latches : ∀ e, (look u.entrances e).leftOpen = (look sv.entrances e).leftOpen
    ∧ (look u.entrances e).sensed = (look sv.entrances e).sensed
    ∧ (look u.entrances e).openedWhileSealed = (look sv.entrances e).openedWhileSealed
  holds : ∀ e, (look env.cfg.entrances e).auditorium = some a →
    (look u.entrances e).holding = holdsNow env e u
  rest : u.slots = sv.slots ∧ u.channels = sv.channels ∧ u.calls = sv.calls ∧ u.link = sv.link

theorem endClosing_sealed (env : Env) (a : Aud) (outcome : GraceOutcome) (left : List EntranceId)
    (sv : Services) : Sealed env a outcome left sv (endClosing env a outcome left sv) := by
  unfold endClosing
  dsimp only
  have lit := setLamps_onHolds env a
    (updRecord a (fun w => { w with grace := outcome, leftOpen := left })
      (updHouse a (fun h => { h with state := .sealed, graceLeft := none }) sv))
  have lamps := look_setLamps env a
    (updRecord a (fun w => { w with grace := outcome, leftOpen := left })
      (updHouse a (fun h => { h with state := .sealed, graceLeft := none }) sv))
  generalize setLamps env a _ = t at lit lamps
  have on := judgeHoldings_onHolds env a t
  have houses := on.houses.trans lit.houses
  refine ⟨?_, fun b other => ?_, fun e => ?_, fun e own => holding_judgeHoldings env t own,
    ⟨on.slots.trans lit.slots, on.channels.trans lit.channels, on.calls.trans lit.calls,
      on.link.trans lit.link⟩⟩
  · rw [houses, updRecord_self, updHouse_self]
  · rw [houses, updRecord, updHouse_other other, updHouse_other other]
  · rw [look_judgeHoldings, lamps]
    split <;> exact ⟨rfl, rfl, rfl⟩

/-- Settles O51: ADMIT-CLOSE, the window timer and the grace timer. -/
theorem windowsClose : Obligations.WindowsClose := by
  intro tag n s
  refine ⟨fun h one two => request_eq_of_work h (workAdmitClose_range _ (audOf_eq_none one two)),
    fun a h named => ⟨fun no => ?_, fun run open_ => ?_⟩,
    fun a h => ⟨fun no => ?_, fun open_ out => ?_, fun no => ?_, fun closing => ?_⟩⟩
  · subst named
    exact request_eq_of_work h (workAdmitClose_state no)
  · subst named
    exact ⟨_, request_of_work h (workAdmitClose_ok (s := taken tag .admitClose s) run open_),
      windowClosed_answered (shutByRequest_closed a _), reply_mem _ _ _ _ _⟩
  · exact event_eq_of_work h (congrArg (fun sv => { s with svc := sv })
      (if_neg fun both => no.elim (fun k => k both.1) (fun k => k both.2)))
  · have expired : windowExpired s.env a s.svc = closeWindow s.env a .expired (s.cue.get a).clock s.svc :=
      (if_pos ⟨open_, out⟩).trans (by rw [clock_get])
    have closed : WindowClosed a .expired s
        { s with svc := closeWindow s.env a .expired (s.cue.get a).clock s.svc } :=
      closeWindow_closed a .expired (env := s.env) rfl rfl rfl rfl rfl
    exact ⟨_, event_of_work h (congrArg (fun sv => { s with svc := sv }) expired), closed⟩
  · exact event_eq_of_work h (congrArg (fun sv => { s with svc := sv }) (if_neg no))
  · have expired : graceExpired s.env a s.svc = (notClosed s.env a s.svc).foldl (latchLeftOpen s.env)
        (endClosing s.env a .expired (notClosed s.env a s.svc) s.svc) := if_pos closing
    have sealed_ := endClosing_sealed s.env a .expired (notClosed s.env a s.svc) s.svc
    obtain ⟨latches, houses, slots, channels, _, notice⟩ := foldl_latchLeftOpen s.env
      (notClosed s.env a s.svc) (endClosing s.env a .expired (notClosed s.env a s.svc) s.svc)
    intro left
    refine ⟨_, event_of_work h (congrArg (fun sv => { s with svc := sv }) expired), ?_⟩
    dsimp only
    rw [houses, sealed_.house]
    refine ⟨rfl, rfl, fun w rec => congrArg (Option.map _) rec, fun e => ?_, notice, fun e => ?_,
      slots.trans sealed_.rest.1, channels.trans sealed_.rest.2.1, rfl, rfl, rfl⟩
    · rw [latches e, (sealed_.latches e).1]
    · rw [latches e]
      exact (sealed_.latches e).2

end Sys2Proof.Proofs.Windows
end

section
/-! PROOFS. ADMIT-OPEN (R155, R158, R160). -/

namespace Sys2Proof.Proofs.Admission

open Sys2Proof Sys2Proof.Machine Sys2Proof.Laws Sys2Proof.Proofs.Cues Sys2Proof.Proofs.Link
  Sys2Proof.Proofs.Passes Sys2Proof.Proofs.Houses Sys2Proof.Proofs.Windows

/-! ## The admission chime (R158) -/

/-- What the chime logic leaves: the zones, the chimes and the results of one house apart. -/
structure OnChime (a : Aud) (sv u : Services) : Prop where
  house : ∃ results, u.houses.get a = { sv.houses.get a with chimes := results }
  others : ∀ b, b ≠ a → u.houses.get b = sv.houses.get b
  entrances : u.entrances = sv.entrances
  rest : u.slots = sv.slots ∧ u.channels = sv.channels ∧ u.calls = sv.calls ∧ u.link = sv.link

theorem startAdmitChime_chimes (env : Env) (a : Aud) (reopened : Bool) (sv : Services) :
    OnChime a sv (startAdmitChime env a reopened sv)
      ∧ (lobbyZones env a ≠ [] → chimeSounds (.window a) (startAdmitChime env a reopened sv) = true) := by
  have still : OnChime a sv sv := ⟨⟨_, rfl⟩, fun _ _ => rfl, rfl, rfl, rfl, rfl, rfl⟩
  unfold startAdmitChime
  split
  next sounds => exact ⟨still, fun _ => (Bool.and_eq_true_iff.1 sounds).2⟩
  next =>
    split
    next none_ => exact ⟨still, fun some_ => absurd none_ some_⟩
    next =>
      have on := onRouter_setClaim env (admitClaim a) false (lobbyZones env a) sv
      dsimp only
      generalize setClaim env (admitClaim a) false (lobbyZones env a) sv = r at on ⊢
      refine ⟨⟨⟨r.1.map (fun p => (p.1, if p.2.granted then .whole else .skipped)), ?_⟩,
        fun b other => ?_, on.entrances, on.slots, on.channels, on.calls, on.link⟩,
        fun _ => ?_⟩
      · exact (updHouse_self a _ _).trans (by rw [on.houses])
      · exact (updHouse_other other _ _).trans (by rw [on.houses])
      · simp [chimeSounds, startChime, stopChime]

/-! ## A window opens (R155, R160) -/

/-- R155: the house and its lamps once a window has opened, before the holdings. -/
def windowBegun (env : Env) (a : Aud) (seconds : Nat) (onMusic : Bool) (sv : Services) : Services :=
  setLamps env a (updHouse a (fun h =>
    { h with
      state := .admitting, windowLeft := some (windowTime env a seconds * 1000), graceLeft := none
      closeOnMusic := onMusic, windows := holdAt 65535 h.windows }) sv)

/-- R158, R159: the holdings and the chime of a window that has opened. -/
def windowChimes (env : Env) (a : Aud) (seconds : Nat) (onMusic : Bool) (sv : Services) : Services :=
  startAdmitChime env a ((sv.houses.get a).state == .closing)
    (judgeHoldings env a (windowBegun env a seconds onMusic sv))

/-- R160: the record of a window that opens. -/
def newRecord (env : Env) (a : Aud) (seconds : Nat) (onMusic : Bool) (origin : WindowOrigin)
    (number : Nat) (sounding : Bool) : WindowRecord :=
  { number := number, opened := env.clock.get a, openedBy := origin
    windowTime := windowTime env a seconds, closeOnMusic := onMusic, closed := none
    closeReason := none, grace := .pending, leftOpen := []
    chimes := if sounding then none else some [] }

theorem openWindow_eq (env : Env) (a : Aud) (seconds : Nat) (onMusic : Bool) (origin : WindowOrigin)
    (sv : Services) : openWindow env a seconds onMusic origin sv
      = raise env .window (updHouse a (fun h =>
          { h with record := some (newRecord env a seconds onMusic origin h.windows
              (chimeSounds (.window a) (windowChimes env a seconds onMusic sv))) })
          (windowChimes env a seconds onMusic sv)) := rfl

/-- R155: what stands once the chime of a window has begun. -/
structure Begun (env : Env) (a : Aud) (seconds : Nat) (onMusic : Bool) (sv u : Services) : Prop where
  house : ∃ results, u.houses.get a = { sv.houses.get a with
    state := .admitting, windowLeft := some (windowTime env a seconds * 1000), graceLeft := none
    closeOnMusic := onMusic, windows := advanceTo (sv.houses.get a).windows, chimes := results }
  others : ∀ b, b ≠ a → u.houses.get b = sv.houses.get b
  lamps : ∀ e, (look env.cfg.entrances e).auditorium = some a →
    (look u.entrances e).lamp = if (look env.cfg.entrances e).admission then .green else .red
  holds : ∀ e, (look env.cfg.entrances e).auditorium = some a →
    (look u.entrances e).holding = holdsNow env e u
  chime : lobbyZones env a ≠ [] → chimeSounds (.window a) u = true
  rest : u.slots = sv.slots ∧ u.channels = sv.channels

theorem windowChimes_begun (env : Env) (a : Aud) (seconds : Nat) (onMusic : Bool) (sv : Services) :
    Begun env a seconds onMusic sv (windowChimes env a seconds onMusic sv) := by
  unfold windowChimes
  have lit : OnHolds _ (windowBegun env a seconds onMusic sv) := setLamps_onHolds env a _
  have lamps : ∀ e, look (windowBegun env a seconds onMusic sv).entrances e = _ :=
    look_setLamps env a _
  have judged := judgeHoldings_onHolds env a (windowBegun env a seconds onMusic sv)
  obtain ⟨on, chime⟩ := startAdmitChime_chimes env a ((sv.houses.get a).state == .closing)
    (judgeHoldings env a (windowBegun env a seconds onMusic sv))
  obtain ⟨results, house⟩ := on.house
  have state : ((startAdmitChime env a ((sv.houses.get a).state == .closing)
      (judgeHoldings env a (windowBegun env a seconds onMusic sv))).houses.get a).state
      = ((judgeHoldings env a (windowBegun env a seconds onMusic sv)).houses.get a).state := by
    rw [house]
  have same : ∀ e, (look env.cfg.entrances e).auditorium = some a →
      holdsNow env e (startAdmitChime env a ((sv.houses.get a).state == .closing)
        (judgeHoldings env a (windowBegun env a seconds onMusic sv)))
      = holdsNow env e (judgeHoldings env a (windowBegun env a seconds onMusic sv)) := by
    intro e own
    unfold holdsNow
    dsimp only
    rw [own]
    dsimp only
    rw [state, on.entrances]
  refine ⟨⟨results, ?_⟩, fun b other => ?_, fun e own => ?_, fun e own => ?_, chime,
    ⟨on.rest.1.trans (judged.slots.trans lit.slots),
      on.rest.2.1.trans (judged.channels.trans lit.channels)⟩⟩
  · rw [house, judged.houses, lit.houses, updHouse_self]
    rfl
  · rw [on.others b other, judged.houses, lit.houses, updHouse_other other]
  · rw [on.entrances, look_judgeHoldings, if_pos own]
    refine (congrArg Entrance.lamp (lamps e)).trans ?_
    rw [if_pos own, updHouse_self]
    rfl
  · rw [same e own, on.entrances]
    exact holding_judgeHoldings env _ own

/-- R155, R160: a new admission window has opened. -/
theorem openWindow_opened {s u : State} (a : Aud) (seconds : Nat) (onMusic : Bool)
    (svc : u.svc = openWindow s.env a seconds onMusic .request s.svc) (sup : u.sup = s.sup)
    (cue : u.cue = s.cue) (quiet : u.quiet = s.quiet) (control : u.control = s.control) :
    WindowOpened a seconds onMusic s u := by
  have begun := windowChimes_begun s.env a seconds onMusic s.svc
  rw [openWindow_eq] at svc
  generalize windowChimes s.env a seconds onMusic s.svc = t at svc begun
  obtain ⟨results, house⟩ := begun.house
  have houses : u.svc.houses.get a = { t.houses.get a with
      record := some (newRecord s.env a seconds onMusic .request (t.houses.get a).windows
        (chimeSounds (.window a) t)) } := by
    rw [svc]
    exact updHouse_self a _ t
  have entrances : u.svc.entrances = t.entrances := by rw [svc]; rfl
  rw [house] at houses
  refine ⟨by rw [houses]; exact ⟨rfl, rfl, rfl, rfl, rfl⟩,
    ⟨_, by rw [houses], rfl, (clock_get s a), rfl, rfl, rfl, rfl, rfl, rfl, rfl⟩, fun e own => ?_,
    fun e own => ?_, fun some_ => ?_, ?_, fun b other => ?_, ⟨?_, ?_, sup, cue, quiet, control⟩⟩
  · rw [entrances]
    exact begun.lamps e own
  · rw [entrances, begun.holds e own]
    unfold holdsNow
    dsimp only
    rw [show (look s.env.cfg.entrances e).auditorium = some a from own]
    dsimp only
    rw [houses, house, entrances]
  · rw [svc]
    exact begun.chime some_
  · rw [svc]
    exact (congrArg (· &&& 0x0080) (raise_kinds _ _ _)).trans (kinds_raised _ 0x0080)
  · rw [svc]
    exact (updHouse_other other _ _).trans (begun.others b other)
  · rw [svc]
    exact begun.rest.1
  · rw [svc]
    exact begun.rest.2

/-! ## ADMIT-OPEN (R155) -/

/-- R155: a window time that may be asked for. -/
theorem windowTimeLegal_iff (seconds : Nat) : (decide (seconds = 0) || between 5 300 seconds) = true
    ↔ seconds = 0 ∨ (5 ≤ seconds ∧ seconds ≤ 300) := by
  simp [between]

section open_

variable {env : Env} {a : Aud} {seconds : Nat} (m : Bool) (origin : WindowOrigin) (sv : Services)

theorem admitOpen_range (h : seconds ≠ 0 ∧ (seconds < 5 ∨ 300 < seconds)) :
    admitOpen env a seconds m origin sv = (.range, sv) := by
  refine if_pos ?_
  rw [Bool.not_eq_true', ← Bool.not_eq_true, windowTimeLegal_iff]
  omega

variable (legal : seconds = 0 ∨ (5 ≤ seconds ∧ seconds ≤ 300))

include legal

theorem admitOpen_legal : admitOpen env a seconds m origin sv =
    if !env.run then (.state, sv)
    else match (sv.houses.get a).state with
      | .opened => (.state, sv)
      | .admitting => (.ok, restartWindow env a seconds m sv)
      | .sealed | .closing => (.ok, openWindow env a seconds m origin sv) := by
  have ok := (windowTimeLegal_iff seconds).2 legal
  unfold admitOpen
  rw [ok]
  cases (sv.houses.get a).state <;> rfl

theorem admitOpen_state (h : env.run = false ∨ (sv.houses.get a).state = .opened) :
    admitOpen env a seconds m origin sv = (.state, sv) := by
  rw [admitOpen_legal m origin sv legal]
  rcases h with off | opened
  · rw [off]
    rfl
  · rw [opened]
    exact ite_self _

theorem admitOpen_restart (run : env.run = true) (h : (sv.houses.get a).state = .admitting) :
    admitOpen env a seconds m origin sv = (.ok, restartWindow env a seconds m sv) := by
  rw [admitOpen_legal m origin sv legal, run, h]
  rfl

theorem admitOpen_new (run : env.run = true)
    (h : (sv.houses.get a).state = .sealed ∨ (sv.houses.get a).state = .closing) :
    admitOpen env a seconds m origin sv = (.ok, openWindow env a seconds m origin sv) := by
  rw [admitOpen_legal m origin sv legal, run]
  rcases h with state | state <;> rw [state] <;> rfl

end open_

/-- What a service decides is the reply. -/
theorem answerWith_of {tag : Byte} {kind : RequestKind} {f : Env → Services → Answer × Services}
    {s : State} {ans : Answer} {u : Services} (h : f s.env s.svc = (ans, u)) :
    answerWith tag kind f s = { s with svc := u }.reply tag kind ans := by
  unfold answerWith
  rw [h]

theorem workAdmitOpen_none (tag : Byte) (n seconds : Nat) (s : State) :
    workAdmitOpen tag n seconds none s = answered tag .admitOpen .range [] s := by
  unfold workAdmitOpen
  split
  next flag => cases flag
  next => rfl

theorem workAdmitOpen_aud {tag : Byte} {n seconds : Nat} (m : Bool) (s : State) (h : audOf n = none) :
    workAdmitOpen tag n seconds (some m) s = answered tag .admitOpen .range [] s := by
  unfold workAdmitOpen
  rw [h]
  rfl

theorem workAdmitOpen_eq (tag : Byte) (a : Aud) (seconds : Nat) (m : Bool) (s : State) :
    workAdmitOpen tag (audNumber a) seconds (some m) s
      = answerWith tag .admitOpen (fun env sv =>
          admitOpenAnswer env a seconds (admitOpen env a seconds m .request sv)) s := by
  unfold workAdmitOpen
  rw [audOf_audNumber]

theorem workAdmitOpen_refused {tag : Byte} {a : Aud} {seconds : Nat} {m : Bool} {s : State} {st : Status}
    (h : admitOpen s.env a seconds m .request s.svc = (st, s.svc)) (bad : st ≠ .ok) :
    workAdmitOpen tag (audNumber a) seconds (some m) s = answered tag .admitOpen st [] s := by
  have answer : admitOpenAnswer s.env a seconds (admitOpen s.env a seconds m .request s.svc)
      = (.refuse st, s.svc) := by
    rw [h]
    cases st with
    | ok => exact absurd rfl bad
    | _ => rfl
  rw [workAdmitOpen_eq, answerWith_of answer]
  rfl

theorem workAdmitOpen_ok {tag : Byte} {a : Aud} {seconds : Nat} {m : Bool} {s : State} {u : Services}
    (h : admitOpen s.env a seconds m .request s.svc = (.ok, u))
    (state : (u.houses.get a).state = .admitting) :
    workAdmitOpen tag (audNumber a) seconds (some m) s
      = answered tag .admitOpen .ok (0x02 :: u16 (windowTime s.env a seconds)) { s with svc := u } := by
  have answer : admitOpenAnswer s.env a seconds (admitOpen s.env a seconds m .request s.svc)
      = (.plain .ok (0x02 :: u16 (windowTime s.env a seconds)), u) := by
    rw [h]
    unfold admitOpenAnswer
    dsimp only
    rw [state]
    rfl
  rw [workAdmitOpen_eq, answerWith_of answer]
  rfl

/-- What a state says of a window does not change with the reply that follows. -/
theorem windowOpened_answered {a : Aud} {seconds : Nat} {m : Bool} {s u : State} {tag tag' : Byte}
    {kind kind' : RequestKind} {st : Status} {bytes : List Byte}
    (h : WindowOpened a seconds m (taken tag kind s) u) :
    WindowOpened a seconds m s (answered tag' kind' st bytes u) :=
  ⟨h.house, h.record, h.lamps, h.holds, h.chime, h.notice, h.other, h.rest⟩

/-- Settles O50: ADMIT-OPEN refused, a new window, and one that restarts. -/
theorem admitOpenOpensAWindow : Obligations.AdmitOpenOpensAWindow := by
  intro tag n sec m s h
  refine ⟨fun bad => ?range, request_eq_of_work h (workAdmitOpen_none tag n sec _),
    fun a named legal => ⟨fun no => ?state, fun run new => ?new, fun run open_ => ?restart⟩⟩
  case range =>
    refine request_eq_of_work h ?_
    rcases audOf_cases n with none_ | ⟨a, named⟩
    · exact workAdmitOpen_aud m _ none_
    · subst named
      refine workAdmitOpen_refused (admitOpen_range m .request _ ?_) (by decide)
      exact bad.resolve_left fun other => by cases a <;> simp [audNumber] at other
  case state =>
    subst named
    exact request_eq_of_work h (workAdmitOpen_refused
      (admitOpen_state (env := (taken tag .admitOpen s).env) m .request _ legal no) (by decide))
  case new =>
    subst named
    have opened : WindowOpened a sec m (taken tag .admitOpen s) { taken tag .admitOpen s with
        svc := openWindow s.env a sec m .request (taken tag .admitOpen s).svc } :=
      openWindow_opened a sec m rfl rfl rfl rfl rfl
    refine ⟨_, request_of_work h (workAdmitOpen_ok (s := taken tag .admitOpen s)
      (admitOpen_new (env := s.env) m .request _ legal run new) opened.house.1),
      windowOpened_answered opened, reply_mem _ _ _ _ _⟩
  case restart =>
    subst named
    have state : ((restartWindow s.env a sec m (taken tag .admitOpen s).svc).houses.get a).state
        = .admitting := by
      unfold restartWindow
      dsimp only
      rw [updRecord_self, updHouse_self]
      exact open_
    refine request_eq_of_work h ((workAdmitOpen_ok (s := taken tag .admitOpen s)
      (admitOpen_restart (env := s.env) m .request _ legal run open_) state).trans ?_)
    have houses : (restartWindow s.env a sec m (taken tag .admitOpen s).svc).houses
        = s.svc.houses.set a { s.svc.houses.get a with
            windowLeft := some (windowTime s.env a sec * 1000), closeOnMusic := m
            record := (s.svc.houses.get a).record.map (fun w =>
              { w with windowTime := windowTime s.env a sec, closeOnMusic := m }) } := by
      refine two_ext fun b => ?_
      cases a <;> cases b <;> rfl
    refine congrArg (fun houses => answered tag .admitOpen .ok (0x02 :: u16 (windowTime s.env a sec))
      { taken tag .admitOpen s with svc := { (taken tag .admitOpen s).svc with houses := houses } }) houses

end Sys2Proof.Proofs.Admission
end


section
/-! PROOFS. HOUSE-OPEN (R153) and sensor events (R149, R150, R157). -/

namespace Sys2Proof.Proofs.Doors

open Sys2Proof Sys2Proof.Machine Sys2Proof.Laws Sys2Proof.Proofs.Cues Sys2Proof.Proofs.Link
  Sys2Proof.Proofs.Passes Sys2Proof.Proofs.Houses Sys2Proof.Proofs.Windows Sys2Proof.Proofs.Admission

/-! ## The end of an admission chime (R158) -/

/-- What an admission chime's end leaves: the claims, the chimes and the results apart, nothing. -/
structure ChimeOver (a : Aud) (sv u : Services) : Prop where
  house : ∃ (results : List (ZoneId × ChimeResult)) (more : WindowRecord → WindowRecord),
    u.houses.get a = { sv.houses.get a with
      chimes := results, record := (sv.houses.get a).record.map more }
    ∧ ∀ w, ∃ c, more w = { w with chimes := c }
  others : ∀ b, b ≠ a → u.houses.get b = sv.houses.get b
  silent : chimeSounds (.window a) u = false
  entrances : u.entrances = sv.entrances
  rest : u.slots = sv.slots ∧ u.channels = sv.channels ∧ u.calls = sv.calls ∧ u.link = sv.link

theorem finishAdmitChime_over (env : Env) (a : Aud) (sv : Services) :
    ChimeOver a sv (finishAdmitChime env a sv) := by
  unfold finishAdmitChime
  dsimp only
  have on := onRouter_releaseAll env (.window a) (stopChime (.window a) sv)
  generalize releaseAll env (.window a) (stopChime (.window a) sv) = t at on ⊢
  refine ⟨⟨[], fun w => { w with chimes := some (sv.houses.get a).chimes }, ?_, fun w => ⟨_, rfl⟩⟩,
    fun b other => ?_, ?_, on.entrances, on.slots, on.channels, on.calls, on.link⟩
  · rw [updHouse_self, on.houses]
    rfl
  · rw [updHouse_other other, on.houses]
    rfl
  · have chimes : t.chimes = sv.chimes.filter (fun k => k.owner != .window a) := on.chimes
    simp [chimeSounds, updHouse, chimes]

theorem house_record_id (h : House) : { h with record := h.record.map id } = h := by
  rw [Option.map_id]
  rfl

/-- R153: an admission chime that sounds is silenced. -/
def silenced (env : Env) (a : Aud) (sv : Services) : Services :=
  if chimeSounds (.window a) sv then finishAdmitChime env a sv else sv

theorem silenced_over (env : Env) (a : Aud) (sv : Services) : ChimeOver a sv (silenced env a sv) := by
  unfold silenced
  split
  · exact finishAdmitChime_over env a sv
  next quiet =>
    exact ⟨⟨(sv.houses.get a).chimes, id, (house_record_id _).symm, fun w => ⟨w.chimes, rfl⟩⟩,
      fun _ _ => rfl, Bool.eq_false_iff.2 quiet, rfl, rfl, rfl, rfl, rfl⟩

/-! ## The house opens (R153) -/

/-- R153: the house's record as the opening leaves it, and the notice of a window it closes. -/
def openedRecord (env : Env) (a : Aud) (was : HouseState) (sv : Services) : Services :=
  match was with
  | .admitting =>
    raise env .window (updRecord a (fun w =>
      { w with closed := some (env.clock.get a), closeReason := some .houseOpen }) sv)
  | .closing => updRecord a (fun w => { w with grace := .houseOpen }) sv
  | _ => sv

/-- R153: the house with its timers stopped. -/
def houseBegunOpen (a : Aud) (sv : Services) : Services :=
  updHouse a (fun h => { h with state := .opened, windowLeft := none, graceLeft := none }) sv

theorem openHouse_eq (env : Env) (a : Aud) (sv : Services) : openHouse env a sv
    = judgeHoldings env a (setLamps env a (openedRecord env a (sv.houses.get a).state
        (silenced env a (houseBegunOpen a sv)))) := rfl

/-- R153: what opening writes in the window record. -/
def closedByHouse (env : Env) (a : Aud) (was : HouseState) (w : WindowRecord) : WindowRecord :=
  match was with
  | .admitting => { w with closed := some (env.clock.get a), closeReason := some .houseOpen }
  | .closing => { w with grace := .houseOpen }
  | _ => w

theorem openedRecord_facts (env : Env) (a : Aud) (was : HouseState) (sv : Services) :
    (openedRecord env a was sv).houses.get a
      = { sv.houses.get a with record := (sv.houses.get a).record.map (closedByHouse env a was) }
    ∧ (∀ b, b ≠ a → (openedRecord env a was sv).houses.get b = sv.houses.get b)
    ∧ (openedRecord env a was sv).entrances = sv.entrances
    ∧ (openedRecord env a was sv).chimes = sv.chimes
    ∧ ((openedRecord env a was sv).slots = sv.slots ∧ (openedRecord env a was sv).channels = sv.channels
      ∧ (openedRecord env a was sv).calls = sv.calls)
    ∧ (was = .admitting → (openedRecord env a was sv).link.pendingKinds &&& 0x0080 = 0x0080) := by
  cases was with
  | admitting =>
    exact ⟨updRecord_self a _ sv, fun b other => updHouse_other other _ _, rfl, rfl, ⟨rfl, rfl, rfl⟩,
      fun _ => (congrArg (· &&& 0x0080) (raise_kinds _ _ _)).trans (kinds_raised _ 0x0080)⟩
  | closing =>
    exact ⟨updRecord_self a _ sv, fun b other => updHouse_other other _ _, rfl, rfl, ⟨rfl, rfl, rfl⟩,
      fun h => nomatch h⟩
  | opened | sealed =>
    exact ⟨(house_record_id _).symm, fun _ _ => rfl, rfl, rfl, ⟨rfl, rfl, rfl⟩, fun h => nomatch h⟩

/-- R153: a house has opened. -/
structure Opened (env : Env) (a : Aud) (sv u : Services) : Prop where
  house : ∃ (results : List (ZoneId × ChimeResult)) (more : WindowRecord → WindowRecord),
    u.houses.get a = { sv.houses.get a with
      state := .opened, windowLeft := none, graceLeft := none, chimes := results
      record := ((sv.houses.get a).record.map more).map
        (closedByHouse env a (sv.houses.get a).state) }
    ∧ ∀ w, ∃ c, more w = { w with chimes := c }
  others : ∀ b, b ≠ a → u.houses.get b = sv.houses.get b
  entrances : ∀ e, (look env.cfg.entrances e).auditorium = some a →
    (look u.entrances e).lamp = .off ∧ (look u.entrances e).holding = false
      ∧ (look u.entrances e).sensed = (look sv.entrances e).sensed
  silent : chimeSounds (.window a) u = false
  notice : (sv.houses.get a).state = .admitting → u.link.pendingKinds &&& 0x0080 = 0x0080
  rest : u.slots = sv.slots ∧ u.channels = sv.channels ∧ u.calls = sv.calls

/-- R159: an open house's entrances hold nothing. -/
theorem holdsNow_opened {env : Env} {e : EntranceId} {a : Aud} {sv : Services}
    (own : (look env.cfg.entrances e).auditorium = some a) (h : (sv.houses.get a).state = .opened) :
    holdsNow env e sv = false := by
  unfold holdsNow
  dsimp only
  rw [own]
  dsimp only
  rw [h]
  rfl

theorem openHouse_opened (env : Env) (a : Aud) (sv : Services) :
    Opened env a sv (openHouse env a sv) := by
  rw [openHouse_eq]
  obtain ⟨⟨results, more, house, keeps⟩, others, silent, entrances, slots, channels, calls, link⟩ :=
    silenced_over env a (houseBegunOpen a sv)
  generalize silenced env a (houseBegunOpen a sv) = t at *
  obtain ⟨house', others', entrances', chimes', ⟨slots', channels', calls'⟩, notice⟩ :=
    openedRecord_facts env a (sv.houses.get a).state t
  generalize openedRecord env a (sv.houses.get a).state t = r at *
  have lit := setLamps_onHolds env a r
  have lamps := look_setLamps env a r
  generalize setLamps env a r = l at *
  have on := judgeHoldings_onHolds env a l
  have state : (r.houses.get a).state = .opened := by
    rw [house', house, houseBegunOpen, updHouse_self]
  refine ⟨⟨results, more, ?_, keeps⟩, fun b other => ?_, fun e own => ?_, ?_, fun was => ?_,
    ⟨on.slots.trans (lit.slots.trans (slots'.trans slots)),
      on.channels.trans (lit.channels.trans (channels'.trans channels)),
      on.calls.trans (lit.calls.trans (calls'.trans calls))⟩⟩
  · rw [on.houses, lit.houses, house', house, houseBegunOpen, updHouse_self]
  · rw [on.houses, lit.houses, others' b other, others b other, houseBegunOpen, updHouse_other other]
  · rw [look_judgeHoldings, if_pos own, lamps, if_pos own,
      holdsNow_opened own (by rw [lit.houses]; exact state), state, entrances', entrances]
    exact ⟨rfl, rfl, rfl⟩
  · have same : (judgeHoldings env a l).chimes = t.chimes :=
      on.chimes.trans (lit.chimes.trans chimes')
    unfold chimeSounds
    rw [same]
    exact silent
  · rw [on.link, lit.link]
    exact notice was

/-! ## HOUSE-OPEN (R153) -/

theorem workHouseOpen_range {tag : Byte} {n : Nat} (s : State) (h : audOf n = none) :
    workHouseOpen tag n s = answered tag .houseOpen .range [] s := by
  unfold workHouseOpen
  rw [h]
  rfl

theorem workHouseOpen_state {tag : Byte} {a : Aud} {s : State}
    (h : s.control.running = false ∨ (s.svc.houses.get a).state = .opened) :
    workHouseOpen tag (audNumber a) s = answered tag .houseOpen .state [] s := by
  unfold workHouseOpen
  rw [audOf_audNumber]
  exact if_pos (h.imp (fun off => by rw [off]; rfl) id)

theorem workHouseOpen_ok {tag : Byte} {a : Aud} {s : State} (run : s.control.running = true)
    (h : (s.svc.houses.get a).state ≠ .opened) :
    workHouseOpen tag (audNumber a) s = answered tag .houseOpen .ok []
      { s with
        svc := openHouse s.env a s.svc
        cue := s.cue.set a { s.cue.get a with running := false } } := by
  unfold workHouseOpen
  rw [audOf_audNumber]
  refine (if_neg fun no => ?_).trans rfl
  exact no.elim (fun off => by rw [run] at off; cases off) h

/-- Settles O49: HOUSE-OPEN refused and done. -/
theorem houseOpenOpens : Obligations.HouseOpenOpens := by
  intro tag n s h
  refine ⟨fun one two => request_eq_of_work h (workHouseOpen_range _ (audOf_eq_none one two)),
    fun a named no => ?_, fun a named run shut => ?_⟩
  · subst named
    exact request_eq_of_work h (workHouseOpen_state no)
  · subst named
    refine ⟨_, request_of_work h (workHouseOpen_ok (s := taken tag .houseOpen s) run shut), ?_⟩
    obtain ⟨⟨results, more, house, keeps⟩, others, entrances, silent, notice, slots, channels, calls⟩ :=
      openHouse_opened (taken tag .houseOpen s).env a (taken tag .houseOpen s).svc
    have state := congrArg House.state house
    have window := congrArg House.windowLeft house
    have grace := congrArg House.graceLeft house
    have record := congrArg House.record house
    refine ⟨state, window, grace, others, rfl, rfl, entrances, silent, fun w was rec => ⟨notice was, ?_⟩,
      fun w was rec => ?_, reply_mem _ _ _ _ _, slots, channels, calls, rfl, rfl⟩
    · obtain ⟨c, eq⟩ := keeps w
      refine ⟨_, record.trans (by rw [taken_houses, rec]; rfl), ?_⟩
      rw [was, eq]
      exact ⟨rfl, congrArg some (clock_get s a), rfl⟩
    · obtain ⟨c, eq⟩ := keeps w
      refine ⟨_, record.trans (by rw [taken_houses, rec]; rfl), ?_⟩
      rw [was, eq]
      exact ⟨rfl, rfl, rfl⟩

/-! ## Sensor events (R149, R150, R157) -/

/-- R150: the latch of an entrance that opens in a SEALED house. -/
theorem latchOpened_latch (env : Env) (a : Aud) (e : EntranceId) (o : Bool) (sv : Services) :
    (∀ f, look (latchOpened env a e o sv).entrances f
      = if e = f then { look sv.entrances e with
          openedWhileSealed := (look sv.entrances e).openedWhileSealed
            || (o && (sv.houses.get a).state == .sealed) }
        else look sv.entrances f)
    ∧ (o = true → (sv.houses.get a).state = .sealed →
        (latchOpened env a e o sv).link.pendingKinds &&& 0x0100 = 0x0100)
    ∧ (latchOpened env a e o sv).houses = sv.houses
    ∧ (latchOpened env a e o sv).slots = sv.slots ∧ (latchOpened env a e o sv).channels = sv.channels
    ∧ (latchOpened env a e o sv).calls = sv.calls := by
  unfold latchOpened
  split
  next both =>
    obtain ⟨rfl, state⟩ := both
    refine ⟨fun f => ?_, fun _ _ =>
      (congrArg (· &&& 0x0100) (raise_kinds env .entrance _)).trans (kinds_raised _ 0x0100),
      rfl, rfl, rfl, rfl⟩
    rw [state]
    exact (look_put _ _ _ _).trans (by simp)
  next not_both =>
    refine ⟨fun f => ?_, fun open_ state => absurd ⟨open_, state⟩ not_both, rfl, rfl, rfl, rfl⟩
    have quiet : (o && (sv.houses.get a).state == .sealed) = false := by
      simpa using not_both
    rw [quiet, Bool.or_false]
    split
    next same => subst same; rfl
    next => rfl

/-- R149: the services once the sensed state follows, before the latch and the holding. -/
def sensedNow (e : EntranceId) (o : Bool) (sv : Services) : Services :=
  putEntrance e { look sv.entrances e with sensed := sensedOf o } sv

/-- R150, R159: the latch and the holding of an entrance in use. -/
def doorJudged (env : Env) (a : Aud) (e : EntranceId) (o : Bool) (sv : Services) : Services :=
  judgeHolding env (latchOpened env a e o (sensedNow e o sv)) e

theorem sensorEvent_free {env : Env} {e : EntranceId} {o : Bool} {sv : Services}
    (new : (look sv.entrances e).sensed ≠ sensedOf o)
    (free : (look env.cfg.entrances e).auditorium = none) :
    sensorEvent env e o sv = sensedNow e o sv := by
  unfold sensorEvent
  dsimp only
  rw [if_neg new, free]
  rfl

theorem sensorEvent_used {env : Env} {e : EntranceId} {o : Bool} {a : Aud} {sv : Services}
    (new : (look sv.entrances e).sensed ≠ sensedOf o)
    (used : (look env.cfg.entrances e).auditorium = some a) :
    sensorEvent env e o sv =
      if ((doorJudged env a e o sv).houses.get a).state = .closing
          ∧ notClosed env a (doorJudged env a e o sv) = [] then
        endClosing env a .allClosed [] (doorJudged env a e o sv)
      else doorJudged env a e o sv := by
  unfold sensorEvent
  dsimp only
  rw [if_neg new, used]
  rfl

/-- What the judging of a door leaves and writes. -/
theorem doorJudged_facts (env : Env) (a : Aud) (e : EntranceId) (o : Bool) (sv : Services) :
    (∀ f, (look (doorJudged env a e o sv).entrances f).sensed
        = if e = f then sensedOf o else (look sv.entrances f).sensed)
    ∧ (∀ f, (look (doorJudged env a e o sv).entrances f).leftOpen = (look sv.entrances f).leftOpen)
    ∧ (∀ f, (look (doorJudged env a e o sv).entrances f).openedWhileSealed
        = ((look sv.entrances f).openedWhileSealed
            || (decide (e = f) && (o && (sv.houses.get a).state == .sealed))))
    ∧ (look (doorJudged env a e o sv).entrances e).holding
        = holdsNow env e (doorJudged env a e o sv)
    ∧ (o = true → (sv.houses.get a).state = .sealed →
        (doorJudged env a e o sv).link.pendingKinds &&& 0x0100 = 0x0100)
    ∧ (doorJudged env a e o sv).houses = sv.houses
    ∧ (doorJudged env a e o sv).slots = sv.slots ∧ (doorJudged env a e o sv).channels = sv.channels
    ∧ (doorJudged env a e o sv).calls = sv.calls := by
  obtain ⟨latch, notice, houses, slots, channels, calls⟩ :=
    latchOpened_latch env a e o (sensedNow e o sv)
  have sensed : ∀ f, look (sensedNow e o sv).entrances f
      = if e = f then { look sv.entrances e with sensed := sensedOf o } else look sv.entrances f :=
    fun f => look_put _ _ _ _
  unfold doorJudged
  generalize latchOpened env a e o (sensedNow e o sv) = t at *
  have on := judgeHolding_onHolds env t e
  have judged := look_judgeHolding env t e
  refine ⟨fun f => ?_, fun f => ?_, fun f => ?_, ?_, fun open_ state => ?_, on.houses.trans houses,
    on.slots.trans slots, on.channels.trans channels, on.calls.trans calls⟩
  · rw [sensed_judgeHolding, latch, sensed, sensed]
    by_cases same : e = f
    · simp [same]
    · simp [same]
  · rw [judged, latch, latch, sensed, sensed]
    by_cases same : e = f
    · simp [same]
    · simp [same]
  · rw [judged, latch, latch, sensed, sensed]
    by_cases same : e = f
    · subst same
      simp [sensedNow, putEntrance]
    · simp [same]
  · rw [holdsNow_congr on.houses (sensed_judgeHolding env t e e), judged, if_pos rfl]
  · rw [on.link]
    exact notice open_ state

/-- R149: the sensor line of an entrance changes its sample alone. -/
theorem look_setSensor (e : EntranceId) (o : Bool) (s : State) (f : EntranceId) :
    ∃ x, look (setSensor e o s).svc.entrances f = { look s.svc.entrances f with sample := x } := by
  have looks : look (setSensor e o s).svc.entrances f
      = if e = f then _ else look s.svc.entrances f := look_put _ _ _ _
  rw [looks]
  split
  next same => subst same; exact ⟨_, rfl⟩
  next => exact ⟨_, rfl⟩

theorem entranceEvent_same {e : EntranceId} {o : Bool} {s : State}
    (h : (look s.svc.entrances e).sensed = sensedOf o) : entranceEvent e o s = s := if_pos h

theorem entranceEvent_new {e : EntranceId} {o : Bool} {s : State}
    (h : (look s.svc.entrances e).sensed ≠ sensedOf o) : entranceEvent e o s
      = { setSensor e o s with svc := sensorEvent s.env e o (setSensor e o s).svc } := if_neg h

/-- The fields of the entrances that a sensor line does not touch. -/
theorem setSensor_keeps (e : EntranceId) (o : Bool) (s : State) (f : EntranceId) :
    (look (setSensor e o s).svc.entrances f).sensed = (look s.svc.entrances f).sensed
      ∧ (look (setSensor e o s).svc.entrances f).leftOpen = (look s.svc.entrances f).leftOpen
      ∧ (look (setSensor e o s).svc.entrances f).openedWhileSealed
        = (look s.svc.entrances f).openedWhileSealed
      ∧ (look (setSensor e o s).svc.entrances f).holding = (look s.svc.entrances f).holding := by
  obtain ⟨x, looks⟩ := look_setSensor e o s f
  rw [looks]
  exact ⟨rfl, rfl, rfl, rfl⟩

/-- What a sensor event writes at an entrance, in use or not. -/
structure Sensed (env : Env) (e : EntranceId) (o : Bool) (sv u : Services) : Prop where
  sensed : ∀ f, (look u.entrances f).sensed = if e = f then sensedOf o else (look sv.entrances f).sensed
  leftOpen : ∀ f, (look u.entrances f).leftOpen = (look sv.entrances f).leftOpen
  latchOther : ∀ f, f ≠ e →
    (look u.entrances f).openedWhileSealed = (look sv.entrances f).openedWhileSealed
  free : (look env.cfg.entrances e).auditorium = none →
    (look u.entrances e).openedWhileSealed = (look sv.entrances e).openedWhileSealed
      ∧ (look u.entrances e).holding = (look sv.entrances e).holding
      ∧ u.zones = sv.zones ∧ u.houses = sv.houses
  used : ∀ a, (look env.cfg.entrances e).auditorium = some a →
    (look u.entrances e).openedWhileSealed = ((look sv.entrances e).openedWhileSealed
        || (o && (sv.houses.get a).state == .sealed))
      ∧ (o = true → (sv.houses.get a).state = .sealed → u.link.pendingKinds &&& 0x0100 = 0x0100)
      ∧ (look u.entrances e).holding = holdsNow env e u
      ∧ ((sv.houses.get a).state = .closing → notClosed env a u = [] →
          (u.houses.get a).state = .sealed ∧ (u.houses.get a).graceLeft = none
          ∧ ∀ w, (sv.houses.get a).record = some w → (u.houses.get a).record
              = some { w with grace := .allClosed, leftOpen := [] })
      ∧ ((sv.houses.get a).state ≠ .closing ∨ notClosed env a u ≠ [] → u.houses = sv.houses)
  rest : u.slots = sv.slots ∧ u.channels = sv.channels ∧ u.calls = sv.calls

theorem sensorEvent_sensed {env : Env} {e : EntranceId} {o : Bool} {sv : Services}
    (new : (look sv.entrances e).sensed ≠ sensedOf o) : Sensed env e o sv (sensorEvent env e o sv) := by
  cases aud : (look env.cfg.entrances e).auditorium with
  | none =>
    rw [sensorEvent_free new aud]
    have looks : ∀ f, look (sensedNow e o sv).entrances f
        = if e = f then { look sv.entrances e with sensed := sensedOf o } else look sv.entrances f :=
      fun f => look_put _ _ _ _
    refine ⟨fun f => ?_, fun f => ?_, fun f other => ?_, fun _ => ⟨?_, ?_, rfl, rfl⟩,
      fun a used => absurd (aud.symm.trans used) (by simp), rfl, rfl, rfl⟩
    · rw [looks]
      split <;> rfl
    · rw [looks]
      split
      next same => subst same; rfl
      next => rfl
    · rw [looks, if_neg (Ne.symm other)]
    · rw [looks, if_pos rfl]
    · rw [looks, if_pos rfl]
  | some a =>
    obtain ⟨sensed, leftOpen, latch, holding, notice, houses, slots, channels, calls⟩ :=
      doorJudged_facts env a e o sv
    rw [sensorEvent_used new aud]
    generalize doorJudged env a e o sv = d at *
    have only : ∀ b, (look env.cfg.entrances e).auditorium = some b → b = a := fun b own =>
      Option.some.inj (own.symm.trans aud)
    split
    next both =>
      obtain ⟨state, none_⟩ := both
      have shut := endClosing_sealed env a .allClosed [] d
      generalize endClosing env a .allClosed [] d = u at *
      refine ⟨fun f => (shut.latches f).2.1.trans (sensed f), fun f =>
        (shut.latches f).1.trans (leftOpen f), fun f other => ?_, fun free => ?_,
        fun b own => ?_, shut.rest.1.trans slots, shut.rest.2.1.trans channels,
        shut.rest.2.2.1.trans calls⟩
      · rw [(shut.latches f).2.2, latch, decide_eq_false (Ne.symm other), Bool.false_and, Bool.or_false]
      · exact absurd (aud.symm.trans free) (by simp)
      · obtain rfl := only b own
        refine ⟨?_, fun open_ was => ?_, shut.holds e own, fun _ _ => ?_, fun no => ?_⟩
        · rw [(shut.latches e).2.2, latch, decide_eq_true rfl, Bool.true_and]
        · rw [shut.rest.2.2.2]
          exact notice open_ was
        · rw [shut.house, houses]
          exact ⟨rfl, rfl, fun w rec => congrArg (Option.map _) rec⟩
        · have same : notClosed env b u = notClosed env b d :=
            notClosed_congr fun f => (shut.latches f).2.1
          rw [same, none_, ← houses, state] at no
          exact absurd no (by simp)
    next not_both =>
      refine ⟨sensed, leftOpen, fun f other => ?_, fun free => ?_, fun b own => ?_, slots, channels,
        calls⟩
      · rw [latch, decide_eq_false (Ne.symm other), Bool.false_and, Bool.or_false]
      · exact absurd (aud.symm.trans free) (by simp)
      · obtain rfl := only b own
        refine ⟨?_, notice, holding, fun state none_ => ?_, fun _ => houses⟩
        · rw [latch, decide_eq_true rfl, Bool.true_and]
        · exact absurd ⟨by rw [houses]; exact state, none_⟩ not_both

/-- Settles O47: a sensor event that changes nothing, and one that does. -/
theorem sensorEventsAct : Obligations.SensorEventsAct := by
  intro e o s h
  refine ⟨fun same => event_eq_of_work h (entranceEvent_same same), fun new => ?_⟩
  refine ⟨_, event_of_work h (entranceEvent_new new), ?_⟩
  have keeps := setSensor_keeps e o s
  obtain ⟨sensed, leftOpen, latchOther, free, used, slots, channels, calls⟩ := sensorEvent_sensed
    (env := s.env) (e := e) (o := o) (sv := (setSensor e o s).svc)
    (by rw [(keeps e).1]; exact new)
  refine ⟨(sensed e).trans (if_pos rfl), (leftOpen e).trans (keeps e).2.1, fun f other => ⟨?_, ?_, ?_⟩,
    fun none_ => ?_, fun a own => ?_, slots, channels, congrArg List.length calls, rfl, rfl, rfl⟩
  · exact (sensed f).trans ((if_neg (Ne.symm other)).trans (keeps f).1)
  · exact (latchOther f other).trans (keeps f).2.2.1
  · exact (leftOpen f).trans (keeps f).2.1
  · obtain ⟨latch, holding, zones, houses⟩ := free none_
    exact ⟨latch.trans (keeps e).2.2.1, holding.trans (keeps e).2.2.2, zones, houses⟩
  · obtain ⟨latch, notice, holding, shut, stays⟩ := used a own
    exact ⟨latch.trans (by rw [(keeps e).2.2.1]; rfl), notice, holding, shut, stays⟩

end Sys2Proof.Proofs.Doors
end

section
/-! PROOFS. Playout (R92, R93, R95): the samples, the end of a block, the starve timer. -/

namespace Sys2Proof.Proofs.Playout

open Sys2Proof Sys2Proof.Machine Sys2Proof.Laws Sys2Proof.Proofs.Cues Sys2Proof.Proofs.Link
  Sys2Proof.Proofs.ClipArm

/-! ## Samples (R92) -/

theorem decodeSample_eq (b : Byte) :
    let step := b.toNat % 16
    let segment := b.toNat / 16 % 8
    let magnitude : Int := (2 * step + 33) * 2 ^ segment - 33
    decodeSample b = if 128 ≤ b.toNat then -magnitude else magnitude := by
  have segment : (b >>> 4).toNat = b.toNat / 16 := by
    rw [BitVec.toNat_ushiftRight, Nat.shiftRight_eq_div_pow]
  simp only [decodeSample, segment, BitVec.msb_eq_decide, decide_eq_true_eq]
  push_cast
  rfl

section sample

variable {sl : Slot}

theorem slotSample_silent
    (h : sl.state ≠ .playing ∨ (if sl.retain then sl.held.drop sl.position else sl.held) = []) :
    slotSample sl = none := by
  rcases h with idle | empty
  · exact if_neg idle
  · rw [slotSample, empty]
    exact ite_self _

theorem slotSample_playing {block : Block} {rest : List Block} (playing : sl.state = .playing)
    (next : (if sl.retain then sl.held.drop sl.position else sl.held) = block :: rest)
    (h : sl.offset < 128) :
    slotSample sl = if sl.offset < sl.fillNow then some (decodeSample block[sl.offset]) else none := by
  rw [slotSample, if_pos playing, next]
  exact dif_pos h

theorem ahead_eq_length (sl : Slot) :
    sl.ahead = (if sl.retain then sl.held.drop sl.position else sl.held).length := by
  unfold Slot.ahead
  split_ifs
  · exact List.length_drop.symm
  · rfl

end sample

/-! ## The end of a block (R92-R95) -/

@[simp] theorem putSlot_reports (env : Env) (i : SlotId) (sl : Slot) (sv : Services) :
    (putSlot env i sl sv).reports = sv.reports := by
  unfold putSlot
  exact (apply_ite Services.reports _ _ _).trans (ite_self _)

theorem putSlot_report_reports (env : Env) (i : SlotId) (sl : Slot) (sv : Services) (r : Report) :
    ((putSlot env i sl sv).report r).reports = sv.reports ++ [r] :=
  congrArg (· ++ [r]) (putSlot_reports env i sl sv)

theorem onPool_report (r : Report) (sv : Services) : OnPool sv (sv.report r) :=
  ⟨rfl, rfl, rfl, ⟨rfl, rfl⟩, rfl, rfl, rfl, rfl, rfl, rfl, fun _ h => h⟩

theorem onPool_free (n : Nat) (sv : Services) : OnPool sv { sv with free := n } :=
  ⟨rfl, rfl, rfl, ⟨rfl, rfl⟩, rfl, rfl, rfl, rfl, rfl, rfl, fun _ h => h⟩

theorem onPool_afterBlock (env : Env) (i : SlotId) (sl : Slot) (sv : Services) :
    OnPool sv (afterBlock env i sl sv) := by
  unfold afterBlock
  split_ifs
  · exact onPool_putSlot ..
  · exact onPool_putSlot ..
  · exact (onPool_putSlot ..).trans (onPool_report ..)
  · exact ((onPool_free ..).trans (onPool_putSlot ..)).trans (onPool_report ..)

section afterBlock

variable (env : Env) (i : SlotId) {sl : Slot} (sv : Services)

theorem afterBlock_ahead (h : 0 < sl.ahead) : afterBlock env i sl sv = putSlot env i sl sv :=
  if_pos h

theorem afterBlock_starves (h : sl.ahead = 0) (more : 0 < sl.toReceive) :
    afterBlock env i sl sv
      = putSlot env i { sl with state := .starved, starve := some starveTime } sv := by
  rw [afterBlock, if_neg (by omega), if_pos more]

theorem afterBlock_pass (h : sl.ahead = 0) (all : sl.toReceive = 0) (retain : sl.retain = true) :
    afterBlock env i sl sv
      = (putSlot env i sl.passEnded sv).report (.passDone i sl.passEnded.passes) := by
  rw [afterBlock, if_neg (by omega), if_neg (by omega), if_pos retain]

theorem afterBlock_done (h : sl.ahead = 0) (all : sl.toReceive = 0) (once : sl.retain = false) :
    afterBlock env i sl sv
      = (putSlot env i Slot.idle { sv with free := sv.free + sl.held.length }).report
          (.streamDone i (sl.owner.getD 0)) := by
  rw [afterBlock, if_neg (by omega), if_neg (by omega), if_neg (by simp [once])]

end afterBlock

section blockPlayed

variable {env : Env} {i : SlotId} {sv : Services}

theorem blockPlayed_none
    (h : (look sv.slots i).state ≠ .playing ∨ (look sv.slots i).ahead = 0) :
    blockPlayed env i sv = sv := by
  unfold blockPlayed
  exact if_neg fun ⟨playing, ahead⟩ => h.elim (· playing) (by omega)

theorem blockPlayed_one (playing : (look sv.slots i).state = .playing)
    (ahead : 0 < (look sv.slots i).ahead) :
    blockPlayed env i sv = afterBlock env i (look sv.slots i).playedOne
      { sv with free := sv.free + if (look sv.slots i).retain then 0 else 1 } := by
  unfold blockPlayed
  exact if_pos ⟨playing, ahead⟩

end blockPlayed

theorem exec_blockPlayed {i : SlotId} {s : State} (h : Still s) :
    exec (.blockPlayed i) s = .next { s with svc := blockPlayed s.env i s.svc }.settled :=
  event_of_work h rfl

/-- Settles O35: a slot played once loses its first block, and then goes on, starves or is done
as `afterBlock` says. -/
theorem blocksPlayOut : Obligations.BlocksPlayOut := by
  unfold Obligations.BlocksPlayOut
  refine ⟨decodeSample_eq, fun sl => ⟨slotSample_silent, ?sample⟩, fun i s h => ⟨?idle, ?once⟩⟩
  case sample =>
    intro block rest k lt playing next here
    subst here
    have sample := slotSample_playing playing next lt
    have ahead : sl.ahead = rest.length + 1 := by rw [ahead_eq_length, next, List.length_cons]
    refine ⟨fun more => ?_, fun fill all last filled => ?_⟩
    · have whole : sl.fillNow = 128 := by
        refine if_neg fun ⟨all, one⟩ => more.elim (· all) fun some_ => some_ ?_
        exact List.length_eq_zero_iff.1 (by omega)
      rw [sample, whole, if_pos lt]
    · have part : sl.fillNow = fill := by
        rw [Slot.fillNow, if_pos ⟨all, by rw [ahead, last, List.length_nil]⟩, filled]
        rfl
      rw [sample, part]
  case idle =>
    exact fun none_ => event_eq_of_work h (by rw [State.serve, blockPlayed_none none_])
  case once =>
    intro first rest playing once held
    have ahead : (look s.svc.slots i).ahead = rest.length + 1 := by
      simp [Slot.ahead, once, held]
    have work : blockPlayed s.env i s.svc = afterBlock s.env i
        { look s.svc.slots i with
          held := rest, position := (look s.svc.slots i).position + 1, offset := 0 }
        { s.svc with free := s.svc.free + 1 } := by
      rw [blockPlayed_one playing (by omega), Slot.playedOne]
      simp only [once, held, Bool.false_eq_true, if_false, List.tail_cons]
    refine ⟨_, exec_blockPlayed h, ?_⟩
    rw [work]
    generalize kept : ({ look s.svc.slots i with
      held := rest, position := (look s.svc.slots i).position + 1, offset := 0 } : Slot) = sl
    have left : sl.ahead = rest.length := by simp [← kept, Slot.ahead, once]
    have empty : rest = [] → sl.ahead = 0 := fun e => by rw [left, e, List.length_nil]
    have on := onPool_afterBlock s.env i sl { s.svc with free := s.svc.free + 1 }
    refine ⟨?free, fun some_ => ?more, fun last more => ?starves, fun last all => ?done, on.zones,
      on.channels, on.calls, on.houses, rfl, rfl, rfl⟩
    case free =>
      unfold afterBlock
      split_ifs with next due retain
      · exact putSlot_free ..
      · exact putSlot_free ..
      · exact putSlot_free ..
      · have none_ : sl.held.length = 0 := by
          rw [Slot.ahead, if_neg retain] at next
          omega
        exact (putSlot_free ..).trans (by rw [none_])
    case more =>
      rw [afterBlock_ahead _ _ _ (left ▸ List.length_pos_iff.2 some_), putSlot_slots]
    case starves =>
      have due : 0 < sl.toReceive := by rw [← kept]; exact more
      rw [afterBlock_starves _ _ _ (empty last) due, putSlot_slots, ← kept, last]
      rfl
    case done =>
      have none_ : sl.toReceive = 0 := by rw [← kept]; exact all
      have free : sl.retain = false := by rw [← kept]; exact once
      rw [afterBlock_done _ _ _ (empty last) none_ free]
      refine ⟨putSlot_slots .., (putSlot_report_reports ..).trans ?_⟩
      rw [h.reports, ← kept]
      rfl

/-! ## The starve timer (R95, R99) -/

theorem abandonSlot_eq {i : SlotId} {sv : Services} (h : (look sv.slots i).state ≠ .idle) :
    abandonSlot i sv = { sv with
      slots := put sv.slots i Slot.idle, free := sv.free + (look sv.slots i).held.length } :=
  if_neg h

/-- R99: a slot the pool abandons by itself, and what it reports. -/
theorem abandonFor_eq (reason : AbandonReason) {i : SlotId} {sv : Services}
    (h : (look sv.slots i).state ≠ .idle) :
    abandonFor reason i sv = { sv with
      slots := put sv.slots i Slot.idle, free := sv.free + (look sv.slots i).held.length
      reports := sv.reports ++ ((look sv.slots i).owner.map (.slotAbandoned i reason)).toList } := by
  unfold abandonFor
  rw [abandonSlot_eq h]
  cases (look sv.slots i).owner with
  | none => simp
  | some tag => rfl

theorem exec_starveTimerExpiry {i : SlotId} {s : State} (h : Still s) :
    exec (.starveTimerExpiry i) s = .next { s with svc := starveExpired i s.svc }.settled :=
  event_of_work h rfl

/-- Settles O36: a retained slot moves its position where a slot played once drops its block; a
starved slot is abandoned as `abandonFor_eq` says. -/
theorem retainedSlotsPassStarvedSlotsGo : Obligations.RetainedSlotsPassStarvedSlotsGo := by
  unfold Obligations.RetainedSlotsPassStarvedSlotsGo
  refine ⟨fun i s h => ?retained, fun i s h => ⟨fun other => ?other, fun starved => ?starved⟩⟩
  case retained =>
    intro sl playing retain inside
    have work : blockPlayed s.env i s.svc
        = afterBlock s.env i { sl with position := sl.position + 1, offset := 0 } s.svc := by
      have ahead : 0 < sl.ahead := by
        rw [Slot.ahead, if_pos retain]
        omega
      rw [blockPlayed_one playing ahead, Slot.playedOne, if_pos retain, if_pos retain]
      rfl
    refine ⟨_, exec_blockPlayed h, ?_⟩
    rw [work]
    generalize kept : ({ sl with position := sl.position + 1, offset := 0 } : Slot) = moved
    have retained : moved.retain = true := by rw [← kept, ← retain]
    have left : moved.ahead = sl.held.length - (sl.position + 1) := by
      rw [Slot.ahead, if_pos retained, ← kept]
    have due : moved.toReceive = sl.toReceive := by rw [← kept]
    have on := onPool_afterBlock s.env i moved s.svc
    refine ⟨?free, fun more => ?more, fun last some_ => ?starves, fun last all => ?pass, on.zones,
      on.channels, on.calls, on.houses, rfl, rfl, rfl⟩
    case free =>
      rw [afterBlock, if_pos retained]
      split_ifs
      · exact putSlot_free ..
      · exact putSlot_free ..
      · exact putSlot_free ..
    case more =>
      rw [afterBlock_ahead _ _ _ (by omega), putSlot_slots]
    case starves =>
      rw [afterBlock_starves _ _ _ (by omega) (due ▸ some_), putSlot_slots, ← kept]
      rfl
    case pass =>
      rw [afterBlock_pass _ _ _ (by omega) (due.trans all) retained]
      refine ⟨(putSlot_slots ..).trans (by rw [← kept]; rfl), (putSlot_report_reports ..).trans ?_⟩
      rw [h.reports, ← kept]
      rfl
  case other =>
    exact event_eq_of_work h (congrArg ({ s with svc := · }) (if_neg other))
  case starved =>
    have busy : (look s.svc.slots i).state ≠ .idle := by simp [starved]
    have work : starveExpired i s.svc = abandonFor .starved i s.svc := if_pos starved
    refine ⟨_, exec_starveTimerExpiry h, ?_⟩
    rw [work, abandonFor_eq _ busy]
    refine ⟨rfl, rfl, fun o owned => ?_, rfl, rfl, rfl, rfl, rfl, rfl⟩
    simp only [owned, h.reports]
    rfl

end Sys2Proof.Proofs.Playout
end

section
/-! PROOFS. The ends of clips: CLIP-STOP, the latest start and the resume limit (R109, R115, R117, R118). -/

namespace Sys2Proof.Proofs.ClipEnds

open Sys2Proof Sys2Proof.Machine Sys2Proof.Laws Sys2Proof.Proofs.Cues Sys2Proof.Proofs.Link
  Sys2Proof.Proofs.Passes Sys2Proof.Proofs.Admission Sys2Proof.Proofs.ClipArm Sys2Proof.Proofs.Playout

theorem answerWith_refuse {tag : Byte} {kind : RequestKind} {f : Env → Services → Answer × Services}
    {s : State} {st : Status} (h : f s.env s.svc = (.refuse st, s.svc)) :
    answerWith tag kind f s = answered tag kind st [] s := by
  rw [answerWith, h]
  rfl

/-! ## The slot of a clip that has ended (R98, R106) -/

theorem loadHeads_free (env : Env) (sv : Services) : (loadHeads env sv).free = sv.free :=
  foldl_keeps Services.free _ (fun sv d => loadHead_free env d sv) _ sv

/-- A slot without blocks that is IDLE, or LOADING for a queued head. -/
def Vacant (i : SlotId) (sv : Services) : Prop :=
  (look sv.slots i).held = []
    ∧ ((look sv.slots i).state = .idle ∨ (look sv.slots i).state = .loading)

theorem loadHead_vacant (env : Env) (d : ChannelId) (i : SlotId) (sv : Services) (h : Vacant i sv) :
    Vacant i (loadHead env d sv) := by
  rcases loadHead_cases env d sv with same | ⟨j, head, loaded⟩
  · rwa [same]
  · have slots : (loadHead env d sv).slots = put sv.slots j (armedSlot head.clipId head.length) := by
      rw [loaded]
      exact putSlot_slots ..
    unfold Vacant
    rw [slots]
    by_cases own : j = i
    · subst own
      rw [look_put_self]
      exact ⟨rfl, .inr rfl⟩
    · rwa [look_put_of_ne _ own]

theorem loadHeads_vacant (env : Env) (i : SlotId) (sv : Services) (h : Vacant i sv) :
    Vacant i (loadHeads env sv) :=
  foldl_inv (Vacant i) _ (fun sv d => loadHead_vacant env d i sv) _ sv h

theorem abandonOwned_eq {i : SlotId} {tag : Nat} {sv : Services}
    (busy : (look sv.slots i).state ≠ .idle) (own : (look sv.slots i).owner = some tag) :
    abandonOwned i tag sv = { sv with
      slots := put sv.slots i Slot.idle, free := sv.free + (look sv.slots i).held.length } :=
  (if_pos own).trans (abandonSlot_eq busy)

/-- R109: the slot of a clip that ends is abandoned; a queued head may then be armed into it. -/
theorem endClip_vacates (env : Env) {d : ChannelId} (outcome : ClipOutcome) {sv : Services}
    {k : ActiveClip} (h : (look sv.channels d).active = some k)
    (busy : (look sv.slots k.slot).state ≠ .idle)
    (own : (look sv.slots k.slot).owner = some k.desc.clipId) :
    Vacant k.slot (endClip env d outcome sv)
      ∧ (endClip env d outcome sv).free = sv.free + (look sv.slots k.slot).held.length := by
  have released := onRouter_releaseAll env (.clip d) sv
  simp only [endClip, h]
  generalize releaseAll env (.clip d) sv = t at released ⊢
  have slots := released.slots
  have free := released.free
  rw [← slots] at busy own ⊢
  rw [abandonOwned_eq busy own, ← free]
  refine ⟨loadHeads_vacant _ _ _ ?_, (loadHeads_free _ _).trans rfl⟩
  have idle : look (put t.slots k.slot Slot.idle) k.slot = Slot.idle := look_put_self _ _ _
  exact ⟨congrArg Slot.held idle, .inl (congrArg Slot.state idle)⟩

/-! ## The state after the end (R109) -/

theorem endClip_clipEnded {d : ChannelId} {outcome : ClipOutcome} {s : State} {k : ActiveClip}
    (h : (look s.svc.channels d).active = some k) :
    ClipEnded d k outcome s { s with svc := endClip s.env d outcome s.svc } := by
  obtain ⟨gone, last, mode, queue, zones, notice, others, calls, houses, -⟩ :=
    endClip_ends s.env d outcome s.svc k h
  exact ⟨gone, last, mode, queue, zones, notice,
    fun busy own => have ⟨vacant, free⟩ := endClip_vacates s.env outcome h busy own
      ⟨vacant.1, vacant.2, free⟩,
    others, calls, houses, rfl, rfl, rfl, rfl⟩

/-- The end of a clip in the work of a request. -/
theorem clipEnded_answered {d : ChannelId} {k : ActiveClip} {outcome : ClipOutcome} {s u : State}
    {tag tag' : Byte} {kind kind' : RequestKind} {st : Status} {bytes : List Byte}
    (h : ClipEnded d k outcome (taken tag kind s) u) :
    ClipEnded d k outcome s (answered tag' kind' st bytes u) :=
  ⟨h.gone, h.last, h.mode, h.queue, h.zones, h.notice, h.slot, h.others, h.rest⟩

/-! ## CLIP-STOP (R118) -/

section stop

variable {env : Env} {d : ChannelId} {sv : Services}

theorem clipStop_other {n : Nat} (h : channelOf n = none) :
    clipStop env n sv = (.refuse .range, sv) := by
  rw [clipStop, h]

theorem clipStop_config (run : env.run = false) : clipStop env d.val sv = (.refuse .state, sv) := by
  simp only [clipStop, channelOf_val, run, Bool.not_false, if_true]

theorem clipStop_unserved (run : env.run = true)
    (out : inService (look env.cfg.channels d) = false) :
    clipStop env d.val sv = (.refuse .range, sv) := by
  simp only [clipStop, channelOf_val, run, out, Bool.not_true, Bool.false_eq_true, if_false,
    Bool.not_false, if_true]

theorem clipStop_absent (run : env.run = true)
    (served : inService (look env.cfg.channels d) = true) (empty : (look sv.channels d).active = none) :
    clipStop env d.val sv = (.refuse .absent, sv) := by
  simp only [clipStop, channelOf_val, run, served, empty, Bool.not_true, Bool.false_eq_true, if_false]

theorem clipStop_active (run : env.run = true)
    (served : inService (look env.cfg.channels d) = true) {k : ActiveClip}
    (active : (look sv.channels d).active = some k) :
    clipStop env d.val sv = (.plain .ok (u8 k.desc.clipId), endClip env d .stopped sv) := by
  simp only [clipStop, channelOf_val, run, served, active, Bool.not_true, Bool.false_eq_true, if_false]

end stop

/-! ## Latest start and resume limit (R115, R117) -/

section timers

variable {env : Env} {d : ChannelId} {sv : Services}

theorem latestPassed_none
    (h : ∀ k, (look sv.channels d).active = some k → k.state.waits = false ∨ k.desc.latestStart = 0) :
    latestPassed env d sv = sv := by
  unfold latestPassed
  cases active : (look sv.channels d).active with
  | none => rfl
  | some k =>
    refine if_neg fun ⟨waits, set⟩ => ?_
    rcases h k active with no | zero
    · simp [waits] at no
    · exact set zero

theorem latestPassed_late {k : ActiveClip} (active : (look sv.channels d).active = some k)
    (waits : k.state.waits = true) (set : k.desc.latestStart ≠ 0) :
    latestPassed env d sv = endClip env d .late sv := by
  unfold latestPassed
  rw [active]
  exact if_pos ⟨waits, set⟩

theorem resumeLimitExpired_none
    (h : ∀ k, (look sv.channels d).active = some k → k.state ≠ .suspended ∨ k.resumeLeft = none) :
    resumeLimitExpired env d sv = sv := by
  unfold resumeLimitExpired
  cases active : (look sv.channels d).active with
  | none => rfl
  | some k =>
    refine if_neg fun ⟨suspended, runs⟩ => ?_
    rcases h k active with other | none_
    · exact other suspended
    · simp [none_] at runs

theorem resumeLimitExpired_ends {k : ActiveClip} (active : (look sv.channels d).active = some k)
    (suspended : k.state = .suspended) (runs : k.resumeLeft.isSome) :
    resumeLimitExpired env d sv = endClip env d .resumeLimit sv := by
  unfold resumeLimitExpired
  rw [active]
  exact if_pos ⟨suspended, runs⟩

end timers

theorem clockCanPass_eq {s : State} {d : ChannelId} {a : Aud} {k : ActiveClip}
    (own : (look s.control.cfg.channels d).auditorium = some a)
    (active : (look s.svc.channels d).active = some k) :
    clockCanPass s d = ((s.cue.get a).running || decide (k.desc.latestStart < (s.cue.get a).clock)) := by
  rw [clockCanPass, own, active]

theorem exec_latestStartPassed {d : ChannelId} {s u : State} (h : Still s)
    (hu : (if clockCanPass s d then { s with svc := latestPassed s.env d s.svc } else s) = u) :
    exec (.latestStartPassed d) s = .next u.settled :=
  event_of_work h hu

/-- Settles O41: whatever ends the clip, it ends as `endClip_clipEnded` says. -/
theorem clipsEnd : Obligations.ClipsEnd := by
  unfold Obligations.ClipsEnd
  refine ⟨fun tag n s h => ⟨fun far => ?far, ?stop⟩, fun d s h => ⟨fun never => ?never, ?late,
    fun other => ?other, fun k active suspended runs => ?limit⟩⟩
  case far =>
    have none_ : channelOf n = none := dif_neg (by omega)
    exact request_eq_of_work h (answerWith_refuse (clipStop_other none_))
  case stop =>
    rintro d rfl
    refine ⟨fun off => request_eq_of_work h (answerWith_refuse (clipStop_config off)),
      fun run out => request_eq_of_work h (answerWith_refuse (clipStop_unserved run out)),
      fun run served => ⟨fun empty => ?_, fun k active => ?_⟩⟩
    · exact request_eq_of_work h
        (answerWith_refuse (s := taken tag .clipStop s) (clipStop_absent run served empty))
    · exact ⟨_, request_of_work h (answerWith_of (s := taken tag .clipStop s)
          (clipStop_active run served active)),
        clipEnded_answered (endClip_clipEnded (s := taken tag .clipStop s) active), reply_mem ..⟩
  case never =>
    refine event_eq_of_work h ?_
    rw [State.serve, latestPassed_none never]
    exact ite_self _
  case late =>
    intro a k own active waits set
    refine ⟨fun held short => event_eq_of_work h (if_neg ?_), fun passes => ?_⟩
    · simp [clockCanPass_eq own active, held, short]
    · have can : clockCanPass s d = true := by simpa [clockCanPass_eq own active] using passes
      exact ⟨_, exec_latestStartPassed h ((if_pos can).trans
        (congrArg ({ s with svc := · }) (latestPassed_late active waits set))),
        endClip_clipEnded active⟩
  case other =>
    refine event_eq_of_work h ?_
    rw [State.serve, resumeLimitExpired_none other]
  case limit =>
    exact ⟨_, event_of_work h (congrArg ({ s with svc := · })
      (resumeLimitExpired_ends active suspended runs)), endClip_clipEnded active⟩

end Sys2Proof.Proofs.ClipEnds
end

section
/-! PROOFS. CHANNEL-MODE (R119, R120). -/

namespace Sys2Proof.Proofs.Standing

open Sys2Proof Sys2Proof.Machine Sys2Proof.Laws Sys2Proof.Proofs.Cues Sys2Proof.Proofs.Link
  Sys2Proof.Proofs.Passes Sys2Proof.Proofs.Admission Sys2Proof.Proofs.ClipArm Sys2Proof.Proofs.Playout
  Sys2Proof.Proofs.ClipEnds

theorem answerWith_plain {tag : Byte} {kind : RequestKind} {f : Env → Services → Answer × Services}
    {s : State} {st : Status} {bytes : List Byte} (h : f s.env s.svc = (.plain st bytes, s.svc)) :
    answerWith tag kind f s = answered tag kind st bytes s := by
  rw [answerWith, h]
  rfl

/-! ## SCRIPTED (R119) -/

theorem putChannel_same {d : ChannelId} {ch : Channel} {sv : Services} (h : ch = look sv.channels d) :
    putChannel d ch sv = sv := by
  rw [putChannel, h, put_look]

section scripted

variable {env : Env} {d : ChannelId} {sv : Services}

theorem modeScripted_other {n : Nat} (h : channelOf n = none) :
    modeScripted env n sv = (.refuse .range, sv) := by
  rw [modeScripted, h]

theorem modeScripted_config (run : env.run = false) :
    modeScripted env d.val sv = (.refuse .state, sv) := by
  simp only [modeScripted, channelOf_val, run, Bool.not_false, if_true]

theorem modeScripted_unserved (run : env.run = true)
    (out : inService (look env.cfg.channels d) = false) :
    modeScripted env d.val sv = (.refuse .range, sv) := by
  simp only [modeScripted, channelOf_val, run, out, Bool.not_true, Bool.false_eq_true, if_false,
    Bool.not_false, if_true]

theorem modeScripted_already (run : env.run = true)
    (served : inService (look env.cfg.channels d) = true)
    (mode : (look sv.channels d).mode = .scripted) :
    modeScripted env d.val sv = (.plain .ok [], sv) := by
  simp only [modeScripted, channelOf_val, run, served, mode, Bool.not_true, Bool.false_eq_true,
    if_false, if_true]

/-- R119, R120: the end of the standing clip has returned the channel to SCRIPTED. -/
theorem modeScripted_ends (run : env.run = true)
    (served : inService (look env.cfg.channels d) = true)
    (mode : (look sv.channels d).mode = .standing) {k : ActiveClip}
    (active : (look sv.channels d).active = some k) (standing : k.standing = true) :
    modeScripted env d.val sv = (.plain .ok [], endClip env d .stopped sv) := by
  obtain ⟨-, -, scripted, -⟩ := endClip_ends env d .stopped sv k active
  rw [if_pos standing] at scripted
  simp only [modeScripted, channelOf_val, run, served, mode, Bool.not_true, Bool.false_eq_true,
    if_false, reduceCtorEq]
  rw [putChannel_same (by rw [← scripted])]

end scripted

/-! ## STANDING (R119) -/

theorem armSlot_retained {env : Env} {i : SlotId} {tag length : Nat} {sv : Services}
    (run : env.run = true) (idle : (look sv.slots i).state = .idle) (known : 1 ≤ tag ∧ tag ≤ 255)
    (long : 1 ≤ length ∧ length ≤ 1024) :
    armSlot env i tag length true sv =
      if sv.free < reserve sv.slots + min 32 length then (.pool, sv)
      else (.ok, putSlot env i { armedSlot tag length with retain := true } sv) := by
  have legal : between 1 3750 length = true := between_iff.2 (by omega)
  have held : ¬ slotLimit < length := Nat.not_lt.2 long.2
  simp only [armSlot, run, idle, between_iff.2 known, legal, held, Bool.not_true, Bool.and_true,
    decide_false, Bool.and_false, Bool.false_eq_true, ne_eq, not_true, if_false]
  rfl

theorem idle_of_standingSlot {sv : Services} {d : ChannelId} {i : SlotId}
    (h : standingSlot sv d = some i) : (look sv.slots i).state = .idle := by
  simp only [standingSlot] at h
  split_ifs at h with low high
  · cases h
    exact low.1
  · cases h
    exact high.1

/-- R119: a channel on which a standing clip can begin. -/
def FreeForStanding (a : Aud) (d : ChannelId) (sv : Services) : Prop :=
  (sv.houses.get a).state = .opened ∧ (look sv.channels d).mode = .scripted
    ∧ (look sv.channels d).active = none

/-- R119: the standing clip that begins. -/
def standingClip (id len : Nat) (i : SlotId) : ActiveClip :=
  { desc := { clipId := id, length := len, condition := .atCue, latestStart := 0 }
    slot := i, state := .waitingFill, filled := false, standing := true
    finishing := false, resumeLeft := none }

section standing

variable {env : Env} {d : ChannelId} {id len : Nat} {sv : Services}

theorem standingRefusal_range (h : id = 0 ∨ 255 < id ∨ len = 0 ∨ 1024 < len) :
    standingRefusal env d id len sv = some .range := by
  have bad : (between 1 255 id && between 1 1024 len) = false := by
    rw [← Bool.not_eq_true, Bool.and_eq_true, between_iff, between_iff]
    omega
  simp only [standingRefusal, bad, Bool.not_false, if_true]

variable (known : 1 ≤ id ∧ id ≤ 255) (long : 1 ≤ len ∧ len ≤ 1024)

section checks

include known long

theorem standingRefusal_config (run : env.run = false) :
    standingRefusal env d id len sv = some .state := by
  simp only [standingRefusal, between_iff.2 known, between_iff.2 long, run, Bool.and_true,
    Bool.not_true, Bool.not_false, Bool.false_eq_true, if_false, if_true]

variable (run : env.run = true)
include run

theorem standingRefusal_unserved (out : inService (look env.cfg.channels d) = false) :
    standingRefusal env d id len sv = some .range := by
  simp only [standingRefusal, between_iff.2 known, between_iff.2 long, run, out, Bool.and_true,
    Bool.not_true, Bool.not_false, Bool.false_eq_true, if_false, if_true]

variable (served : inService (look env.cfg.channels d) = true) {a : Aud}
  (own : (look env.cfg.channels d).auditorium = some a)
include served own

theorem standingRefusal_busy (h : ¬ FreeForStanding a d sv) :
    standingRefusal env d id len sv = some .state := by
  have busy : (!((sv.houses.get a).state == .opened) || (look sv.channels d).mode == .standing
      || (look sv.channels d).active.isSome) = true := by
    rw [Bool.or_eq_true, Bool.or_eq_true, Bool.not_eq_true', beq_iff_eq, beq_eq_false_iff_ne]
    by_contra idle
    obtain ⟨opened_mode, empty⟩ := not_or.1 idle
    obtain ⟨opened, mode⟩ := not_or.1 opened_mode
    have scripted : (look sv.channels d).mode = .scripted := by
      cases is : (look sv.channels d).mode with
      | scripted => rfl
      | standing => exact absurd is mode
    exact h ⟨not_not.1 opened, scripted, Option.not_isSome_iff_eq_none.1 empty⟩
  simp only [standingRefusal, between_iff.2 known, between_iff.2 long, run, served, own, busy,
    Bool.and_true, Bool.not_true, Bool.false_eq_true, if_false, if_true]

theorem standingRefusal_free (free : FreeForStanding a d sv) :
    standingRefusal env d id len sv =
      if ∃ q ∈ (look sv.channels d).queue, q.clipId = id then some .conflict else none := by
  obtain ⟨opened, mode, active⟩ := free
  simp only [standingRefusal, between_iff.2 known, between_iff.2 long, run, served, own, opened,
    mode, active, Bool.and_true, Bool.not_true, Bool.false_eq_true, if_false, List.any_eq_true,
    beq_self_eq_true, beq_iff_eq, Option.isSome_none, Bool.or_false, Bool.false_or, reduceCtorEq]

end checks

theorem modeStanding_other {n : Nat} (h : channelOf n = none) :
    modeStanding env n id len sv = (.refuse .range, sv) := by
  rw [modeStanding, h]

theorem modeStanding_refused {st : Status} (h : standingRefusal env d id len sv = some st) :
    modeStanding env d.val id len sv = (.refuse st, sv) := by
  simp only [modeStanding, channelOf_val, h]

variable (legal : standingRefusal env d id len sv = none)
include legal

theorem modeStanding_noSlot (h : standingSlot sv d = none) :
    modeStanding env d.val id len sv = (.refuse .state, sv) := by
  simp only [modeStanding, channelOf_val, legal, h]

include known long

variable (run : env.run = true) {i : SlotId} (slot : standingSlot sv d = some i)
include run slot

theorem modeStanding_scarce (h : sv.free < reserve sv.slots + min 32 len) :
    modeStanding env d.val id len sv = (.refuse .pool, sv) := by
  have armed := armSlot_retained run (idle_of_standingSlot slot) known long
  rw [if_pos h] at armed
  simp only [modeStanding, channelOf_val, legal, slot, armed]

theorem modeStanding_armed (h : reserve sv.slots + min 32 len ≤ sv.free) :
    modeStanding env d.val id len sv = (.plain .ok (u8 i.val),
      putChannel d { look sv.channels d with
        mode := .standing, active := some (standingClip id len i) }
        (putSlot env i { armedSlot id len with retain := true } sv)) := by
  have armed := armSlot_retained run (idle_of_standingSlot slot) known long
  rw [if_neg (Nat.not_lt.2 h)] at armed
  have channels := (onPool_putSlot env i { armedSlot id len with retain := true } sv).channels
  simp only [modeStanding, channelOf_val, legal, slot, armed, channels]
  rfl

end standing

/-! ## The two requests -/

section requests

variable {tag : Byte} {n id len : Nat} {s : State} (h : Ready s)
include h

theorem exec_standing_refused {st : Status}
    (hr : modeStanding (taken tag .channelMode s).env n id len (taken tag .channelMode s).svc
      = (.refuse st, (taken tag .channelMode s).svc)) :
    exec (.channelModeStanding tag n id len) s
      = .next (answered tag .channelMode st [] (taken tag .channelMode s)) :=
  request_eq_of_work h (answerWith_refuse hr)

theorem exec_scripted_refused {st : Status}
    (hr : modeScripted (taken tag .channelMode s).env n (taken tag .channelMode s).svc
      = (.refuse st, (taken tag .channelMode s).svc)) :
    exec (.channelModeScripted tag n) s
      = .next (answered tag .channelMode st [] (taken tag .channelMode s)) :=
  request_eq_of_work h (answerWith_refuse hr)

end requests

/-- Settles O42: the checks of both modes in their order; leaving STANDING ends the standing clip as
`endClip_clipEnded` says, entering it arms a retained slot. -/
theorem channelModes : Obligations.ChannelModes := by
  unfold Obligations.ChannelModes
  intro tag n id len s h
  refine ⟨fun far => ?far, fun bad => ?range, ?_⟩
  case far =>
    have none_ : channelOf n = none := dif_neg (by omega)
    exact ⟨exec_scripted_refused h (modeScripted_other none_),
      exec_standing_refused h (modeStanding_other none_)⟩
  case range =>
    refine exec_standing_refused h ?_
    rcases channelOf_cases n with other | ⟨d, rfl⟩
    · exact modeStanding_other other
    · exact modeStanding_refused (standingRefusal_range bad)
  rintro d rfl
  refine ⟨fun off => ⟨?offScripted, fun i1 i2 l1 l2 => ?offStanding⟩,
    fun run out => ⟨?outScripted, fun i1 i2 l1 l2 => ?outStanding⟩,
    fun run served => ⟨fun mode => ?already, fun k mode active standing => ?ends,
      fun a own i1 i2 l1 l2 => ?standing⟩⟩
  case offScripted => exact exec_scripted_refused h (modeScripted_config off)
  case offStanding =>
    exact exec_standing_refused h
      (modeStanding_refused (standingRefusal_config ⟨i1, i2⟩ ⟨l1, l2⟩ off))
  case outScripted => exact exec_scripted_refused h (modeScripted_unserved run out)
  case outStanding =>
    exact exec_standing_refused h
      (modeStanding_refused (standingRefusal_unserved ⟨i1, i2⟩ ⟨l1, l2⟩ run out))
  case already =>
    exact request_eq_of_work h
      (answerWith_plain (s := taken tag .channelMode s) (modeScripted_already run served mode))
  case ends =>
    exact ⟨_, request_of_work h (answerWith_of (s := taken tag .channelMode s)
        (modeScripted_ends run served mode active standing)),
      clipEnded_answered (endClip_clipEnded (s := taken tag .channelMode s) active), reply_mem ..⟩
  case standing =>
    have known := And.intro i1 i2
    have long := And.intro l1 l2
    have checks := fun free => standingRefusal_free (env := (taken tag .channelMode s).env)
      (sv := (taken tag .channelMode s).svc) known long run served own free
    intro free
    refine ⟨fun busy => exec_standing_refused h
      (modeStanding_refused (standingRefusal_busy known long run served own busy)),
      fun isFree queued => exec_standing_refused h
        (modeStanding_refused ((checks isFree).trans (if_pos queued))),
      fun isFree new none_ => ?_, fun i isFree new slot => ?_⟩
    all_goals
      have legal := (checks isFree).trans (if_neg (fun ⟨q, queued, same⟩ => new q queued same))
    · exact exec_standing_refused h (modeStanding_noSlot legal none_)
    · refine ⟨fun scarce => exec_standing_refused h
        (modeStanding_scarce known long legal run slot scarce), fun room => ?_⟩
      have on := onPool_putSlot (taken tag .channelMode s).env i
        { armedSlot id len with retain := true } (taken tag .channelMode s).svc
      refine ⟨_, request_of_work h (answerWith_of (s := taken tag .channelMode s)
        (modeStanding_armed known long legal run slot room)), ?_⟩
      exact ⟨putSlot_slots .., congrArg (put · d _) on.channels, reply_mem .., on.zones, on.calls,
        putSlot_free .., rfl, rfl, rfl⟩

end Sys2Proof.Proofs.Standing
end

section
/-! PROOFS. HOUSE-CLOSE (R152) and the standing clips it finishes (R120). -/

namespace Sys2Proof.Proofs.Closing

open Sys2Proof Sys2Proof.Machine Sys2Proof.Laws Sys2Proof.Proofs.Cues Sys2Proof.Proofs.Link
  Sys2Proof.Proofs.Passes Sys2Proof.Proofs.Polling Sys2Proof.Proofs.Visits Sys2Proof.Proofs.VisitSteps Sys2Proof.Proofs.Houses Sys2Proof.Proofs.Windows
  Sys2Proof.Proofs.Admission Sys2Proof.Proofs.ClipArm Sys2Proof.Proofs.Playout

/-! ## What the engine's turn at a channel leaves -/

/-- The clip of a channel, its mode and its last outcome are as they were. -/
structure SameClip (d : ChannelId) (sv u : Services) : Prop where
  active : (look u.channels d).active = (look sv.channels d).active
  mode : (look u.channels d).mode = (look sv.channels d).mode
  last : (look u.channels d).lastOutcome = (look sv.channels d).lastOutcome

theorem sameClip_of_onHeads {sv u : Services} (h : OnHeads sv u) (d : ChannelId) : SameClip d sv u :=
  ⟨h.active d, h.mode d, h.lastOutcome d⟩

theorem sameClip_of_channels {sv u : Services} (h : u.channels = sv.channels) (d : ChannelId) :
    SameClip d sv u := by
  constructor <;> rw [h]

theorem SameClip.trans {d : ChannelId} {a b c : Services} (h : SameClip d a b) (k : SameClip d b c) :
    SameClip d a c :=
  ⟨k.active.trans h.active, k.mode.trans h.mode, k.last.trans h.last⟩

theorem sameClip_putChannel {d e : ChannelId} (ne : e ≠ d) (ch : Channel) (sv : Services) :
    SameClip e sv (putChannel d ch sv) := by
  constructor <;> simp only [putChannel, look_put_of_ne _ ne.symm]

/-- What the engine does at a channel concerns neither the houses, the entrances and the calls nor
the clips of the other channels. -/
structure AtChannel (d : ChannelId) (sv u : Services) : Prop where
  houses : u.houses = sv.houses
  entrances : u.entrances = sv.entrances
  calls : u.calls = sv.calls
  others : ∀ e, e ≠ d → SameClip e sv u

theorem AtChannel.refl (d : ChannelId) (sv : Services) : AtChannel d sv sv :=
  ⟨rfl, rfl, rfl, fun _ _ => ⟨rfl, rfl, rfl⟩⟩

theorem AtChannel.trans {d : ChannelId} {a b c : Services} (h : AtChannel d a b)
    (k : AtChannel d b c) : AtChannel d a c :=
  ⟨k.houses.trans h.houses, k.entrances.trans h.entrances, k.calls.trans h.calls,
    fun e ne => (h.others e ne).trans (k.others e ne)⟩

theorem atChannel_of_onHeads {sv u : Services} (h : OnHeads sv u) (d : ChannelId) : AtChannel d sv u :=
  ⟨h.houses, h.entrances, h.calls, fun e _ => sameClip_of_onHeads h e⟩

theorem atChannel_of_onPool {sv u : Services} (h : OnPool sv u) (d : ChannelId) : AtChannel d sv u :=
  ⟨h.houses, h.entrances, h.calls, fun e _ => sameClip_of_channels h.channels e⟩

theorem atChannel_of_onRouter {sv u : Services} (h : OnRouter sv u) (d : ChannelId) : AtChannel d sv u :=
  ⟨h.houses, h.entrances, h.calls, fun e _ => sameClip_of_channels h.channels e⟩

theorem putChannel_atChannel (d : ChannelId) (ch : Channel) (sv : Services) :
    AtChannel d sv (putChannel d ch sv) :=
  ⟨rfl, rfl, rfl, fun _ ne => sameClip_putChannel ne ch sv⟩

theorem endClip_atChannel (env : Env) (d : ChannelId) (outcome : ClipOutcome) (sv : Services) :
    AtChannel d sv (endClip env d outcome sv) := by
  unfold endClip
  cases (look sv.channels d).active with
  | none => exact AtChannel.refl d sv
  | some k =>
    dsimp only
    have released := atChannel_of_onRouter (onRouter_releaseAll env (.clip d) sv) d
    have abandoned := atChannel_of_onPool
      (onPool_abandonOwned k.slot k.desc.clipId (releaseAll env (.clip d) sv)) d
    refine (released.trans abandoned).trans
      (AtChannel.trans ?_ (atChannel_of_onHeads (onHeads_loadHeads env _) d))
    exact AtChannel.trans (putChannel_atChannel d _ _) (atChannel_of_onPool (onPool_raise env .clip _) d)

theorem onPool_setLoop (env : Env) (i : SlotId) (loop : Bool) (sv : Services) :
    OnPool sv (setLoop env i loop sv).2 := by
  unfold setLoop
  dsimp only
  split_ifs
  · exact OnPool.refl _
  · exact OnPool.refl _
  · exact onPool_putSlot ..

/-! ## The standing clip at the closing of its house (R120) -/

section standingHouseClosed

variable {env : Env} {d : ChannelId} {sv : Services}

theorem standingHouseClosed_none (h : (look sv.channels d).active = none) :
    standingHouseClosed env d sv = sv := by
  rw [standingHouseClosed, h]

theorem standingHouseClosed_scripted {k : ActiveClip} (h : (look sv.channels d).active = some k)
    (scripted : k.standing = false) : standingHouseClosed env d sv = sv := by
  simp only [standingHouseClosed, h, scripted, Bool.not_false, if_true]

theorem standingHouseClosed_speaking {k : ActiveClip} (h : (look sv.channels d).active = some k)
    (standing : k.standing = true) (speaking : k.state = .speaking) :
    standingHouseClosed env d sv
      = setActive d { k with finishing := true } (setLoop env k.slot false sv).2 := by
  simp only [standingHouseClosed, h, standing, speaking, Bool.not_true, Bool.false_eq_true, if_false,
    if_true]

theorem standingHouseClosed_silent {k : ActiveClip} (h : (look sv.channels d).active = some k)
    (standing : k.standing = true) (silent : k.state ≠ .speaking) :
    standingHouseClosed env d sv = endClip env d .stopped sv := by
  simp only [standingHouseClosed, h, standing, silent, Bool.not_true, Bool.false_eq_true, if_false]

end standingHouseClosed

theorem standingHouseClosed_atChannel (env : Env) (d : ChannelId) (sv : Services) :
    AtChannel d sv (standingHouseClosed env d sv) := by
  cases active : (look sv.channels d).active with
  | none =>
    rw [standingHouseClosed_none active]
    exact AtChannel.refl d sv
  | some k =>
    cases standing : k.standing with
    | false =>
      rw [standingHouseClosed_scripted active standing]
      exact AtChannel.refl d sv
    | true =>
      by_cases speaking : k.state = .speaking
      · rw [standingHouseClosed_speaking active standing speaking]
        exact (atChannel_of_onPool (onPool_setLoop env k.slot false sv) d).trans
          (putChannel_atChannel d _ _)
      · rw [standingHouseClosed_silent active standing speaking]
        exact endClip_atChannel env d .stopped sv

/-- R120: what the closing of the house has made of a standing clip `k`. -/
structure Finished (d : ChannelId) (k : ActiveClip) (u : Services) : Prop where
  speaking : k.state = .speaking → (look u.channels d).active = some { k with finishing := true }
  silent : k.state ≠ .speaking → (look u.channels d).active = none
    ∧ (look u.channels d).mode = .scripted
    ∧ ∃ o, (look u.channels d).lastOutcome = some o ∧ o.clipId = k.desc.clipId ∧ o.outcome = .stopped

theorem Finished.of_sameClip {d : ChannelId} {k : ActiveClip} {sv u : Services}
    (h : Finished d k sv) (same : SameClip d sv u) : Finished d k u := by
  refine ⟨fun speaking => same.active.trans (h.speaking speaking), fun silent => ?_⟩
  rw [same.active, same.mode, same.last]
  exact h.silent silent

theorem active_setActive (d : ChannelId) (k : ActiveClip) (sv : Services) :
    (look (setActive d k sv).channels d).active = some k :=
  congrArg Channel.active (look_put_self _ _ _)

theorem standingHouseClosed_finishes (env : Env) {d : ChannelId} {k : ActiveClip} {sv : Services}
    (active : (look sv.channels d).active = some k) (standing : k.standing = true) :
    Finished d k (standingHouseClosed env d sv) := by
  refine ⟨fun speaking => ?_, fun silent => ?_⟩
  · rw [standingHouseClosed_speaking active standing speaking]
    exact active_setActive ..
  · rw [standingHouseClosed_silent active standing silent]
    obtain ⟨gone, last, mode, -⟩ := endClip_ends env d .stopped sv k active
    rw [if_pos standing] at mode
    exact ⟨gone, mode, _, last, rfl, rfl⟩

/-- A second report of the closing finds the clip finishing or gone. -/
theorem standingHouseClosed_finished (env : Env) {d : ChannelId} {k : ActiveClip} {sv : Services}
    (standing : k.standing = true) (h : Finished d k sv) :
    Finished d k (standingHouseClosed env d sv) := by
  by_cases speaking : k.state = .speaking
  · refine ⟨fun _ => ?_, fun silent => absurd speaking silent⟩
    rw [standingHouseClosed_speaking (h.speaking speaking) standing speaking]
    exact active_setActive ..
  · rw [standingHouseClosed_none (h.silent speaking).1]
    exact h

/-! ## The engine's report (R152) -/

/-- The engine's turn at a channel, when the house `a` closes. -/
def closedTurn (env : Env) (a : Aud) (sv : Services) (d : ChannelId) : Services :=
  if (look env.cfg.channels d).auditorium = some a then standingHouseClosed env d sv else sv

theorem closedTurn_atChannel (env : Env) (a : Aud) (sv : Services) (d : ChannelId) :
    AtChannel d sv (closedTurn env a sv d) := by
  unfold closedTurn
  split
  · exact standingHouseClosed_atChannel env d sv
  · exact AtChannel.refl d sv

theorem engineHouseClosed_keeps (env : Env) (a : Aud) (sv : Services) :
    (engineHouseClosed env a sv).houses = sv.houses
      ∧ (engineHouseClosed env a sv).entrances = sv.entrances
      ∧ (engineHouseClosed env a sv).calls = sv.calls :=
  ⟨foldl_keeps Services.houses _ (fun t d => (closedTurn_atChannel env a t d).houses) _ sv,
    foldl_keeps Services.entrances _ (fun t d => (closedTurn_atChannel env a t d).entrances) _ sv,
    foldl_keeps Services.calls _ (fun t d => (closedTurn_atChannel env a t d).calls) _ sv⟩

/-- R120: each standing clip of the house finishes, at the turn of its channel. -/
theorem engineHouseClosed_finishes (env : Env) {a : Aud} {d : ChannelId} {k : ActiveClip}
    {sv : Services} (own : (look env.cfg.channels d).auditorium = some a)
    (active : (look sv.channels d).active = some k) (standing : k.standing = true) :
    Finished d k (engineHouseClosed env a sv) := by
  have hits : ∀ t : Services, (look t.channels d).active = some k ∨ Finished d k t →
      Finished d k (closedTurn env a t d) := by
    intro t h
    rw [closedTurn, if_pos own]
    rcases h with waits | done
    · exact standingHouseClosed_finishes env waits standing
    · exact standingHouseClosed_finished env standing done
  have keeps : ∀ (t : Services) (e : ChannelId), Finished d k t →
      Finished d k (closedTurn env a t e) := by
    intro t e h
    by_cases same : d = e
    · subst same
      exact hits t (.inr h)
    · exact h.of_sameClip ((closedTurn_atChannel env a t e).others d same)
  refine foldl_reaches (f := closedTurn env a) (x := d)
    (inv := fun t => (look t.channels d).active = some k ∨ Finished d k t)
    (fun t e h => ?_) hits (fun t e _ h => keeps t e h) _ sv (List.mem_finRange d) (.inl active)
  rcases h with waits | done
  · by_cases same : d = e
    · subst same
      exact .inr (hits t (.inl waits))
    · exact .inl (((closedTurn_atChannel env a t e).others d same).active.trans waits)
  · exact .inr (keeps t e done)

/-! ## HOUSE-CLOSE (R152) -/

/-- R152: the services once the house is sealed, the engine told and the holdings judged. -/
def closedServices (env : Env) (a : Aud) (sv : Services) : Services :=
  judgeHoldings env a (engineHouseClosed env a (sealHouse env a sv))

theorem sealHouse_env {env env' : Env} (h : env.cfg = env'.cfg) (a : Aud) (sv : Services) :
    sealHouse env a sv = sealHouse env' a sv := by
  unfold sealHouse setLamps entrancesOf
  rw [h]

theorem closeHouse_svc (a : Aud) (flag : Bool) (s : State) :
    ∃ env : Env, env.cfg = s.control.cfg ∧ (closeHouse a flag s).svc = closedServices env a s.svc := by
  unfold closeHouse
  dsimp only [State.serve]
  generalize told : ((State.updCue _ a _).updQuiet a _) = t
  have cfg : t.env.cfg = s.control.cfg := by
    rw [← told]
    rfl
  have svc : t.svc = sealHouse s.env a s.svc := by
    rw [← told]
    rfl
  refine ⟨t.env, cfg, ?_⟩
  rw [svc, sealHouse_env (env' := t.env) cfg.symm]
  rfl

/-- R151, R152, R159: the house as its closing leaves it. -/
structure HouseSealed (env : Env) (a : Aud) (sv u : Services) : Prop where
  houses : u.houses = sv.houses.set a { sv.houses.get a with state := .sealed }
  own : ∀ e, (look env.cfg.entrances e).auditorium = some a →
    (look u.entrances e).lamp = .red ∧ (look u.entrances e).holding = holdsNow env e u
      ∧ (look u.entrances e).sensed = (look sv.entrances e).sensed
  other : ∀ e, (look env.cfg.entrances e).auditorium ≠ some a →
    look u.entrances e = look sv.entrances e
  clips : ∀ d k, (look env.cfg.channels d).auditorium = some a →
    (look sv.channels d).active = some k → k.standing = true → Finished d k u
  calls : u.calls = sv.calls

theorem closedServices_sealed (env : Env) (a : Aud) (sv : Services) :
    HouseSealed env a sv (closedServices env a sv) := by
  unfold closedServices
  have lamps := setLamps_onHolds env a (updHouse a (fun h => { h with state := .sealed }) sv)
  have lit := look_setLamps env a (updHouse a (fun h => { h with state := .sealed }) sv)
  have finishes := fun d k => engineHouseClosed_finishes (a := a) (d := d) (k := k)
    (sv := sealHouse env a sv) env
  obtain ⟨houses, entrances, calls⟩ := engineHouseClosed_keeps env a (sealHouse env a sv)
  generalize engineHouseClosed env a (sealHouse env a sv) = t at finishes houses entrances calls ⊢
  have judged := judgeHoldings_onHolds env a t
  have shown := look_judgeHoldings env a t
  have sealed_ : (sealHouse env a sv).entrances
    = (setLamps env a (updHouse a (fun h => { h with state := .sealed }) sv)).entrances := rfl
  rw [entrances, sealed_] at shown
  refine ⟨(judged.houses.trans houses).trans lamps.houses, fun e own => ?_, fun e other => ?_,
    fun d k own active standing => ?_, (judged.calls.trans calls).trans lamps.calls⟩
  · refine ⟨?_, holding_judgeHoldings env t own, ?_⟩
    · rw [shown, if_pos own, lit, if_pos own, updHouse_self]
      rfl
    · rw [shown, if_pos own, lit, if_pos own]
      rfl
  · rw [shown, if_neg other, lit, if_neg other]
    rfl
  · have before : (look (sealHouse env a sv).channels d).active = some k := by
      rw [← active]
      exact congrArg (fun chs => (look chs d).active) lamps.channels
    exact (finishes d k own before standing).of_sameClip (sameClip_of_channels judged.channels d)

theorem holdsNow_env {env env' : Env} (h : env.cfg = env'.cfg) (e : EntranceId) (sv : Services) :
    holdsNow env e sv = holdsNow env' e sv := by
  unfold holdsNow
  rw [h]

theorem workHouseClose_range (tag : Byte) {n : Nat} (flag : Option Bool) (s : State)
    (h : audOf n = none ∨ flag = none) :
    workHouseClose tag n flag s = answered tag .houseClose .range [] s := by
  unfold workHouseClose
  rcases h with other | none_
  · rw [other]
    rfl
  · rw [none_]
    cases audOf n <;> rfl

theorem workHouseClose_eq (tag : Byte) (a : Aud) (flag : Bool) (s : State) :
    workHouseClose tag (audNumber a) (some flag) s =
      if !s.control.running ∨ (s.svc.houses.get a).state ≠ .opened then
        answered tag .houseClose .state [] s
      else answered tag .houseClose .ok [] (closeHouse a flag s) := by
  unfold workHouseClose
  rw [audOf_audNumber]
  rfl

/-- Settles O48: the house is sealed as `setLamps` and `judgeHoldings` say, and its standing clips
finish at the engine's turns. -/
theorem houseCloseSeals : Obligations.HouseCloseSeals := by
  unfold Obligations.HouseCloseSeals
  intro tag n flag s h
  refine ⟨fun one two => request_eq_of_work h
      (workHouseClose_range tag _ _ (.inl (audOf_eq_none one two))),
    request_eq_of_work h (workHouseClose_range tag _ _ (.inr rfl)), ?refused, ?closed⟩
  case refused =>
    rintro a rfl closed
    refine request_eq_of_work h ((workHouseClose_eq tag a flag _).trans (if_pos ?_))
    simpa [taken] using closed
  case closed =>
    rintro a rfl run opened
    have work : workHouseClose tag (audNumber a) (some flag) (taken tag .houseClose s)
        = answered tag .houseClose .ok [] (closeHouse a flag (taken tag .houseClose s)) := by
      refine (workHouseClose_eq tag a flag _).trans (if_neg ?_)
      simp [taken, run, opened]
    obtain ⟨env, cfg, svc⟩ := closeHouse_svc a flag (taken tag .houseClose s)
    have done := closedServices_sealed env a (taken tag .houseClose s).svc
    rw [← svc] at done
    refine ⟨_, request_of_work h work, done.houses, rfl, rfl, fun e own => ?own,
      fun e other => done.other e (cfg ▸ other), fun d k own active standing => ?clips, reply_mem ..,
      done.calls, rfl, rfl⟩
    case own =>
      obtain ⟨lamp, holding, sensed⟩ := done.own e (cfg ▸ own)
      exact ⟨lamp, holding.trans (holdsNow_env cfg e _), sensed⟩
    case clips =>
      have finished := done.clips d k (cfg ▸ own) active standing
      exact ⟨finished.speaking, finished.silent⟩

end Sys2Proof.Proofs.Closing
end

section
/-! PROOFS. Live keys (R102, R103). -/

namespace Sys2Proof.Proofs.LiveKeys

open Sys2Proof Sys2Proof.Machine Sys2Proof.Laws Sys2Proof.Proofs.Cues Sys2Proof.Proofs.Link
  Sys2Proof.Proofs.Passes Sys2Proof.Proofs.Houses Sys2Proof.Proofs.Closing

/-! ## A fold that visits an element once -/

/-- What one turn of a fold makes of what stands before it, when the other turns keep both. -/
theorem foldl_visits {α β : Type} {f : β → α → β} {before after : β → Prop} {x : α}
    (waits : ∀ b y, y ≠ x → before b → before (f b y)) (hits : ∀ b, before b → after (f b x))
    (stays : ∀ b y, y ≠ x → after b → after (f b y)) :
    ∀ (l : List α) (b : β), l.Nodup → x ∈ l → before b → after (l.foldl f b) := by
  have rest : ∀ (l : List α) (b : β), x ∉ l → after b → after (l.foldl f b) := by
    intro l
    induction l with
    | nil => exact fun _ _ h => h
    | cons y l ih =>
      intro b out h
      obtain ⟨ne, later⟩ := not_or.1 (fun h => out (List.mem_cons.2 h))
      exact ih _ later (stays b y (Ne.symm ne) h)
  intro l
  induction l with
  | nil => exact fun _ _ mem => absurd mem List.not_mem_nil
  | cons y l ih =>
    intro b nodup mem h
    obtain ⟨out, nodup⟩ := List.nodup_cons.1 nodup
    by_cases same : y = x
    · subst same
      exact rest l _ out (hits b h)
    · exact ih _ nodup ((List.mem_cons.1 mem).resolve_left (Ne.symm same)) (waits b y same h)

/-! ## Claims a claimant does not have -/

/-- The claimant has no claim in the zone. -/
def Absent (who : Claimant) (z : ZoneId) (sv : Services) : Prop :=
  (look sv.zones z).carries who = false ∧ (look sv.zones z).stacks who = false

theorem absent_iff {who : Claimant} {z : ZoneId} {sv : Services} : Absent who z sv ↔
    (∀ c, (look sv.zones z).active = some c → c.who ≠ who)
      ∧ ∀ c ∈ (look sv.zones z).stack, c.who ≠ who := by
  unfold Absent ZoneRecord.carries ZoneRecord.stacks
  cases (look sv.zones z).active <;> simp

/-- R9, R10: a release brings up no claim of a claimant that has none. -/
theorem release_absent (env : Env) (other : Claimant) (y : ZoneId) {who : Claimant} {z : ZoneId}
    {sv : Services} (h : Absent who z sv) : Absent who z (release env other y sv) := by
  by_cases same : z = y
  case neg =>
    unfold Absent
    rw [zone_release same]
    exact h
  case pos =>
    subst same
    rw [absent_iff] at h ⊢
    obtain ⟨active, stack⟩ := h
    unfold release
    dsimp only
    split
    · have popped := pop_claims env z (putZone z
        { look sv.zones z with
          active := none, stack := (look sv.zones z).stack.filter (fun c => c.who != other) } sv)
      simp only [putZone, look_put, if_true, List.mem_filter] at popped
      exact ⟨fun c top => stack c (popped.1 c top).1, fun c mem => stack c (popped.2 c mem).1⟩
    · simp only [putZone, look_put, if_true, List.mem_filter]
      exact ⟨active, fun c mem => stack c mem.1⟩

theorem releaseAll_absent (env : Env) (other : Claimant) {who : Claimant} {z : ZoneId}
    {sv : Services} (h : Absent who z sv) : Absent who z (releaseAll env other sv) :=
  foldl_inv (Absent who z) _ (fun _ y h => release_absent env other y h) _ sv h

/-! ## What the live keys leave -/

/-- Claims and channels apart, nothing differs. -/
structure OnLive (sv u : Services) : Prop where
  router : OnRouter { sv with channels := u.channels } u

theorem OnLive.refl (a : Services) : OnLive a a := ⟨OnRouter.refl a⟩

theorem OnLive.trans {a b c : Services} (h : OnLive a b) (k : OnLive b c) : OnLive a c := by
  refine ⟨OnRouter.trans (b := { b with channels := c.channels }) ⟨?_⟩ k.router⟩
  exact congrArg (fun s : Services => { s with channels := c.channels }) h.router.same

theorem onLive_of_onRouter {a b : Services} (h : OnRouter a b) : OnLive a b := by
  constructor
  rw [h.channels]
  exact h

theorem onLive_putChannel (d : ChannelId) (ch : Channel) (sv : Services) :
    OnLive sv (putChannel d ch sv) := ⟨OnRouter.refl _⟩

theorem OnLive.liveKeyOf {a b : Services} (h : OnLive a b) (key : LiveInput) :
    liveKeyOf b key = liveKeyOf a key := by
  cases key
  · exact h.router.keyA
  · exact h.router.keyB

/-! ## A press (R103) -/

/-- R103: the press at one channel. -/
def pressTurn (env : Env) (d : ChannelId) (sv : Services) : Services :=
  liveClaimNow env d (putChannel d { look sv.channels d with liveFlag := true } sv)

/-- R103: the channel of a press, once its LIVE claim is decided. -/
def Pressed (d : ChannelId) (ch : Channel) (u : Services) : Prop :=
  ∃ claim, claim ≠ .none ∧ look u.channels d = { ch with liveFlag := true, liveClaim := claim }

structure PressTurn (d : ChannelId) (z : ZoneId) (sv u : Services) : Prop where
  live : OnLive sv u
  zones : ∀ y, y ≠ z → look u.zones y = look sv.zones y
  others : ∀ e, e ≠ d → look u.channels e = look sv.channels e
  pressed : Pressed d (look sv.channels d) u

theorem liveClaimNow_eq {env : Env} {d : ChannelId} {z : ZoneId} {sv : Services}
    (zone : (look env.cfg.channels d).zone = some z) : liveClaimNow env d sv
      = putChannel d
          { look sv.channels d with
            liveClaim := if (claim env z ⟨5, .live d⟩ sv).1.granted then .onZone else .waiting }
          (claim env z ⟨5, .live d⟩ sv).2 := by
  unfold liveClaimNow
  rw [zone]
  dsimp only
  rw [(onRouter_claim env z ⟨5, .live d⟩ sv).channels]

theorem pressTurn_turns {env : Env} {d : ChannelId} {z : ZoneId} (sv : Services)
    (zone : (look env.cfg.channels d).zone = some z) : PressTurn d z sv (pressTurn env d sv) := by
  unfold pressTurn
  rw [liveClaimNow_eq zone]
  have claimed := onRouter_claim env z ⟨5, .live d⟩
    (putChannel d { look sv.channels d with liveFlag := true } sv)
  have elsewhere := fun y (other : y ≠ z) => zone_claim other env ⟨5, .live d⟩
    (putChannel d { look sv.channels d with liveFlag := true } sv)
  generalize claim env z ⟨5, .live d⟩
    (putChannel d { look sv.channels d with liveFlag := true } sv) = r at claimed elsewhere ⊢
  refine ⟨((onLive_putChannel ..).trans (onLive_of_onRouter claimed)).trans (onLive_putChannel ..),
    elsewhere, fun e other => ?_, if r.1.granted then .onZone else .waiting, ?_,
    (look_put_self _ _ _).trans ?_⟩
  · simp only [putChannel, look_put_of_ne _ other.symm, claimed.channels]
  · split <;> decide
  · simp only [putChannel, look_put_self]

theorem claim_granted {env : Env} {z : ZoneId} {c : Claim} {sv : Services}
    (allowed : kindFault env z c = false) (judged : judgeClaim env c (look sv.zones z) = .grant) :
    claim env z c sv = (.grant, grant env z c sv) := by
  simp only [claim, allowed, judged, Bool.false_eq_true, if_false]

/-- R6: a LIVE claim above the zone's rank is granted. -/
theorem pressTurn_granted {env : Env} {d : ChannelId} {z : ZoneId} {sv : Services}
    (run : env.run = true) (zone : (look env.cfg.channels d).zone = some z)
    (kind : (look env.cfg.zones z).kind = .description) (rank : (look sv.zones z).rank < 5)
    (fresh : (look sv.zones z).carries (.live d) = false) :
    (look (pressTurn env d sv).zones z).active = some ⟨5, .live d⟩
      ∧ (look (pressTurn env d sv).channels d).liveClaim = .onZone := by
  have granted := claim_granted (sv := putChannel d { look sv.channels d with liveFlag := true } sv)
    (show kindFault env z ⟨5, .live d⟩ = false by simp [kindFault, kindAllows, kind])
    (show judgeClaim env ⟨5, .live d⟩ (look sv.zones z) = .grant by
      simp [judgeClaim, run, fresh, Claim.isLowCall, rank])
  unfold pressTurn
  rw [liveClaimNow_eq zone, granted]
  exact ⟨grant_active .., congrArg Channel.liveClaim (look_put_self _ _ _)⟩

/-- R103: a press, a turn for each channel. -/
def pressStep (env : Env) (key : LiveInput) (sv : Services) (d : ChannelId) : Services :=
  if boundTo env key d then pressTurn env d sv else sv

theorem livePress_eq (env : Env) (key : LiveInput) (sv : Services) :
    livePress env key sv = allChannels.foldl (pressStep env key) sv := rfl

/-- R101, R102: a bound channel has a zone. -/
theorem zone_of_boundTo {env : Env} {key : LiveInput} {d : ChannelId} (h : boundTo env key d = true) :
    ∃ z, (look env.cfg.channels d).zone = some z := by
  simp only [boundTo, inService, Bool.and_eq_true] at h
  exact Option.isSome_iff_exists.1 h.1.2

section press

variable {env : Env} {key : LiveInput}

theorem pressStep_bound {d : ChannelId} (h : boundTo env key d = true) (sv : Services) :
    ∃ z, (look env.cfg.channels d).zone = some z ∧ PressTurn d z sv (pressStep env key sv d) := by
  obtain ⟨z, zone⟩ := zone_of_boundTo h
  refine ⟨z, zone, ?_⟩
  rw [pressStep, if_pos h]
  exact pressTurn_turns sv zone

theorem pressStep_live (sv : Services) (d : ChannelId) : OnLive sv (pressStep env key sv d) := by
  by_cases h : boundTo env key d = true
  · obtain ⟨_, _, turn⟩ := pressStep_bound h sv
    exact turn.live
  · rw [pressStep, if_neg h]
    exact OnLive.refl sv

theorem pressStep_others (sv : Services) {d e : ChannelId} (ne : e ≠ d) :
    look (pressStep env key sv d).channels e = look sv.channels e := by
  by_cases h : boundTo env key d = true
  · obtain ⟨_, _, turn⟩ := pressStep_bound h sv
    exact turn.others e ne
  · rw [pressStep, if_neg h]

theorem livePress_live (sv : Services) : OnLive sv (livePress env key sv) :=
  foldl_inv (OnLive sv) _ (fun t d h => h.trans (pressStep_live t d)) _ sv (OnLive.refl sv)

theorem livePress_unbound (sv : Services) {d : ChannelId} (h : boundTo env key d = false) :
    look (livePress env key sv).channels d = look sv.channels d := by
  refine foldl_keeps (fun t : Services => look t.channels d) (pressStep env key) (fun t e => ?_) _ sv
  by_cases same : e = d
  · subst same
    rw [pressStep, if_neg (by simp [h])]
  · exact pressStep_others t (Ne.symm same)

theorem livePress_bound (sv : Services) {d : ChannelId} (h : boundTo env key d = true) :
    Pressed d (look sv.channels d) (livePress env key sv) := by
  refine foldl_visits (f := pressStep env key) (x := d)
    (before := fun t => look t.channels d = look sv.channels d)
    (fun t e ne same => (pressStep_others t ne.symm).trans same) (fun t same => ?_)
    (fun t e ne pressed => ?_) allChannels sv (List.nodup_finRange 4) (List.mem_finRange d) rfl
  · obtain ⟨_, _, turn⟩ := pressStep_bound h t
    exact same ▸ turn.pressed
  · rw [Pressed, pressStep_others t ne.symm]
    exact pressed

/-- R103: the LIVE claim of a channel that is alone on its zone finds the zone as it was. -/
theorem livePress_alone (run : env.run = true) (sv : Services) {d : ChannelId} {z : ZoneId}
    (h : boundTo env key d = true) (zone : (look env.cfg.channels d).zone = some z)
    (alone : ∀ e, e ≠ d → boundTo env key e = true → (look env.cfg.channels e).zone ≠ some z)
    (kind : (look env.cfg.zones z).kind = .description) (rank : (look sv.zones z).rank < 5)
    (fresh : (look sv.zones z).carries (.live d) = false) :
    (look (livePress env key sv).zones z).active = some ⟨5, .live d⟩
      ∧ (look (livePress env key sv).channels d).liveClaim = .onZone := by
  have elsewhere : ∀ (t : Services) (e : ChannelId), e ≠ d →
      look (pressStep env key t e).zones z = look t.zones z := by
    intro t e ne
    by_cases bound : boundTo env key e = true
    · obtain ⟨y, at_, turn⟩ := pressStep_bound bound t
      exact turn.zones z fun same => alone e ne bound (same ▸ at_)
    · rw [pressStep, if_neg bound]
  refine foldl_visits (f := pressStep env key) (x := d)
    (before := fun t => look t.zones z = look sv.zones z)
    (after := fun t => (look t.zones z).active = some ⟨5, .live d⟩
      ∧ (look t.channels d).liveClaim = .onZone)
    (fun t e ne same => (elsewhere t e ne).trans same) (fun t same => ?_) (fun t e ne granted => ?_)
    allChannels sv (List.nodup_finRange 4) (List.mem_finRange d) rfl
  · rw [pressStep, if_pos h]
    exact pressTurn_granted run zone kind (same ▸ rank) (same ▸ fresh)
  · rw [elsewhere t e ne, pressStep_others t ne.symm]
    exact granted

end press

/-! ## A release (R103) -/

/-- R103: the release at one channel. -/
def releaseTurn (env : Env) (d : ChannelId) (sv : Services) : Services :=
  putChannel d
    { look (releaseAll env (.live d)
        (putChannel d { look sv.channels d with liveFlag := false } sv)).channels d with
      liveClaim := .none }
    (releaseAll env (.live d) (putChannel d { look sv.channels d with liveFlag := false } sv))

def releaseStep (env : Env) (key : LiveInput) (sv : Services) (d : ChannelId) : Services :=
  if boundTo env key d then releaseTurn env d sv else sv

theorem liveRelease_eq (env : Env) (key : LiveInput) (sv : Services) :
    liveRelease env key sv = allChannels.foldl (releaseStep env key) sv := rfl

/-- R103: the channel of a release. -/
structure LetGo (d : ChannelId) (u : Services) : Prop where
  flag : (look u.channels d).liveFlag = false
  claim : (look u.channels d).liveClaim = .none
  zones : ∀ z, Absent (.live d) z u

section release

variable {env : Env} {key : LiveInput}

theorem releaseTurn_live (d : ChannelId) (sv : Services) : OnLive sv (releaseTurn env d sv) :=
  ((onLive_putChannel ..).trans (onLive_of_onRouter (onRouter_releaseAll ..))).trans
    (onLive_putChannel ..)

theorem releaseTurn_others (sv : Services) {d e : ChannelId} (ne : e ≠ d) :
    look (releaseTurn env d sv).channels e = look sv.channels e := by
  unfold releaseTurn
  simp only [putChannel, look_put_of_ne _ ne.symm, (onRouter_releaseAll env (.live d) _).channels]

theorem releaseTurn_letGo (d : ChannelId) (sv : Services) : LetGo d (releaseTurn env d sv) := by
  have channel : look (releaseTurn env d sv).channels d
      = { look sv.channels d with liveFlag := false, liveClaim := .none } := by
    unfold releaseTurn
    simp only [putChannel, look_put_self, (onRouter_releaseAll env (.live d) _).channels]
  refine ⟨by rw [channel], by rw [channel], fun z => ?_⟩
  have gone := releaseAll_gone env (.live d)
    (putChannel d { look sv.channels d with liveFlag := false } sv) z
  unfold Absent releaseTurn
  generalize releaseAll env (.live d) _ = t at gone ⊢
  exact gone

theorem releaseTurn_absent (d : ChannelId) {sv : Services} {who : Claimant} {z : ZoneId}
    (h : Absent who z sv) : Absent who z (releaseTurn env d sv) := by
  have kept := releaseAll_absent env (.live d) (sv := putChannel d
    { look sv.channels d with liveFlag := false } sv) h
  unfold releaseTurn
  generalize releaseAll env (.live d) _ = t at kept ⊢
  exact kept

theorem releaseStep_live (sv : Services) (d : ChannelId) : OnLive sv (releaseStep env key sv d) := by
  unfold releaseStep
  split
  · exact releaseTurn_live d sv
  · exact OnLive.refl sv

theorem releaseStep_others (sv : Services) {d e : ChannelId} (ne : e ≠ d) :
    look (releaseStep env key sv d).channels e = look sv.channels e := by
  unfold releaseStep
  split
  · exact releaseTurn_others sv ne
  · rfl

theorem releaseStep_absent {sv : Services} (e : ChannelId) {who : Claimant} {z : ZoneId}
    (h : Absent who z sv) : Absent who z (releaseStep env key sv e) := by
  unfold releaseStep
  split
  · exact releaseTurn_absent e h
  · exact h

theorem liveRelease_live (sv : Services) : OnLive sv (liveRelease env key sv) :=
  foldl_inv (OnLive sv) _ (fun t d h => h.trans (releaseStep_live t d)) _ sv (OnLive.refl sv)

theorem liveRelease_unbound (sv : Services) {d : ChannelId} (h : boundTo env key d = false) :
    look (liveRelease env key sv).channels d = look sv.channels d := by
  refine foldl_keeps (fun t : Services => look t.channels d) (releaseStep env key) (fun t e => ?_) _ sv
  by_cases same : e = d
  · subst same
    rw [releaseStep, if_neg (by simp [h])]
  · exact releaseStep_others t (Ne.symm same)

theorem liveRelease_bound (sv : Services) {d : ChannelId} (h : boundTo env key d = true) :
    LetGo d (liveRelease env key sv) := by
  refine foldl_visits (f := releaseStep env key) (x := d) (before := fun _ => True)
    (fun _ _ _ _ => trivial) (fun t _ => ?_) (fun t e ne done => ?_) allChannels sv
    (List.nodup_finRange 4) (List.mem_finRange d) trivial
  · rw [releaseStep, if_pos h]
    exact releaseTurn_letGo d t
  · have same := releaseStep_others (env := env) (key := key) t ne.symm
    exact ⟨by rw [same]; exact done.flag, by rw [same]; exact done.claim,
      fun z => releaseStep_absent e (done.zones z)⟩

end release

/-! ## The events -/

theorem setLiveKey_svc (key : LiveInput) (filter : FilterState) (level : Bool) (s : State) :
    liveKeyOf (setLiveKey key filter level s).svc key = { filter := filter, sample := some level } := by
  cases key <;> rfl

/-- What a key's filter leaves: its record and its line apart, nothing. -/
theorem setLiveKey_keeps (key : LiveInput) (filter : FilterState) (level : Bool) (s : State) :
    (setLiveKey key filter level s).svc.zones = s.svc.zones
      ∧ (setLiveKey key filter level s).svc.channels = s.svc.channels
      ∧ (setLiveKey key filter level s).svc.slots = s.svc.slots
      ∧ (setLiveKey key filter level s).svc.calls = s.svc.calls
      ∧ (setLiveKey key filter level s).svc.reports = s.svc.reports
      ∧ (setLiveKey key filter level s).svc.walkDue = s.svc.walkDue
      ∧ (setLiveKey key filter level s).env = s.env
      ∧ (setLiveKey key filter level s).control = s.control
      ∧ (setLiveKey key filter level s).cue = s.cue ∧ (setLiveKey key filter level s).sup = s.sup := by
  cases key <;> exact ⟨rfl, rfl, rfl, rfl, rfl, rfl, rfl, rfl, rfl, rfl⟩

section events

variable {key : LiveInput} {s : State} (h : Still s)
include h

theorem exec_liveKeySettled (run : s.control.running = true)
    (unsettled : (liveKeyOf s.svc key).filter = .unsettled) :
    exec (.liveKeySettled key) s = .next (setLiveKey key .released true s) := by
  have work : liveKeySettled key s = setLiveKey key .released true s := if_pos ⟨run, unsettled⟩
  obtain ⟨-, -, -, -, reports, walk, -⟩ := setLiveKey_keeps key .released true s
  exact event_eq_of_work h work reports walk

theorem exec_liveKeyPress (run : s.control.running = true)
    (other : (liveKeyOf s.svc key).filter ≠ .pressed) :
    exec (.liveKeyPress key) s = .next ((setLiveKey key .pressed false s).serve
      (fun env sv => livePress env key sv)).settled := by
  have work : liveKeyPressed key s
    = (setLiveKey key .pressed false s).serve (fun env sv => livePress env key sv) :=
    if_pos ⟨run, other⟩
  exact event_of_work h work

theorem exec_liveKeyRelease (run : s.control.running = true)
    (pressed : (liveKeyOf s.svc key).filter = .pressed) :
    exec (.liveKeyRelease key) s = .next ((setLiveKey key .released true s).serve
      (fun env sv => liveRelease env key sv)).settled := by
  have work : liveKeyReleased key s
    = (setLiveKey key .released true s).serve (fun env sv => liveRelease env key sv) :=
    if_pos ⟨run, pressed⟩
  exact event_of_work h work

end events

/-- Settles O37: a press claims and a release lets go at one turn of each bound channel. -/
theorem liveKeysClaim : Obligations.LiveKeysClaim := by
  unfold Obligations.LiveKeysClaim
  intro key s h
  refine ⟨fun no => event_eq_of_work h (if_neg no), fun no => event_eq_of_work h (if_neg no),
    fun no => event_eq_of_work h (if_neg no), fun run unsettled => ?settled,
    fun run other => ?press, fun run pressed => ?release⟩
  case settled =>
    obtain ⟨zones, channels, slots, calls, -, -, -, control, cue, sup⟩ :=
      setLiveKey_keeps key .released true s
    exact ⟨_, exec_liveKeySettled h run unsettled, setLiveKey_svc .., zones, channels, slots, calls,
      control, cue, sup⟩
  case press =>
    obtain ⟨zones, channels, slots, calls, -, -, env, control, cue, sup⟩ :=
      setLiveKey_keeps key .pressed false s
    refine ⟨_, exec_liveKeyPress h run other, ?_⟩
    have keys := setLiveKey_svc key .pressed false s
    unfold State.serve
    rw [env]
    generalize setLiveKey key .pressed false s = t at *
    have live := livePress_live (env := s.env) (key := key) t.svc
    refine ⟨(live.liveKeyOf key).trans keys, fun d unbound => ?_, fun d bound => ?_,
      fun d z bound zone alone kind rank fresh => ?_, live.router.slots.trans slots,
      live.router.calls.trans calls, control, cue, sup⟩
    · exact (livePress_unbound t.svc unbound).trans (by rw [channels])
    · obtain ⟨claim, some_, channel⟩ := livePress_bound t.svc bound
      dsimp only
      rw [channel, channels]
      exact ⟨rfl, some_, rfl, rfl⟩
    · exact livePress_alone run t.svc bound zone alone kind (zones ▸ rank) (zones ▸ fresh)
  case release =>
    obtain ⟨-, channels, slots, calls, -, -, env, control, cue, sup⟩ :=
      setLiveKey_keeps key .released true s
    refine ⟨_, exec_liveKeyRelease h run pressed, ?_⟩
    have keys := setLiveKey_svc key .released true s
    unfold State.serve
    rw [env]
    generalize setLiveKey key .released true s = t at *
    have live := liveRelease_live (env := s.env) (key := key) t.svc
    refine ⟨(live.liveKeyOf key).trans keys, fun d unbound => ?_, fun d bound => ?_,
      live.router.slots.trans slots, live.router.calls.trans calls, control, cue, sup⟩
    · exact (liveRelease_unbound t.svc unbound).trans (by rw [channels])
    · have done := liveRelease_bound t.svc bound
      exact ⟨done.flag, done.claim, done.zones⟩

end Sys2Proof.Proofs.LiveKeys
end

section
/-! PROOFS. The quiet detectors: level updates (R70-R74, R76) and the open timer (R73, R75, R114). -/

namespace Sys2Proof.Proofs.Gaps

open Sys2Proof Sys2Proof.Machine Sys2Proof.Laws Sys2Proof.Proofs.Cues Sys2Proof.Proofs.Link
  Sys2Proof.Proofs.Passes Sys2Proof.Proofs.Houses Sys2Proof.Proofs.Windows Sys2Proof.Proofs.Playout
  Sys2Proof.Proofs.Closing Sys2Proof.Proofs.LiveKeys

/-! ## A clip tries its zone (R112) -/

/-- The channels, the houses, the entrances and the calls are as they were. -/
structure OffChannels (sv u : Services) : Prop where
  channels : u.channels = sv.channels
  houses : u.houses = sv.houses
  entrances : u.entrances = sv.entrances
  calls : u.calls = sv.calls

theorem OffChannels.refl (sv : Services) : OffChannels sv sv := ⟨rfl, rfl, rfl, rfl⟩

theorem OffChannels.trans {a b c : Services} (h : OffChannels a b) (k : OffChannels b c) :
    OffChannels a c :=
  ⟨k.channels.trans h.channels, k.houses.trans h.houses, k.entrances.trans h.entrances,
    k.calls.trans h.calls⟩

theorem offChannels_of_onRouter {sv u : Services} (h : OnRouter sv u) : OffChannels sv u :=
  ⟨h.channels, h.houses, h.entrances, h.calls⟩

theorem offChannels_of_onPool {sv u : Services} (h : OnPool sv u) : OffChannels sv u :=
  ⟨h.channels, h.houses, h.entrances, h.calls⟩

theorem setActive_channels (d : ChannelId) (k : ActiveClip) (sv : Services) :
    (setActive d k sv).channels
      = put sv.channels d { look sv.channels d with active := some k } := rfl

/-- R112: the clip speaks when its claim is granted, and waits for the zone when it is not. -/
theorem tryZone_cases (env : Env) {d : ChannelId} {sv : Services} {k : ActiveClip}
    (active : (look sv.channels d).active = some k) :
    ∃ st v, (st = .speaking ∨ st = .waitingZone)
      ∧ tryZone env d sv = setActive d { k with state := st } v ∧ OffChannels sv v := by
  simp only [tryZone, active]
  cases (look env.cfg.channels d).zone with
  | none => exact ⟨.waitingZone, sv, .inr rfl, rfl, OffChannels.refl sv⟩
  | some z =>
    have claimed := offChannels_of_onRouter (onRouter_claim env z ⟨3, .clip d⟩ sv)
    dsimp only
    split
    · exact ⟨.speaking, _, .inl rfl, rfl,
        claimed.trans (offChannels_of_onPool (onPool_startSlot ..))⟩
    · exact ⟨.waitingZone, _, .inr rfl, rfl, claimed⟩

/-- A clip of channel `d` that has tried its zone. -/
def Tried (d : ChannelId) (ch : Channel) (k : ActiveClip) (u : Services) : Prop :=
  ∃ st, (st = .speaking ∨ st = .waitingZone)
    ∧ look u.channels d = { ch with active := some { k with state := st } }

theorem tryZone_tried (env : Env) {d : ChannelId} {sv : Services} {k : ActiveClip}
    (active : (look sv.channels d).active = some k) :
    Tried d (look sv.channels d) k (tryZone env d sv) := by
  obtain ⟨st, v, which, eq, off⟩ := tryZone_cases env active
  refine ⟨st, which, ?_⟩
  rw [eq, setActive_channels, look_put_self, off.channels]

/-- What a try leaves: the houses, the calls and the other channels. -/
structure TryLeaves (d : ChannelId) (sv u : Services) : Prop where
  others : ∀ e, e ≠ d → look u.channels e = look sv.channels e
  houses : u.houses = sv.houses
  calls : u.calls = sv.calls

theorem tryZone_leaves (env : Env) (d : ChannelId) (sv : Services) :
    TryLeaves d sv (tryZone env d sv) := by
  cases active : (look sv.channels d).active with
  | none =>
    simp only [tryZone, active]
    exact ⟨fun _ _ => rfl, rfl, rfl⟩
  | some k =>
    obtain ⟨st, v, -, eq, off⟩ := tryZone_cases env active
    rw [eq]
    refine ⟨fun e ne => ?_, off.houses, off.calls⟩
    rw [setActive_channels, look_put_of_ne _ ne.symm, off.channels]

/-! ## A gap opens (R114) -/

/-- R114: the turn of a channel when a gap opens in auditorium `a`. -/
def gapStep (env : Env) (a : Aud) (sv : Services) (d : ChannelId) : Services :=
  if (look env.cfg.channels d).auditorium = some a then
    match (look sv.channels d).active with
    | some k => if k.state = .waitingGap then tryZone env d sv else sv
    | none => sv
  else sv

theorem gapOpened_eq (env : Env) (a : Aud) (sv : Services) :
    gapOpened env a sv = allChannels.foldl (gapStep env a) sv := rfl

section gapOpened

variable {env : Env} {a : Aud}

theorem gapStep_tries {sv : Services} {d : ChannelId} {k : ActiveClip}
    (own : (look env.cfg.channels d).auditorium = some a)
    (active : (look sv.channels d).active = some k) (waits : k.state = .waitingGap) :
    gapStep env a sv d = tryZone env d sv := by
  simp only [gapStep, own, active, waits, if_true]

/-- R114: only a clip in WAITING-GAP of the auditorium goes on. -/
theorem gapStep_passes {sv : Services} {d : ChannelId}
    (h : (look env.cfg.channels d).auditorium = some a →
      ∀ k, (look sv.channels d).active = some k → k.state ≠ .waitingGap) :
    gapStep env a sv d = sv := by
  unfold gapStep
  split_ifs with own
  · cases active : (look sv.channels d).active with
    | none => rfl
    | some k => exact if_neg (h own k active)
  · rfl

theorem gapStep_leaves (sv : Services) (d : ChannelId) : TryLeaves d sv (gapStep env a sv d) := by
  by_cases tries : (look env.cfg.channels d).auditorium = some a
      ∧ ∃ k, (look sv.channels d).active = some k ∧ k.state = .waitingGap
  · obtain ⟨own, k, active, waits⟩ := tries
    rw [gapStep_tries own active waits]
    exact tryZone_leaves env d sv
  · rw [gapStep_passes fun own k active waits => tries ⟨own, k, active, waits⟩]
    exact ⟨fun _ _ => rfl, rfl, rfl⟩

theorem gapOpened_keeps (sv : Services) :
    (gapOpened env a sv).houses = sv.houses ∧ (gapOpened env a sv).calls = sv.calls :=
  ⟨foldl_keeps Services.houses _ (fun t d => (gapStep_leaves (env := env) (a := a) t d).houses) _ sv,
    foldl_keeps Services.calls _ (fun t d => (gapStep_leaves (env := env) (a := a) t d).calls) _ sv⟩

theorem gapOpened_passes {sv : Services} {d : ChannelId}
    (h : (look env.cfg.channels d).auditorium = some a →
      ∀ k, (look sv.channels d).active = some k → k.state ≠ .waitingGap) :
    look (gapOpened env a sv).channels d = look sv.channels d := by
  refine foldl_inv (fun t : Services => look t.channels d = look sv.channels d) _
    (fun t e same => ?_) allChannels sv rfl
  by_cases at_ : e = d
  · subst at_
    exact (congrArg (fun u : Services => look u.channels e)
      (gapStep_passes (fun own => same ▸ h own))).trans same
  · exact ((gapStep_leaves t e).others d (Ne.symm at_)).trans same

theorem gapOpened_tries {sv : Services} {d : ChannelId} {k : ActiveClip}
    (own : (look env.cfg.channels d).auditorium = some a)
    (active : (look sv.channels d).active = some k) (waits : k.state = .waitingGap) :
    Tried d (look sv.channels d) k (gapOpened env a sv) := by
  refine foldl_visits (f := gapStep env a) (x := d)
    (before := fun t => look t.channels d = look sv.channels d)
    (fun t e ne same => ((gapStep_leaves t e).others d ne.symm).trans same) (fun t same => ?_)
    (fun t e ne tried => ?_) allChannels sv (List.nodup_finRange 4) (List.mem_finRange d) rfl
  · have here : (look t.channels d).active = some k := same ▸ active
    rw [gapStep_tries own here waits]
    exact same ▸ tryZone_tried env here
  · rw [Tried, (gapStep_leaves t e).others d ne.symm]
    exact tried

end gapOpened

/-! ## Level updates (R70, R72-R74) -/

theorem updQuiet_eq (s : State) (a : Aud) (f : QuietDetector → QuietDetector) :
    s.updQuiet a f = { s with quiet := s.quiet.set a (f (s.quiet.get a)) } := rfl

theorem updQuiet_updQuiet (s : State) (a : Aud) (f g : QuietDetector → QuietDetector) :
    (s.updQuiet a f).updQuiet a g = s.updQuiet a (fun q => g (f q)) := by
  cases a <;> rfl

section levelUpdated

variable {a : Aud} {samples : List (Option Int)} {s : State}

theorem levelUpdated_config (run : s.control.running = false) :
    levelUpdated a samples s = s.updQuiet a (meterUpdate samples) := by
  simp only [levelUpdated, run, Bool.false_eq_true, if_false]

variable (run : s.control.running = true)
include run

theorem levelUpdated_event (h : ¬ ((meterUpdate samples (s.quiet.get a)).state = .quiet
      ∧ (s.control.cfg.auditoria.get a).soundThreshold ≤ (meterUpdate samples (s.quiet.get a)).level)) :
    levelUpdated a samples s = s.updQuiet a (fun q =>
      QuietDetector.levelEvent (s.control.cfg.auditoria.get a) (s.cue.get a).clock
        (meterUpdate samples q)) := by
  have q : (s.updQuiet a (meterUpdate samples)).quiet.get a = meterUpdate samples (s.quiet.get a) :=
    get_updTwo_self ..
  simp only [levelUpdated, run, q, if_true, if_neg h, updQuiet_updQuiet]

theorem levelUpdated_music (h : (meterUpdate samples (s.quiet.get a)).state = .quiet
      ∧ (s.control.cfg.auditoria.get a).soundThreshold ≤ (meterUpdate samples (s.quiet.get a)).level) :
    levelUpdated a samples s
      = (s.updQuiet a (fun q => (meterUpdate samples q).endGap)).serve (fun env sv =>
          musicResumed env a (s.cue.get a).clock sv) := by
  have q : (s.updQuiet a (meterUpdate samples)).quiet.get a = meterUpdate samples (s.quiet.get a) :=
    get_updTwo_self ..
  simp only [levelUpdated, run, q, if_true, if_pos h, updQuiet_updQuiet]

end levelUpdated

/-- R72, R73: the level events that change nothing. -/
theorem levelEvent_none {k : AuditoriumConfig} {clock : Nat} {q : QuietDetector}
    (h : (q.state = .sound ∧ k.quietThreshold ≤ q.level)
      ∨ (q.state = .settling ∧ q.level < k.soundThreshold) ∨ q.state = .quiet) :
    q.levelEvent k clock = q := by
  unfold QuietDetector.levelEvent
  rcases h with ⟨sound, loud⟩ | ⟨settling, low⟩ | quiet
  · rw [sound]
    exact if_neg (by omega)
  · rw [settling]
    exact if_neg (by omega)
  · rw [quiet]

theorem levelEvent_settles {k : AuditoriumConfig} {clock : Nat} {q : QuietDetector}
    (sound : q.state = .sound) (low : q.level < k.quietThreshold) :
    q.levelEvent k clock = { q with
      state := .settling, openLeft := some k.openTime
      current := some { start := clock, length := 0 } } := by
  rw [QuietDetector.levelEvent, sound]
  exact if_pos low

theorem levelEvent_rests {k : AuditoriumConfig} {clock : Nat} {q : QuietDetector}
    (settling : q.state = .settling) (loud : k.soundThreshold ≤ q.level) :
    q.levelEvent k clock = { q with state := .sound, openLeft := none, current := none } := by
  rw [QuietDetector.levelEvent, settling]
  exact if_pos loud

theorem endGap_current {q : QuietDetector} {g : GapRecord} (h : q.current = some g) :
    q.endGap = { q with
      state := .sound, current := none, openLeft := none, lastGap := some g
      longestGap := longerGap g q.longestGap } := by
  rw [QuietDetector.endGap, h]

section exec_levelUpdate

variable {a : Aud} {samples : List (Option Int)} {s : State} (h : Still s)
include h

theorem exec_levelUpdate_quiet {f : QuietDetector → QuietDetector}
    (work : levelUpdated a samples s = s.updQuiet a f) :
    exec (.levelUpdate a samples) s
      = .next { s with quiet := s.quiet.set a (f (s.quiet.get a)) } :=
  event_eq_of_work h work

/-- A level event in RUN that does not end a gap. -/
theorem exec_levelUpdate_event (run : s.control.running = true)
    (goes : ¬ ((s.quiet.get a).state = .quiet ∧ (s.control.cfg.auditoria.get a).soundThreshold
      ≤ (meterUpdate samples (s.quiet.get a)).level)) {q : QuietDetector}
    (event : (meterUpdate samples (s.quiet.get a)).levelEvent (s.control.cfg.auditoria.get a)
      (s.cue.get a).clock = q) :
    exec (.levelUpdate a samples) s = .next { s with quiet := s.quiet.set a q } := by
  rw [← event]
  exact exec_levelUpdate_quiet h (levelUpdated_event run goes)

theorem exec_openTimerExpiry (settling : (s.quiet.get a).state = .settling) :
    exec (.openTimerExpiry a) s = .next ((s.updQuiet a (fun q =>
      { q with state := .quiet, openLeft := none })).serve (fun env sv => gapOpened env a sv)).settled := by
  have work : openTimerExpired a s = (s.updQuiet a (fun q =>
      { q with state := .quiet, openLeft := none })).serve (fun env sv => gapOpened env a sv) :=
    if_pos settling
  exact event_of_work h work

end exec_levelUpdate

/-- R76, R156: the music that ends a gap closes a window that asked for it. -/
theorem musicResumed_eq (env : Env) (a : Aud) (count : Nat) (sv : Services) :
    musicResumed env a count sv =
      if (sv.houses.get a).state = .admitting ∧ (sv.houses.get a).closeOnMusic = true
      then closeWindow env a .music count sv else sv := rfl

/-- Settles O33: an equation of `levelEvent` and `endGap` for each turn of the detector, and the
clips that a gap lets go on. -/
theorem gapStatesFollowTheLevel : Obligations.GapStatesFollowTheLevel := by
  unfold Obligations.GapStatesFollowTheLevel
  refine ⟨fun a samples s h => ?level, fun a s h => ⟨fun other => ?other, fun settling => ?opens⟩⟩
  case level =>
    intro history level q k
    have metered : meterUpdate samples (s.quiet.get a) = q := rfl
    refine ⟨fun stays => ?stays, fun run sound low => ?settles, fun run settling loud => ?rests,
      fun g run quiet loud gap => ?music⟩
    case stays =>
      rcases stays with off | stays
      · exact exec_levelUpdate_quiet h (levelUpdated_config off)
      · cases run : s.control.running with
        | false => exact exec_levelUpdate_quiet h (levelUpdated_config run)
        | true =>
          refine exec_levelUpdate_event h run (fun ⟨quiet, loud⟩ => ?_)
            (levelEvent_none (stays.imp_right (Or.imp_right And.left)))
          rcases stays with ⟨sound, -⟩ | ⟨settling, -⟩ | ⟨-, low⟩
          · exact absurd (sound.symm.trans quiet) (by decide)
          · exact absurd (settling.symm.trans quiet) (by decide)
          · exact absurd low (not_lt.2 loud)
    case settles =>
      refine exec_levelUpdate_event h run (fun ⟨quiet, _⟩ => ?_) (levelEvent_settles sound low)
      exact absurd (sound.symm.trans quiet) (by decide)
    case rests =>
      refine exec_levelUpdate_event h run (fun ⟨quiet, _⟩ => ?_) (levelEvent_rests settling loud)
      exact absurd (settling.symm.trans quiet) (by decide)
    case music =>
      refine ⟨_, event_of_work h (levelUpdated_music run ⟨quiet, loud⟩), ?_, fun admitting asked => ?_,
        fun not => ?_, rfl, rfl, rfl⟩
      · have ended := endGap_current gap
        refine (congrArg (s.quiet.set a) ended).trans (congrArg (s.quiet.set a) ?_)
        unfold longerGap
        cases q.longestGap <;> rfl
      · exact closeWindow_closed a .music rfl (if_pos ⟨admitting, asked⟩) rfl rfl rfl
      · refine if_neg fun ⟨admitting, asked⟩ => ?_
        rcases not with other | unasked
        · exact other admitting
        · exact absurd asked (by simp [unasked])
  case other => exact event_eq_of_work h (if_neg other)
  case opens =>
    have keeps := fun env : Env => gapOpened_keeps (env := env) (a := a) s.svc
    refine ⟨_, exec_openTimerExpiry h settling, rfl, fun d other => ?_, fun d k own active => ?_, rfl,
      rfl, rfl, (keeps _).1, (keeps _).2⟩
    · exact gapOpened_passes fun own => absurd own other
    · refine ⟨fun goes => gapOpened_passes fun _ j at_ => ?_, fun waits => ?_⟩
      · exact Option.some.inj (active.symm.trans at_) ▸ goes
      · obtain ⟨st, which, channel⟩ := gapOpened_tries (env := State.env (s.updQuiet a (fun q =>
          { q with state := .quiet, openLeft := none }))) (a := a) own active waits
        exact ⟨st, which, congrArg Channel.active channel⟩

end Sys2Proof.Proofs.Gaps
end

section
/-! PROOFS. The ends of calls and of repetitions (R128, R129, R143), and of chimes (R137, R158). -/

namespace Sys2Proof.Proofs.CallEnds

open Sys2Proof Sys2Proof.Machine Sys2Proof.Laws Sys2Proof.Proofs.Cues Sys2Proof.Proofs.Link
  Sys2Proof.Proofs.Passes Sys2Proof.Proofs.Houses Sys2Proof.Proofs.Windows Sys2Proof.Proofs.Admission
  Sys2Proof.Proofs.Doors Sys2Proof.Proofs.ClipEnds

/-! ## The end of a call (R128) -/

/-- R128, R129: the live call `k` has ended, said of the services. -/
structure CallOver (k : Call) (outcome : CallOutcome) (sv u : Services) : Prop where
  gone : findCall k.desc.callId u = none
  others : ∀ c ∈ sv.calls, c.desc.callId ≠ k.desc.callId → c ∈ u.calls
  finished : u.finished = appendFinished (finishedOf k sv.callClock outcome) sv.finished
  zones : ∀ z, (look u.zones z).carries (.call k.desc.callId) = false
    ∧ (look u.zones z).stacks (.call k.desc.callId) = false
  notice : u.link.pendingKinds &&& 0x0040 = 0x0040
  slot : ∀ i, k.slot = some i → u.walkDue = true
    ∧ ((look sv.slots i).state ≠ .idle → (look sv.slots i).owner = some k.desc.callId →
        u.slots = put sv.slots i Slot.idle ∧ u.free = sv.free + (look sv.slots i).held.length)
  noSlot : k.slot = none → u.slots = sv.slots ∧ u.free = sv.free
  silent : chimeSounds (.call k.desc.callId) u = false
  channels : u.channels = sv.channels
  houses : u.houses = sv.houses

/-- R128: the slot of a call that ends is abandoned, and a walk owed. -/
theorem endCall_slot (env : Env) (outcome : CallOutcome) {sv : Services} {k : Call} {id : Nat}
    (h : findCall id sv = some k) {i : SlotId} (slot : k.slot = some i) :
    (endCall env id outcome sv).walkDue = true
    ∧ ((look sv.slots i).state ≠ .idle → (look sv.slots i).owner = some id →
        (endCall env id outcome sv).slots = put sv.slots i Slot.idle
          ∧ (endCall env id outcome sv).free = sv.free + (look sv.slots i).held.length) := by
  have released := onRouter_releaseAll env (.call id) (stopChime (.call id) sv)
  have slots : (releaseAll env (.call id) (stopChime (.call id) sv)).slots = sv.slots := released.slots
  have free : (releaseAll env (.call id) (stopChime (.call id) sv)).free = sv.free := released.free
  simp only [endCall, h, slot, Option.isSome_some, if_true]
  refine ⟨rfl, fun busy own => ?_⟩
  rw [abandonOwned_eq (by rw [slots]; exact busy) (by rw [slots]; exact own), slots, free]
  exact ⟨rfl, rfl⟩

theorem endCall_noSlot (env : Env) (outcome : CallOutcome) {sv : Services} {k : Call} {id : Nat}
    (h : findCall id sv = some k) (slot : k.slot = none) :
    (endCall env id outcome sv).slots = sv.slots ∧ (endCall env id outcome sv).free = sv.free := by
  have released := onRouter_releaseAll env (.call id) (stopChime (.call id) sv)
  have slots : (releaseAll env (.call id) (stopChime (.call id) sv)).slots = sv.slots := released.slots
  have free : (releaseAll env (.call id) (stopChime (.call id) sv)).free = sv.free := released.free
  simp only [endCall, h, slot, Option.isSome_none, Bool.false_eq_true, if_false]
  generalize releaseAll env (.call id) (stopChime (.call id) sv) = t at slots free ⊢
  exact ⟨slots, free⟩

theorem endCall_over (env : Env) (outcome : CallOutcome) {sv : Services} {k : Call} {id : Nat}
    (h : findCall id sv = some k) : CallOver k outcome sv (endCall env id outcome sv) := by
  obtain rfl := findCall_id h
  obtain ⟨gone, others, finished, zones, notice, channels, houses, -, silent⟩ :=
    endCall_ends env _ outcome sv k h
  exact ⟨gone, others, finished, zones, notice, fun i slot => endCall_slot env outcome h slot,
    fun slot => endCall_noSlot env outcome h slot, silent, channels, houses⟩

/-- What the end of a call reads of the services. -/
structure SameTables (id : Nat) (sv t : Services) : Prop where
  calls : ∀ c ∈ sv.calls, c.desc.callId ≠ id → c ∈ t.calls
  finished : t.finished = sv.finished
  callClock : t.callClock = sv.callClock
  slots : t.slots = sv.slots
  free : t.free = sv.free
  channels : t.channels = sv.channels
  houses : t.houses = sv.houses

theorem CallOver.of_before {k : Call} {outcome : CallOutcome} {sv t u : Services}
    (h : CallOver k outcome t u) (same : SameTables k.desc.callId sv t) : CallOver k outcome sv u := by
  have finished := h.finished
  have slot := h.slot
  have noSlot := h.noSlot
  rw [same.finished, same.callClock] at finished
  rw [same.slots, same.free] at slot noSlot
  exact ⟨h.gone, fun c mem other => h.others c (same.calls c mem other) other, finished, h.zones,
    h.notice, slot, noSlot, h.silent, h.channels.trans same.channels, h.houses.trans same.houses⟩

theorem CallOver.ended {k : Call} {outcome : CallOutcome} {s u : State}
    (h : CallOver k outcome s.svc u.svc) (sup : u.sup = s.sup) (cue : u.cue = s.cue)
    (quiet : u.quiet = s.quiet) (control : u.control = s.control) : CallEnded k outcome s u :=
  ⟨h.gone, h.others, h.finished, h.zones, h.notice, h.slot, h.noSlot, h.channels, h.houses, sup, cue,
    quiet, control⟩

/-! ## The end of a repetition (R143) -/

/-- R143: the call's record after a repetition. -/
def repeated (k : Call) : Call :=
  { k with
    done := k.done + 1, heard := heardAfter k, unbroken := [], phase := none, micLeft := none
    breakLeft := none, dropMessage := false
    state := if k.desc.spacing = 0 then .waiting else .spacing
    spacingLeft := if k.desc.spacing = 0 then none else some (k.desc.spacing * 1000) }

/-- R143: the services between the repetition and what follows it. -/
def betweenRepetitions (env : Env) (k : Call) (sv : Services) : Services :=
  releaseAll env (.call k.desc.callId) (updCall k.desc.callId (fun c =>
    { c with
      done := c.done + 1, heard := heardAfter c, unbroken := [], phase := none, micLeft := none
      breakLeft := none, dropMessage := false
      state := if k.desc.spacing = 0 then .waiting else .spacing
      spacingLeft := if k.desc.spacing = 0 then none else some (k.desc.spacing * 1000) }) sv)

section repetition

variable {env : Env} {k : Call} {sv : Services} (h : findCall k.desc.callId sv = some k)
include h

theorem endRepetition_last (last : k.desc.repetitions ≤ k.done + 1) :
    endRepetition env k.desc.callId sv
      = endCall env k.desc.callId .done (betweenRepetitions env k sv) := by
  simp only [endRepetition, h, decide_eq_true last, if_true]
  rfl

theorem endRepetition_more (more : k.done + 1 < k.desc.repetitions) :
    endRepetition env k.desc.callId sv
      = if k.desc.spacing = 0 then oweWalk (betweenRepetitions env k sv)
        else betweenRepetitions env k sv := by
  simp only [endRepetition, h, decide_eq_false (Nat.not_le.2 more), Bool.false_eq_true, if_false]
  rfl

theorem findCall_betweenRepetitions :
    findCall k.desc.callId (betweenRepetitions env k sv) = some (repeated k) := by
  have released := onRouter_releaseAll env (.call k.desc.callId) (updCall k.desc.callId (fun c =>
    { c with
      done := c.done + 1, heard := heardAfter c, unbroken := [], phase := none, micLeft := none
      breakLeft := none, dropMessage := false
      state := if k.desc.spacing = 0 then .waiting else .spacing
      spacingLeft := if k.desc.spacing = 0 then none else some (k.desc.spacing * 1000) }) sv)
  rw [betweenRepetitions, findCall, released.calls]
  exact findCall_updCall k.desc.callId _ sv k (fun _ => rfl) h

omit h in
theorem betweenRepetitions_same : SameTables k.desc.callId sv (betweenRepetitions env k sv) := by
  have released := onRouter_releaseAll env (.call k.desc.callId) (updCall k.desc.callId (fun c =>
    { c with
      done := c.done + 1, heard := heardAfter c, unbroken := [], phase := none, micLeft := none
      breakLeft := none, dropMessage := false
      state := if k.desc.spacing = 0 then .waiting else .spacing
      spacingLeft := if k.desc.spacing = 0 then none else some (k.desc.spacing * 1000) }) sv)
  refine ⟨fun c mem other => ?_, released.finished, released.callClock, released.slots, released.free,
    released.channels, released.houses⟩
  rw [betweenRepetitions, released.calls]
  exact List.mem_map.2 ⟨c, mem, if_neg other⟩

end repetition

/-- R143: a repetition of call `k` has ended, said of the services. -/
structure RepetitionOver (k : Call) (sv u : Services) : Prop where
  last : k.desc.repetitions ≤ k.done + 1 → CallOver (repeated k) .done sv u
  more : k.done + 1 < k.desc.repetitions →
    findCall k.desc.callId u = some (repeated k) ∧ u.finished = sv.finished
  zones : ∀ z, (look u.zones z).carries (.call k.desc.callId) = false
    ∧ (look u.zones z).stacks (.call k.desc.callId) = false
  channels : u.channels = sv.channels
  houses : u.houses = sv.houses
  silent : chimeSounds (.call k.desc.callId) sv = false →
    chimeSounds (.call k.desc.callId) u = false

theorem endRepetition_over (env : Env) {sv : Services} {k : Call} {id : Nat}
    (h : findCall id sv = some k) : RepetitionOver k sv (endRepetition env id sv) := by
  obtain rfl := findCall_id h
  obtain ⟨more, -, -, zones, channels, houses, -, silent⟩ := endRepetition_ends env _ sv k h
  refine ⟨fun last => ?_, more, zones, channels, houses, silent⟩
  rw [endRepetition_last h last]
  exact (endCall_over env .done (k := repeated k) (findCall_betweenRepetitions h)).of_before
    (betweenRepetitions_same (k := k))

theorem RepetitionOver.ended {k : Call} {s u : State} (h : RepetitionOver k s.svc u.svc)
    (sup : u.sup = s.sup) (cue : u.cue = s.cue) (quiet : u.quiet = s.quiet)
    (control : u.control = s.control) : RepetitionEnded k s u := by
  refine ⟨fun last => ?_, fun more => ?_, h.zones, h.channels, h.houses, sup, cue, quiet, control⟩
  · have over_ := (h.last last).ended sup cue quiet control
    exact ⟨over_.gone, over_.others, over_.finished, over_.zones, over_.notice, over_.slot,
      over_.noSlot, over_.rest⟩
  · obtain ⟨found, finished⟩ := h.more more
    exact ⟨_, found, rfl, rfl, rfl, rfl, rfl, rfl, rfl, rfl, rfl, finished⟩

end Sys2Proof.Proofs.CallEnds
end

section
/-! PROOFS. The end of a chime (R136, R137, R158) and the requests about live calls (R129, R130, R132, R139). -/

namespace Sys2Proof.Proofs.CallWork

open Sys2Proof Sys2Proof.Machine Sys2Proof.Laws Sys2Proof.Proofs.Cues Sys2Proof.Proofs.Link
  Sys2Proof.Proofs.Passes Sys2Proof.Proofs.Houses Sys2Proof.Proofs.Windows Sys2Proof.Proofs.Admission
  Sys2Proof.Proofs.Doors Sys2Proof.Proofs.ClipEnds Sys2Proof.Proofs.Standing
  Sys2Proof.Proofs.CallEnds

/-! ## Chimes (R137) -/

theorem chimeSounds_stopChime (o : ChimeOwner) (sv : Services) :
    chimeSounds o (stopChime o sv) = false := by
  simp [chimeSounds, stopChime]

section chimeEnded

variable {env : Env} {sv : Services}

theorem chimeEnded_silent {o : ChimeOwner} (h : chimeSounds o sv = false) :
    chimeEnded o env sv = sv := by
  cases o with
  | call id => simp only [chimeEnded, callChimeEnded, h, Bool.not_false, if_true]
  | window a => simp only [chimeEnded, admitChimeEnded, h, Bool.false_eq_true, if_false]

variable {id : Nat} {k : Call} (sounds : chimeSounds (.call id) sv = true)
  (found : findCall id sv = some k) (playing : k.state = .playing) (phase : k.phase = some .chime)
include sounds found playing phase

/-- R136: a message follows its chime after a pause. -/
theorem chimeEnded_pauses (message : k.desc.message ≠ .noMessage) (kept : k.dropMessage = false) :
    chimeEnded (.call id) env sv
      = updCall id (fun c => { c with phase := some .pause, breakLeft := some 400 })
          (stopChime (.call id) sv) := by
  have still : findCall id (stopChime (.call id) sv) = some k := found
  simp only [chimeEnded, callChimeEnded, sounds, still, playing, phase, message, kept, Bool.not_true,
    Bool.false_eq_true, ne_eq, not_true, or_self, if_false]

/-- R136, R139: a chime without a message, or one whose message was dropped, ends its repetition. -/
theorem chimeEnded_ends (none_ : k.desc.message = .noMessage ∨ k.dropMessage = true) :
    chimeEnded (.call id) env sv = endRepetition env id (stopChime (.call id) sv) := by
  have still : findCall id (stopChime (.call id) sv) = some k := found
  simp only [chimeEnded, callChimeEnded, sounds, still, playing, phase, none_, Bool.not_true,
    Bool.false_eq_true, ne_eq, not_true, or_self, if_false, if_true]

end chimeEnded

theorem exec_chimeEnd {o : ChimeOwner} {s : State} (h : Still s) :
    exec (.chimeEnd o) s = .next { s with svc := chimeEnded o s.env s.svc }.settled :=
  event_of_work h rfl

/-- R158: the record of the window takes the results of its admission chime. -/
theorem finishAdmitChime_record (env : Env) (a : Aud) (sv : Services) :
    ((finishAdmitChime env a sv).houses.get a).record
      = (sv.houses.get a).record.map (fun w => { w with chimes := some (sv.houses.get a).chimes }) := by
  unfold finishAdmitChime
  dsimp only
  have on := onRouter_releaseAll env (.window a) (stopChime (.window a) sv)
  generalize releaseAll env (.window a) (stopChime (.window a) sv) = t at on ⊢
  have houses : t.houses = sv.houses := on.houses
  rw [updHouse_self, houses]

theorem finishAdmitChime_gone (env : Env) (a : Aud) (sv : Services) (z : ZoneId) :
    (look (finishAdmitChime env a sv).zones z).carries (.window a) = false
      ∧ (look (finishAdmitChime env a sv).zones z).stacks (.window a) = false := by
  unfold finishAdmitChime
  have gone := releaseAll_gone env (.window a) (stopChime (.window a) sv) z
  dsimp only
  generalize releaseAll env (.window a) (stopChime (.window a) sv) = t at gone ⊢
  exact gone

/-- Settles O46: a call's chime ends in a pause or with the repetition (`endRepetition_over`), a
window's as `finishAdmitChime_over` says. -/
theorem chimesEnd : Obligations.ChimesEnd := by
  unfold Obligations.ChimesEnd
  intro s h
  refine ⟨fun o silent => ?silent, fun id k sounds found playing phase => ⟨fun message kept => ?pauses,
    fun none_ => ?ends⟩, fun a sounds => ?window⟩
  case silent => exact event_eq_of_work h (congrArg ({ s with svc := · }) (chimeEnded_silent silent))
  case pauses =>
    refine ⟨_, exec_chimeEnd h, ?_⟩
    rw [chimeEnded_pauses sounds found playing phase message kept]
    exact ⟨findCall_updCall id _ (stopChime (.call id) s.svc) k (fun _ => rfl) found,
      chimeSounds_stopChime _ s.svc, rfl, rfl, rfl, rfl, rfl, rfl⟩
  case ends =>
    refine ⟨_, exec_chimeEnd h, ?_⟩
    rw [chimeEnded_ends sounds found playing phase none_]
    obtain rfl := findCall_id found
    have still : findCall k.desc.callId (stopChime (.call k.desc.callId) s.svc) = some k := found
    have ended := endRepetition_over s.env still
    have silent := ended.silent (chimeSounds_stopChime _ s.svc)
    refine ⟨RepetitionOver.ended ⟨fun last => ?_, ended.more, ended.zones, ended.channels, ended.houses,
      fun _ => silent⟩ rfl rfl rfl rfl, silent⟩
    exact (ended.last last).of_before ⟨fun c mem _ => mem, rfl, rfl, rfl, rfl, rfl, rfl⟩
  case window =>
    refine ⟨_, exec_chimeEnd h, ?_⟩
    have work : chimeEnded (.window a) s.env s.svc = finishAdmitChime s.env a s.svc := if_pos sounds
    rw [work]
    have done := finishAdmitChime_over s.env a s.svc
    obtain ⟨slots, channels, calls, -⟩ := done.rest
    obtain ⟨results, more, house, -⟩ := done.house
    refine ⟨done.silent, fun z => finishAdmitChime_gone s.env a s.svc z, fun w record => ?_,
      (congrArg House.state house :), slots, channels, calls, rfl, rfl, rfl⟩
    exact (finishAdmitChime_record s.env a s.svc).trans (by rw [record]; rfl)

/-! ## Requests about a live call (R130, R132, R139) -/

section requests

variable {env : Env} {id : Nat} {sv : Services}

theorem callRelease_absent (h : findCall id sv = none) : callRelease id sv = (.refuse .absent, sv) := by
  rw [callRelease, h]

theorem callEnd_absent (h : findCall id sv = none) : callEnd env id sv = (.refuse .absent, sv) := by
  rw [callEnd, h]

theorem callCancel_absent (h : findCall id sv = none) :
    callCancel env id sv = (.refuse .absent, sv) := by
  rw [callCancel, h]

variable {k : Call} (found : findCall id sv = some k)
include found

theorem callRelease_state (other : k.state ≠ .parked) :
    callRelease id sv = (.refuse .state, sv) := by
  simp only [callRelease, found, ne_eq, other, not_false_iff, if_true]

theorem callRelease_parked (parked : k.state = .parked) :
    callRelease id sv
      = (.plain .ok [], oweWalk (updCall id (fun c => { c with state := .waiting }) sv)) := by
  simp only [callRelease, found, parked, ne_eq, not_true, if_false]

theorem callEnd_state (h : isMic k.desc.message = false ∨ k.state ≠ .playing) :
    callEnd env id sv = (.refuse .state, sv) := by
  have bad : (!isMic k.desc.message) = true ∨ k.state ≠ .playing := by simpa using h
  simp only [callEnd, found, if_pos bad]

variable (mic : isMic k.desc.message = true) (playing : k.state = .playing)

section mic

include mic playing

/-- R139: during the chime only the message is dropped. -/
theorem callEnd_chime (phase : k.phase = some .chime) :
    callEnd env id sv
      = (.plain .ok [], updCall id (fun c => { c with dropMessage := true }) sv) := by
  simp only [callEnd, found, mic, playing, phase, Bool.not_true, Bool.false_eq_true, ne_eq, not_true,
    or_self, if_false]

theorem callEnd_ends (phase : k.phase ≠ some .chime) :
    callEnd env id sv = (.plain .ok [], endRepetition env id sv) := by
  simp only [callEnd, found, mic, playing, Bool.not_true, Bool.false_eq_true, ne_eq, not_true,
    or_self, if_false]

end mic

theorem callCancel_live : callCancel env id sv = (.plain .ok [], endCall env id .cancelled sv) := by
  simp only [callCancel, found]

end requests

theorem updCall_others {id : Nat} {f : Call → Call} {sv : Services} {c : Call} (mem : c ∈ sv.calls)
    (other : c.desc.callId ≠ id) : c ∈ (updCall id f sv).calls :=
  List.mem_map.2 ⟨c, mem, if_neg other⟩

/-- A service that is accepted answers with what it has left. -/
theorem answerWith_ok {tag : Byte} {kind : RequestKind} {f : Env → Services → Answer × Services}
    {s : State} {bytes : List Byte} {u : Services} (h : f s.env s.svc = (.plain .ok bytes, u)) :
    answerWith tag kind f s = answered tag kind .ok bytes { s with svc := u } := by
  rw [answerWith, h]
  rfl

section answered

variable {k : Call} {outcome : CallOutcome} {s u : State} {tag tag' : Byte} {kind kind' : RequestKind}
  {st : Status} {bytes : List Byte}

theorem callEnded_answered (h : CallEnded k outcome (taken tag kind s) u) :
    CallEnded k outcome s (answered tag' kind' st bytes u) :=
  ⟨h.gone, h.others, h.finished, h.zones, h.notice, h.slot, h.noSlot, h.rest⟩

theorem repetitionEnded_answered (h : RepetitionEnded k (taken tag kind s) u) :
    RepetitionEnded k s (answered tag' kind' st bytes u) :=
  ⟨fun last => callEnded_answered (h.last last), h.more, h.zones, h.rest⟩

end answered

/-! ## The finished list (R129) -/

theorem encodeFinished_eq (r : FinishedRecord) : encodeFinished r = finishedFields r := by
  unfold encodeFinished finishedFields
  cases r.outcome <;> rfl

theorem takeFinished_empty {sv : Services} (h : sv.finished = []) :
    takeFinished sv = (.refuse .empty, sv) := by
  rw [takeFinished, h]

theorem takeFinished_oldest {sv : Services} {r : FinishedRecord} {rest : List FinishedRecord}
    (h : sv.finished = r :: rest) :
    takeFinished sv = (.plain .ok (finishedFields r), { sv with finished := rest }) := by
  rw [takeFinished, h, ← encodeFinished_eq]

/-- Settles O44: each request by the state of its call; a call that ends does so as `endCall_over` and
`endRepetition_over` say. -/
theorem callRequestsAnswer : Obligations.CallRequestsAnswer := by
  unfold Obligations.CallRequestsAnswer
  refine ⟨fun tag id s h => ⟨fun none_ => ?absent, fun k found => ⟨fun other => ?state,
    fun parked => ?released, fun no => ?noEnd, fun mic playing phase => ?dropped,
    fun mic playing phase => ?ended, ?cancelled⟩⟩, fun tag s h => ⟨fun none_ => ?empty,
    fun r rest some_ => ?oldest⟩⟩
  case absent =>
    exact ⟨request_eq_of_work h (answerWith_refuse (s := taken tag .callRelease s)
        (callRelease_absent none_)),
      request_eq_of_work h (answerWith_refuse (s := taken tag .callEnd s) (callEnd_absent none_)),
      request_eq_of_work h (answerWith_refuse (s := taken tag .callCancel s) (callCancel_absent none_))⟩
  case state =>
    exact request_eq_of_work h
      (answerWith_refuse (s := taken tag .callRelease s) (callRelease_state found other))
  case released =>
    exact ⟨_, request_of_work h
        (answerWith_of (s := taken tag .callRelease s) (callRelease_parked found parked)),
      findCall_updCall id _ (taken tag .callRelease s).svc k (fun _ => rfl) found, rfl,
      fun c mem other => updCall_others mem other, reply_mem .., rfl, rfl, rfl, rfl, rfl, rfl, rfl⟩
  case noEnd =>
    exact request_eq_of_work h
      (answerWith_refuse (s := taken tag .callEnd s) (callEnd_state found no))
  case dropped =>
    exact ⟨_, request_eq_of_work h
        (answerWith_of (s := taken tag .callEnd s) (callEnd_chime found mic playing phase)),
      findCall_updCall id _ (taken tag .callEnd s).svc k (fun _ => rfl) found, reply_mem ..,
      rfl, rfl, rfl, rfl, rfl, rfl, rfl⟩
  case ended =>
    have done := (endRepetition_over (taken tag .callEnd s).env
      (show findCall id (taken tag .callEnd s).svc = some k from found)).ended (s := taken tag .callEnd s)
      (u := { taken tag .callEnd s with
        svc := endRepetition (taken tag .callEnd s).env id (taken tag .callEnd s).svc }) rfl rfl rfl rfl
    exact ⟨_, request_of_work h
        (answerWith_of (s := taken tag .callEnd s) (callEnd_ends found mic playing phase)),
      repetitionEnded_answered done, reply_mem ..⟩
  case cancelled =>
    have done := (endCall_over (taken tag .callCancel s).env .cancelled
      (show findCall id (taken tag .callCancel s).svc = some k from found)).ended
      (s := taken tag .callCancel s) (u := { taken tag .callCancel s with
        svc := endCall (taken tag .callCancel s).env id .cancelled (taken tag .callCancel s).svc })
      rfl rfl rfl rfl
    exact ⟨_, request_of_work h
        (answerWith_of (s := taken tag .callCancel s) (callCancel_live found)),
      callEnded_answered done, reply_mem ..⟩
  case empty =>
    exact request_eq_of_work h
      (answerWith_refuse (s := taken tag .callFinished s) (takeFinished_empty none_))
  case oldest =>
    exact request_eq_of_work h
      (answerWith_ok (s := taken tag .callFinished s) (takeFinished_oldest some_))

end Sys2Proof.Proofs.CallWork
end

section
/-! PROOFS. Evaluation walks (R133, R134, R141) and the start claim (R135). -/

namespace Sys2Proof.Proofs.Walks

open Sys2Proof Sys2Proof.Machine Sys2Proof.Laws Sys2Proof.Proofs.Cues Sys2Proof.Proofs.Link
  Sys2Proof.Proofs.ClipArm Sys2Proof.Proofs.Playout Sys2Proof.Proofs.CallEnds
  Sys2Proof.Proofs.CallWork

/-! ## Queue order (R133) -/

theorem queueBefore_iff (a b : Call) : queueBefore a b = true ↔
    b.desc.priority < a.desc.priority
      ∨ (b.desc.priority = a.desc.priority ∧ a.posted ≤ b.posted) := by
  simp [queueBefore]

theorem queueOrder_pairwise (calls : List Call) : (queueOrder calls).Pairwise (fun a b =>
    b.desc.priority < a.desc.priority
      ∨ (b.desc.priority = a.desc.priority ∧ a.posted ≤ b.posted)) := by
  have total : Std.Total (fun a b => queueBefore a b = true) := ⟨fun a b => by
    rw [queueBefore_iff, queueBefore_iff]
    omega⟩
  have trans : IsTrans Call (fun a b => queueBefore a b = true) := ⟨fun a b c => by
    rw [queueBefore_iff, queueBefore_iff, queueBefore_iff]
    omega⟩
  exact (List.pairwise_insertionSort (fun a b => queueBefore a b = true) calls).imp
    (fun {a b} before => (queueBefore_iff a b).1 before)

theorem walk_eq (env : Env) (sv : Services) : walk env sv
    = ((queueOrder sv.calls).foldl (fun acc k => walkCall env sv.walkZones acc k.desc.callId)
        (true, { sv with walkDue := false, walkZones := [] })).2 := by
  unfold walk
  dsimp only
  rw [List.foldl_map]

/-! ## A call's turn (R133, R134) -/

/-- R134: the slot offer of a call's turn. -/
def offered (env : Env) (k : Call) (offering : Bool) (sv : Services) : Bool × Services :=
  match k.desc.message, k.slot with
  | .stream length, none =>
    if (k.state = CallState.parked ∨ k.state = CallState.waiting) ∧ offering then
      offerSlot env k length sv
    else (offering, sv)
  | _, _ => (offering, sv)

section turn

variable {env : Env} {zs : List ZoneId} {offering : Bool} {k : Call} {sv : Services}

/-- R134: the calls to which no slot is offered. -/
theorem offered_none (h : ∀ n, k.desc.message = .stream n → k.slot = none →
      (k.state = .parked ∨ k.state = .waiting) → offering = false) :
    offered env k offering sv = (offering, sv) := by
  unfold offered
  split
  next n message slot =>
    refine if_neg fun ⟨waits, offers⟩ => ?_
    rw [h n message slot waits] at offers
    exact Bool.false_ne_true offers
  next => rfl

theorem offered_stream {n : Nat} (message : k.desc.message = .stream n) (slot : k.slot = none)
    (waits : k.state = .parked ∨ k.state = .waiting) :
    offered env k true sv = offerSlot env k n sv := by
  unfold offered
  rw [message, slot]
  exact if_pos ⟨waits, rfl⟩

/-- R134: S8 is offered before S9. -/
theorem idleCallSlot_none (low : (look sv.slots 8).state ≠ .idle)
    (high : (look sv.slots 9).state ≠ .idle) : idleCallSlot sv = none :=
  (if_neg low).trans (if_neg high)

theorem idleCallSlot_some {i : SlotId} (h : ((look sv.slots 8).state = .idle ∧ i = 8)
      ∨ ((look sv.slots 8).state ≠ .idle ∧ (look sv.slots 9).state = .idle ∧ i = 9)) :
    idleCallSlot sv = some i ∧ (look sv.slots i).state = .idle := by
  rcases h with ⟨low, rfl⟩ | ⟨low, high, rfl⟩
  · exact ⟨if_pos low, low⟩
  · exact ⟨(if_neg low).trans (if_pos high), high⟩

variable (found : findCall k.desc.callId sv = some k)
include found

theorem walkCall_eq : walkCall env zs (offering, sv) k.desc.callId =
    if k.state = .waiting ∧ k.ready = true then
      ((offered env k offering sv).1, startClaim env k (offered env k offering sv).2)
    else if k.state = .playing ∧ (!k.desc.whole) = true then
      ((offered env k offering sv).1,
        zs.foldl (fun s z => lateJoin env k z s) (offered env k offering sv).2)
    else offered env k offering sv := by
  unfold walkCall
  dsimp only
  rw [found]
  rfl

theorem walkCall_waits (h : k.state = .waiting) (ready : k.ready = true) :
    walkCall env zs (offering, sv) k.desc.callId
      = ((offered env k offering sv).1, startClaim env k (offered env k offering sv).2) :=
  (walkCall_eq found).trans (if_pos ⟨h, ready⟩)

theorem walkCall_plays (h : k.state = .playing) (part : k.desc.whole = false) :
    walkCall env zs (offering, sv) k.desc.callId
      = ((offered env k offering sv).1,
        zs.foldl (fun s z => lateJoin env k z s) (offered env k offering sv).2) := by
  rw [walkCall_eq found, if_neg (by simp [h]), if_pos (by simp [h, part])]

theorem walkCall_rests (waits : ¬ (k.state = .waiting ∧ k.ready = true))
    (plays : ¬ (k.state = .playing ∧ k.desc.whole = false)) :
    walkCall env zs (offering, sv) k.desc.callId = offered env k offering sv := by
  rw [walkCall_eq found, if_neg waits, if_neg (by simpa using plays)]

end turn

/-! ## The slot offer (R134) -/

section offer

variable {env : Env} {k : Call} {n : Nat} {sv : Services}

theorem offerSlot_busy (h : idleCallSlot sv = none) : offerSlot env k n sv = (false, sv) := by
  simp only [offerSlot, h]

/-- R134: the arm of an offered slot; a retained one for a call of more repetitions. -/
theorem armSlot_call {i : SlotId} (run : env.run = true) (idle : (look sv.slots i).state = .idle)
    (known : between 1 255 k.desc.callId = true) (long : between 1 1024 n = true) :
    armSlot env i k.desc.callId n (decide (1 < k.desc.repetitions)) sv =
      if sv.free < reserve sv.slots + min 32 n then (.pool, sv)
      else (.ok, putSlot env i
        { armedSlot k.desc.callId n with retain := decide (1 < k.desc.repetitions) } sv) := by
  have length := between_iff.1 long
  have legal : between 1 3750 n = true := between_iff.2 (by omega)
  have held : ¬ slotLimit < n := Nat.not_lt.2 length.2
  simp only [armSlot, run, idle, known, legal, held, Bool.not_true, Bool.and_true, decide_false,
    Bool.and_false, Bool.false_eq_true, ne_eq, not_true, if_false]
  rfl

variable {i : SlotId} (slot : idleCallSlot sv = some i) (run : env.run = true)
  (idle : (look sv.slots i).state = .idle) (known : between 1 255 k.desc.callId = true)
  (long : between 1 1024 n = true)
include slot run idle known long

theorem offerSlot_scarce (h : sv.free < reserve sv.slots + min 32 n) :
    offerSlot env k n sv = (false, sv) := by
  have armed := armSlot_call run idle known long
  rw [if_pos h] at armed
  simp only [offerSlot, slot, armed]

theorem offerSlot_armed (h : reserve sv.slots + min 32 n ≤ sv.free) :
    offerSlot env k n sv = (true, updCall k.desc.callId
      (fun c => { c with slot := some i, filled := false })
      (putSlot env i { armedSlot k.desc.callId n with retain := decide (1 < k.desc.repetitions) } sv)) := by
  have armed := armSlot_call run idle known long
  rw [if_neg (Nat.not_lt.2 h)] at armed
  simp only [offerSlot, slot, armed]

end offer

/-! ## Late joins (R141) -/

theorem callClaim_who (d : CallDesc) : (callClaim d).who = .call d.callId := rfl

section lateJoin

variable {env : Env} {k : Call} {z : ZoneId} {sv : Services}

theorem lateJoin_eq : lateJoin env k z sv =
    if z ∈ k.desc.targets ∧ (look sv.zones z).carries (.call k.desc.callId) = false
      ∧ (look sv.zones z).stacks (.call k.desc.callId) = false
    then (claim env z (callClaim k.desc) sv).2 else sv := by
  unfold lateJoin
  dsimp only
  refine if_congr ?_ rfl rfl
  simp [and_assoc]

end lateJoin

end Sys2Proof.Proofs.Walks
end

section
/-! PROOFS. The start claim of a ready call (R8, R135) and the message phase (R138, R139). -/

namespace Sys2Proof.Proofs.Starts

open Sys2Proof Sys2Proof.Machine Sys2Proof.Laws Sys2Proof.Proofs.Cues Sys2Proof.Proofs.Link
  Sys2Proof.Proofs.ClipArm Sys2Proof.Proofs.Playout Sys2Proof.Proofs.CallEnds
  Sys2Proof.Proofs.CallWork Sys2Proof.Proofs.Walks

/-! ## How a claim is judged (R6) -/

/-- R6: a zone that a claim is granted on, or has already. -/
def canClaim (env : Env) (sv : Services) (c : Claim) (z : ZoneId) : Bool :=
  env.run && ((look sv.zones z).carries c.who
    || (!heldOff (look sv.zones z).holds c && decide ((look sv.zones z).rank < c.rank)))

theorem granted_judgeClaim (env : Env) (sv : Services) (c : Claim) (z : ZoneId) :
    (judgeClaim env c (look sv.zones z)).granted = canClaim env sv c z := by
  unfold judgeClaim canClaim
  rw [heldOff_eq, Bool.and_comm (decide (0 < _))]
  cases env.run
  · rfl
  cases (look sv.zones z).carries c.who
  case true => rfl
  cases (c.isLowCall && decide (0 < (look sv.zones z).holds))
  case true => rfl
  by_cases low : c.rank ≤ (look sv.zones z).rank
  · simp [low, Verdict.granted, Nat.not_lt.2 low]
  · simp [low, Verdict.granted, Nat.not_le.1 low]

/-- R6: a claim that is allowed and not granted anew is one that is held already. -/
theorem carries_of_canClaim {env : Env} {sv : Services} {c : Claim} {z : ZoneId}
    (can : canClaim env sv c z = true) (h : judgeClaim env c (look sv.zones z) ≠ .grant) :
    (look sv.zones z).carries c.who = true := by
  rw [← granted_judgeClaim] at can
  unfold judgeClaim at can h
  split_ifs at can h with config carries
  · exact absurd can (by decide)
  · exact carries
  all_goals simp_all [Verdict.granted]

theorem kindFault_call {env : Env} {z : ZoneId} {c : Claim} {id : Nat} (who : c.who = .call id)
    (h : mayClaim (look env.cfg.zones z) (.call id) = true) : kindFault env z c = false := by
  unfold kindFault
  dsimp only
  rw [who]
  generalize look env.cfg.zones z = k at h
  obtain ⟨kind, _⟩ := k
  cases kind <;> simp_all [mayClaim, kindAllows, takesCalls]

/-! ## A set claim (R8) -/

/-- R8: the answers of a set claim, on the records as they stand. -/
def answersOf (env : Env) (sv : Services) (c : Claim) (zs : List ZoneId) : List (ZoneId × Verdict) :=
  zs.map (fun z => (z, judgeClaim env c (look sv.zones z)))

/-- R8: the grant of one zone of a set claim, as it was decided. -/
def grantStep (env : Env) (sv : Services) (c : Claim) (t : Services) (z : ZoneId) : Services :=
  if judgeClaim env c (look sv.zones z) = .grant then grant env z c t else t

/-- R8: a set claim that is all or none grants nothing when it could not grant all. -/
def setGrants (env : Env) (sv : Services) (c : Claim) (whole : Bool) (zs : List ZoneId) : List ZoneId :=
  if whole && !zs.all (canClaim env sv c) then [] else zs.filter (canClaim env sv c)

/-- R8: the services once the zones that are granted are. -/
def setGranted (env : Env) (sv : Services) (c : Claim) (whole : Bool) (zs : List ZoneId) : Services :=
  if whole && !zs.all (canClaim env sv c) then sv else zs.foldl (grantStep env sv c) sv

section setClaim

variable {env : Env} {sv : Services} {c : Claim} {zs : List ZoneId}

theorem any_refused : (answersOf env sv c zs).any (fun p => !p.2.granted)
    = !zs.all (canClaim env sv c) := by
  rw [answersOf, List.any_map, List.not_all_eq_any_not]
  exact congrArg (zs.any ·) (funext fun z => congrArg not (granted_judgeClaim env sv c z))

theorem setClaim_eq (whole : Bool) (some_ : zs ≠ [])
    (allowed : ∀ z ∈ zs, kindFault env z c = false) :
    setClaim env c whole zs sv = (answersOf env sv c zs, setGranted env sv c whole zs) := by
  have legal : (zs.isEmpty || zs.any (fun z => kindFault env z c)) = false := by
    simpa using ⟨some_, allowed⟩
  unfold setClaim
  rw [legal, if_neg (by decide)]
  have refused : (zs.map (fun z => (z, judgeClaim env c (look sv.zones z)))).any
      (fun p => !p.2.granted) = !zs.all (canClaim env sv c) := any_refused
  dsimp only
  rw [refused, List.foldl_map]
  unfold setGranted
  split <;> rfl

theorem grantedZones_eq (whole : Bool) :
    grantedZones whole (answersOf env sv c zs) = setGrants env sv c whole zs := by
  unfold grantedZones setGrants
  rw [any_refused]
  refine if_congr Iff.rfl rfl ?_
  rw [answersOf, List.filter_map, List.map_map]
  have same : ((fun p : ZoneId × Verdict => p.2.granted) ∘
      fun z => (z, judgeClaim env c (look sv.zones z))) = canClaim env sv c :=
    funext (granted_judgeClaim env sv c)
  rw [same]
  exact List.map_id _

theorem grantStep_onRouter (t : Services) (z : ZoneId) : OnRouter t (grantStep env sv c t z) := by
  unfold grantStep
  split
  · exact onRouter_grant ..
  · exact OnRouter.refl t

theorem setGranted_onRouter (whole : Bool) : OnRouter sv (setGranted env sv c whole zs) := by
  unfold setGranted
  split
  · exact OnRouter.refl sv
  · exact OnRouter.foldl grantStep_onRouter zs sv

/-- R7: a grant leaves the drive fields of every zone. -/
theorem grantStep_drive (t : Services) (z y : ZoneId) :
    (look (grantStep env sv c t z).zones y).drive = (look t.zones y).drive := by
  unfold grantStep
  split
  · by_cases same : y = z
    · subst same
      obtain ⟨-, -, -, -, only⟩ := grant_granted env y c t
      exact only.drive.1
    · rw [zone_grant same]
  · rfl

theorem setGranted_drive (whole : Bool) (y : ZoneId) :
    (look (setGranted env sv c whole zs).zones y).drive = (look sv.zones y).drive := by
  unfold setGranted
  split
  · rfl
  · exact foldl_keeps (fun t : Services => (look t.zones y).drive) _
      (fun t z => grantStep_drive t z y) zs sv

theorem mem_setGrants {whole : Bool} {z : ZoneId} : z ∈ setGrants env sv c whole zs ↔
    (whole = true → zs.all (canClaim env sv c) = true) ∧ z ∈ zs ∧ canClaim env sv c z = true := by
  unfold setGrants
  split
  next none_ =>
    simp only [Bool.and_eq_true, Bool.not_eq_true'] at none_
    simp [none_]
  next all =>
    have every : whole = true → zs.all (canClaim env sv c) = true := by
      intro isWhole
      simpa [isWhole] using all
    rw [List.mem_filter]
    exact ⟨fun h => ⟨every, h⟩, fun h => h.2⟩

/-- R8: the zones that are not granted stay. -/
theorem setGranted_others {whole : Bool} {z : ZoneId} (h : z ∉ setGrants env sv c whole zs) :
    look (setGranted env sv c whole zs).zones z = look sv.zones z := by
  unfold setGranted
  split
  · rfl
  next all =>
    have refused : z ∈ zs → judgeClaim env c (look sv.zones z) ≠ .grant := by
      intro mem grants
      refine h (mem_setGrants.2 ⟨fun isWhole => by simpa [isWhole] using all, mem, ?_⟩)
      rw [← granted_judgeClaim, grants]
      rfl
    refine List.foldlRecOn (motive := fun t : Services => look t.zones z = look sv.zones z) zs
      (grantStep env sv c) rfl fun t same y mem => ?_
    unfold grantStep
    split
    next grants =>
      have ne : z ≠ y := fun e => refused (e ▸ mem) (e ▸ grants)
      rw [zone_grant ne, same]
    · exact same

/-- R8: the claimant has its claim on every zone that is granted. -/
theorem setGranted_carries {whole : Bool} (nodup : zs.Nodup) {z : ZoneId}
    (h : z ∈ setGrants env sv c whole zs) :
    (look (setGranted env sv c whole zs).zones z).carries c.who = true := by
  obtain ⟨every, mem, can⟩ := mem_setGrants.1 h
  have all : ¬ (whole && !zs.all (canClaim env sv c)) = true := by
    intro none_
    rw [Bool.and_eq_true, Bool.not_eq_true'] at none_
    exact Bool.false_ne_true (none_.2.symm.trans (every none_.1))
  rw [setGranted, if_neg all]
  refine foldl_zone (f := grantStep env sv c) (fun t y ne => ?_) (look sv.zones z)
    (fun r => r.carries c.who = true) (fun t same => ?_) zs sv nodup mem rfl
  · unfold grantStep
    split
    · exact zone_grant ne ..
    · rfl
  · unfold grantStep
    split
    · unfold ZoneRecord.carries
      rw [grant_active]
      exact beq_self_eq_true _
    next kept =>
      rw [same]
      exact carries_of_canClaim can kept

end setClaim

/-! ## The message phase (R138, R139) -/

/-- R138, R139: the call's record in MESSAGE. -/
def inMessage (k : Call) : Call :=
  match k.desc.message with
  | .liveMic secs =>
    { k with phase := some .message, breakLeft := none, micLeft := some (secs * 1000) }
  | _ => { k with phase := some .message, breakLeft := none }

theorem startSlot_free (env : Env) (i : SlotId) (loop : Bool) (sv : Services) :
    (startSlot env i loop sv).2.free = sv.free := by
  unfold startSlot
  dsimp only
  split_ifs
  · rfl
  · rfl
  · rfl
  · exact putSlot_free ..

theorem resumeSlot_free (env : Env) (i : SlotId) (sv : Services) :
    (resumeSlot env i sv).2.free = sv.free := by
  unfold resumeSlot
  dsimp only
  split
  · split_ifs
    · exact putSlot_free ..
    · exact putSlot_free ..
    · rfl
  all_goals rfl

/-- R138: what entering MESSAGE leaves: the call's record and its slot apart, nothing. -/
structure MessageBegun (k : Call) (sv u : Services) : Prop where
  found : findCall k.desc.callId u = some (inMessage k)
  others : ∀ c ∈ sv.calls, c.desc.callId ≠ k.desc.callId → c ∈ u.calls
  zones : u.zones = sv.zones
  finished : u.finished = sv.finished
  chimes : u.chimes = sv.chimes
  channels : u.channels = sv.channels
  houses : u.houses = sv.houses
  free : u.free = sv.free

theorem messageBegun_of_onPool {k : Call} {sv t u : Services} (h : MessageBegun k sv t)
    (pool : OnPool t u) (free : u.free = t.free) : MessageBegun k sv u := by
  refine ⟨?_, ?_, pool.zones.trans h.zones, pool.finished.trans h.finished,
    pool.chimes.trans h.chimes, pool.channels.trans h.channels, pool.houses.trans h.houses,
    free.trans h.free⟩
  · rw [findCall, pool.calls]
    exact h.found
  · rw [pool.calls]
    exact h.others

theorem messageBegun_updCall {k : Call} {sv : Services}
    (found : findCall k.desc.callId sv = some k) {f : Call → Call} (desc : ∀ c, (f c).desc = c.desc)
    (h : f k = inMessage k) : MessageBegun k sv (updCall k.desc.callId f sv) :=
  ⟨h ▸ findCall_updCall k.desc.callId f sv k desc found, fun _ mem other => updCall_others mem other,
    rfl, rfl, rfl, rfl, rfl, rfl⟩

/-- R138: the slot of a streamed message starts, or resumes at a later repetition. -/
theorem beginMessage_stream (env : Env) {k : Call} {sv : Services}
    (found : findCall k.desc.callId sv = some k) {n : Nat} {i : SlotId}
    (message : k.desc.message = .stream n) (slot : k.slot = some i) :
    ∃ t : Services, MessageBegun k sv t ∧ t.slots = sv.slots
      ∧ beginMessage env k.desc.callId sv
        = if k.done = 0 then (startSlot env i false t).2 else (resumeSlot env i t).2 := by
  refine ⟨updCall k.desc.callId (fun c => { c with phase := some .message, breakLeft := none }) sv,
    messageBegun_updCall found (fun _ => rfl) ?_, rfl, ?_⟩
  · rw [inMessage, message]
  · simp only [beginMessage, found, message, slot]

theorem beginMessage_begun (env : Env) {k : Call} {sv : Services}
    (found : findCall k.desc.callId sv = some k) :
    MessageBegun k sv (beginMessage env k.desc.callId sv) := by
  cases message : k.desc.message with
  | liveMic secs =>
    simp only [beginMessage, found, message]
    exact messageBegun_updCall found (fun _ => rfl) (by rw [inMessage, message])
  | noMessage =>
    simp only [beginMessage, found, message]
    exact messageBegun_updCall found (fun _ => rfl) (by rw [inMessage, message])
  | stream n =>
    cases slot : k.slot with
    | none =>
      simp only [beginMessage, found, message, slot]
      exact messageBegun_updCall found (fun _ => rfl) (by rw [inMessage, message])
    | some i =>
      obtain ⟨t, begun, -, eq⟩ := beginMessage_stream env found message slot
      rw [eq]
      split
      · exact messageBegun_of_onPool begun (onPool_startSlot ..) (startSlot_free ..)
      · exact messageBegun_of_onPool begun (onPool_resumeSlot ..) (resumeSlot_free ..)

end Sys2Proof.Proofs.Starts
end

section
/-! PROOFS. The start of a call (R135) and the timers of calls (R131, R136, R139, R143). -/

namespace Sys2Proof.Proofs.CallTimers

open Sys2Proof Sys2Proof.Machine Sys2Proof.Laws Sys2Proof.Proofs.Cues Sys2Proof.Proofs.Link
  Sys2Proof.Proofs.ClipArm Sys2Proof.Proofs.Playout Sys2Proof.Proofs.CallEnds
  Sys2Proof.Proofs.CallWork Sys2Proof.Proofs.Walks Sys2Proof.Proofs.Starts

/-! ## The start of a call (R135) -/

/-- R135: the call's record once its start claim is granted on some zones. -/
def startedCall (zones : List ZoneId) (now : Nat) (c : Call) : Call :=
  { c with
    state := .playing, unbroken := zones, dropMessage := false
    firstStart := match c.firstStart with | some t => some t | none => some now
    expiryLeft := none, spacingLeft := none }

section start

variable {env : Env} {k : Call} {sv : Services}

theorem setGranted_none {c : Claim} {whole : Bool} {zs : List ZoneId}
    (h : setGrants env sv c whole zs = []) : setGranted env sv c whole zs = sv := by
  unfold setGranted
  split
  · rfl
  next all =>
    refine List.foldlRecOn (motive := fun t => t = sv) zs (grantStep env sv c) rfl
      fun t same y mem => ?_
    refine (if_neg fun grants => ?_ : grantStep env sv c t y = t).trans same
    have granted : y ∈ setGrants env sv c whole zs := by
      refine mem_setGrants.2 ⟨fun isWhole => by simpa [isWhole] using all, mem, ?_⟩
      rw [← granted_judgeClaim, grants]
      rfl
    rw [h] at granted
    exact List.not_mem_nil granted

variable (allowed : ∀ z ∈ k.desc.targets,
  mayClaim (look env.cfg.zones z) (.call k.desc.callId) = true)
include allowed

theorem setClaim_call (some_ : k.desc.targets ≠ []) :
    setClaim env (callClaim k.desc) k.desc.whole k.desc.targets sv
      = (answersOf env sv (callClaim k.desc) k.desc.targets,
        setGranted env sv (callClaim k.desc) k.desc.whole k.desc.targets) :=
  setClaim_eq k.desc.whole some_ fun z mem => kindFault_call rfl (allowed z mem)

theorem startClaim_none (none_ : setGrants env sv (callClaim k.desc) k.desc.whole k.desc.targets = []) :
    startClaim env k sv = sv := by
  unfold startClaim
  by_cases empty : k.desc.targets = []
  · rw [empty]
    cases k.desc.whole <;> rfl
  · rw [setClaim_call allowed empty]
    dsimp only
    rw [grantedZones_eq, none_]
    exact setGranted_none none_

theorem startClaim_starts
    (some_ : setGrants env sv (callClaim k.desc) k.desc.whole k.desc.targets ≠ []) :
    startClaim env k sv = beginRepetition env k.desc.callId (updCall k.desc.callId
      (startedCall (hearable env (setGranted env sv (callClaim k.desc) k.desc.whole k.desc.targets)
          (setGrants env sv (callClaim k.desc) k.desc.whole k.desc.targets))
        (setGranted env sv (callClaim k.desc) k.desc.whole k.desc.targets).callClock)
      (setGranted env sv (callClaim k.desc) k.desc.whole k.desc.targets)) := by
  have targets : k.desc.targets ≠ [] := by
    intro empty
    refine some_ ?_
    rw [empty, setGrants]
    exact ite_self _
  unfold startClaim
  rw [setClaim_call allowed targets]
  dsimp only
  rw [grantedZones_eq]
  generalize setGrants env sv (callClaim k.desc) k.desc.whole k.desc.targets = granted at some_ ⊢
  cases granted with
  | nil => exact absurd rfl some_
  | cons z zs => rfl

end start

/-! ## The first phase (R136) -/

section beginRepetition

variable {env : Env} {k : Call} {sv : Services} (found : findCall k.desc.callId sv = some k)
include found

theorem beginRepetition_message (chime : k.desc.chime = .noChime) :
    beginRepetition env k.desc.callId sv = beginMessage env k.desc.callId sv := by
  simp only [beginRepetition, found, chime, if_true]

theorem beginRepetition_chime (chime : k.desc.chime ≠ .noChime) :
    beginRepetition env k.desc.callId sv = startChime (.call k.desc.callId) k.desc.chime
      (updCall k.desc.callId (fun c => { c with phase := some .chime }) sv) := by
  simp only [beginRepetition, found, chime, if_false]

end beginRepetition

/-- What the first phase of a repetition leaves: the call's record, its slot and the chimes apart,
nothing. -/
structure RepetitionBegun (k : Call) (sv u : Services) : Prop where
  found : ∃ p, findCall k.desc.callId u = some p
    ∧ p = { k with phase := p.phase, breakLeft := p.breakLeft, micLeft := p.micLeft }
    ∧ (k.desc.chime ≠ .noChime → p.phase = some .chime ∧ u.slots = sv.slots
        ∧ u.chimes = sv.chimes ++ [{ owner := .call k.desc.callId, chime := k.desc.chime
                                     left := chimeLength k.desc.chime }])
    ∧ (k.desc.chime = .noChime → p.phase = some .message ∧ u.chimes = sv.chimes
        ∧ ∀ n, k.desc.message = .liveMic n → p.micLeft = some (n * 1000))
  others : ∀ c ∈ sv.calls, c.desc.callId ≠ k.desc.callId → c ∈ u.calls
  zones : u.zones = sv.zones
  channels : u.channels = sv.channels
  houses : u.houses = sv.houses
  free : u.free = sv.free

theorem inMessage_same (k : Call) : inMessage k = { k with
    phase := (inMessage k).phase, breakLeft := (inMessage k).breakLeft, micLeft := (inMessage k).micLeft }
    ∧ (inMessage k).phase = some .message ∧ (inMessage k).breakLeft = none
    ∧ ∀ n, k.desc.message = .liveMic n → (inMessage k).micLeft = some (n * 1000) := by
  unfold inMessage
  cases message : k.desc.message with
  | liveMic n =>
    refine ⟨rfl, rfl, rfl, fun m same => ?_⟩
    cases same
    rfl
  | _ => exact ⟨rfl, rfl, rfl, fun _ other => nomatch other⟩

theorem beginRepetition_begun (env : Env) {k : Call} {sv : Services}
    (found : findCall k.desc.callId sv = some k) :
    RepetitionBegun k sv (beginRepetition env k.desc.callId sv) := by
  by_cases chime : k.desc.chime = .noChime
  · rw [beginRepetition_message found chime]
    have begun := beginMessage_begun env found
    obtain ⟨same, phase, -, mic⟩ := inMessage_same k
    exact ⟨⟨_, begun.found, same, fun other => absurd chime other, fun _ => ⟨phase, begun.chimes, mic⟩⟩,
      begun.others, begun.zones, begun.channels, begun.houses, begun.free⟩
  · rw [beginRepetition_chime found chime]
    exact ⟨⟨_, findCall_updCall k.desc.callId _ sv k (fun _ => rfl) found, rfl,
        fun _ => ⟨rfl, rfl, rfl⟩, fun none_ => absurd none_ chime⟩,
      fun _ mem other => updCall_others mem other, rfl, rfl, rfl, rfl⟩

/-! ## Timers (R131, R136, R139, R143) -/

section timers

variable {env : Env} {id : Nat} {sv : Services}

theorem callExpired_none (h : ∀ k, findCall id sv = some k → k.expiryLeft = none) :
    callExpired env id sv = sv := by
  unfold callExpired
  cases found : findCall id sv with
  | none => rfl
  | some k => exact if_neg (by simp [h k found])

theorem spacingExpired_none (h : ∀ k, findCall id sv = some k → k.state ≠ .spacing) :
    spacingExpired id sv = sv := by
  unfold spacingExpired
  cases found : findCall id sv with
  | none => rfl
  | some k => exact if_neg (h k found)

theorem breakExpired_none
    (h : ∀ k, findCall id sv = some k → k.state ≠ .playing ∨ k.phase ≠ some .pause) :
    breakExpired env id sv = sv := by
  unfold breakExpired
  cases found : findCall id sv with
  | none => rfl
  | some k => exact if_neg fun ⟨playing, pause⟩ => (h k found).elim (· playing) (· pause)

theorem micExpired_none
    (h : ∀ k, findCall id sv = some k → k.state ≠ .playing ∨ k.micLeft ≠ some 0) :
    micExpired env id sv = sv := by
  unfold micExpired
  cases found : findCall id sv with
  | none => rfl
  | some k => exact if_neg fun ⟨playing, out⟩ => (h k found).elim (· playing) (· out)

variable {k : Call} (found : findCall id sv = some k)
include found

theorem callExpired_ends (runs : k.expiryLeft.isSome) :
    callExpired env id sv = endCall env id .expired sv := by
  simp only [callExpired, found, runs, if_true]

theorem spacingExpired_waits (spacing : k.state = .spacing) :
    spacingExpired id sv
      = oweWalk (updCall id (fun c => { c with state := .waiting, spacingLeft := none }) sv) := by
  simp only [spacingExpired, found, spacing, if_true]

theorem breakExpired_message (playing : k.state = .playing) (pause : k.phase = some .pause) :
    breakExpired env id sv = beginMessage env id sv := by
  simp only [breakExpired, found, playing, pause, and_self, if_true]

theorem micExpired_ends (playing : k.state = .playing) (out : k.micLeft = some 0) :
    micExpired env id sv = endRepetition env id sv := by
  simp only [micExpired, found, playing, out, and_self, if_true]

end timers

/-- R91: a filled slot starts. -/
theorem startSlot_plays (env : Env) {i : SlotId} {sv : Services}
    (loading : (look sv.slots i).state = .loading)
    (filled : (look sv.slots i).prefill ≤ (look sv.slots i).held.length) :
    (look (startSlot env i false sv).2.slots i).state = .playing := by
  simp only [startSlot, loading, Nat.not_lt.2 filled, Bool.false_and, Bool.false_eq_true, ne_eq,
    not_true, if_false, putSlot_slots, look_put_self]

/-- R97: a paused slot with a block ahead resumes. -/
theorem resumeSlot_plays (env : Env) {i : SlotId} {sv : Services}
    (paused : (look sv.slots i).state = .paused) (ahead : 0 < (look sv.slots i).ahead) :
    (look (resumeSlot env i sv).2.slots i).state = .playing := by
  simp only [resumeSlot, paused, ahead, if_true, putSlot_slots, look_put_self]

section exec

variable {id : Nat} {s : State} (h : Still s)
include h

theorem exec_callExpiry :
    exec (.callExpiry id) s = .next { s with svc := callExpired s.env id s.svc }.settled :=
  event_of_work h rfl

theorem exec_spacingExpiry :
    exec (.spacingExpiry id) s = .next { s with svc := spacingExpired id s.svc }.settled :=
  event_of_work h rfl

theorem exec_breakExpiry :
    exec (.breakExpiry id) s = .next { s with svc := breakExpired s.env id s.svc }.settled :=
  event_of_work h rfl

theorem exec_micTimerExpiry :
    exec (.micTimerExpiry id) s = .next { s with svc := micExpired s.env id s.svc }.settled :=
  event_of_work h rfl

end exec

end Sys2Proof.Proofs.CallTimers
end

section
/-! PROOFS. The timers of calls and the evaluation of the queue (R131, R133-R136, R141, R143). -/

namespace Sys2Proof.Proofs.CallQueue

open Sys2Proof Sys2Proof.Machine Sys2Proof.Laws Sys2Proof.Proofs.Cues Sys2Proof.Proofs.Link
  Sys2Proof.Proofs.ClipArm Sys2Proof.Proofs.Playout Sys2Proof.Proofs.CallEnds
  Sys2Proof.Proofs.CallWork Sys2Proof.Proofs.Walks Sys2Proof.Proofs.Starts Sys2Proof.Proofs.CallTimers

/-- R138, R139: what the end of a break leaves of its call and of the slot of its message. -/
theorem breakExpiry_acts {id : Nat} {s : State} (h : Still s) {k : Call}
    (found : findCall id s.svc = some k) (playing : k.state = .playing)
    (pause : k.phase = some .pause) :
    ∃ u : State, exec (.breakExpiry id) s = .next u.settled
      ∧ (∃ c, findCall id u.svc = some c ∧ c.desc = k.desc ∧ c.state = .playing
          ∧ c.phase = some .message ∧ c.breakLeft = none ∧ c.done = k.done
          ∧ (∀ n, k.desc.message = .liveMic n → c.micLeft = some (n * 1000)))
      ∧ (∀ n i, k.desc.message = .stream n → k.slot = some i →
          (k.done = 0 → (look s.svc.slots i).state = .loading →
            (look s.svc.slots i).prefill ≤ (look s.svc.slots i).held.length →
            (look u.svc.slots i).state = .playing)
          ∧ (k.done ≠ 0 → (look s.svc.slots i).state = .paused → 0 < (look s.svc.slots i).ahead →
            (look u.svc.slots i).state = .playing))
      ∧ u.svc.zones = s.svc.zones ∧ u.svc.finished = s.svc.finished ∧ u.control = s.control
      ∧ u.cue = s.cue ∧ u.sup = s.sup := by
  refine ⟨_, exec_breakExpiry h, ?_⟩
  rw [breakExpired_message found playing pause]
  obtain rfl := findCall_id found
  have begun := beginMessage_begun s.env found
  obtain ⟨same, phase, noBreak, mic⟩ := inMessage_same k
  refine ⟨⟨_, begun.found, ?_, ?_, phase, noBreak, ?_, mic⟩, fun n i message slot => ?_, begun.zones,
    begun.finished, rfl, rfl, rfl⟩
  · rw [same]
  · rw [same, ← playing]
  · rw [same]
  · obtain ⟨t, -, slots, eq⟩ := beginMessage_stream s.env found message slot
    refine ⟨fun first loading filled => ?_, fun later paused ahead => ?_⟩
    · rw [← slots] at loading filled
      dsimp only
      rw [eq, if_pos first]
      exact startSlot_plays s.env loading filled
    · rw [← slots] at paused ahead
      dsimp only
      rw [eq, if_neg later]
      exact resumeSlot_plays s.env paused ahead

/-- R135: a call whose start claim is granted on some zones starts there. -/
theorem startClaim_granted {env : Env} {k : Call} {sv : Services}
    (found : findCall k.desc.callId sv = some k) (nodup : k.desc.targets.Nodup)
    (allowed : ∀ z ∈ k.desc.targets, mayClaim (look env.cfg.zones z) (.call k.desc.callId) = true)
    {granted : List ZoneId}
    (eq : setGrants env sv (callClaim k.desc) k.desc.whole k.desc.targets = granted)
    (some_ : granted ≠ []) :
    let u := startClaim env k sv
    (∃ p, findCall k.desc.callId u = some p ∧ p.desc = k.desc ∧ p.state = .playing
      ∧ p.unbroken = granted.filter (fun z =>
          !(look env.cfg.zones z).mute && (look sv.zones z).drive != .failed)
      ∧ p.heard = k.heard ∧ p.done = k.done ∧ p.slot = k.slot
      ∧ p.firstStart = (if k.firstStart = none then some sv.callClock else k.firstStart)
      ∧ p.expiryLeft = none ∧ p.spacingLeft = none
      ∧ (k.desc.chime ≠ .noChime → p.phase = some .chime ∧ u.slots = sv.slots
          ∧ u.chimes = sv.chimes ++ [{ owner := .call k.desc.callId, chime := k.desc.chime
                                       left := chimeLength k.desc.chime }])
      ∧ (k.desc.chime = .noChime → p.phase = some .message ∧ u.chimes = sv.chimes
          ∧ ∀ n, k.desc.message = .liveMic n → p.micLeft = some (n * 1000)))
    ∧ (∀ z ∈ granted, (look u.zones z).carries (.call k.desc.callId) = true)
    ∧ (∀ z, z ∉ granted → look u.zones z = look sv.zones z)
    ∧ (∀ x ∈ sv.calls, x.desc.callId ≠ k.desc.callId → x ∈ u.calls)
    ∧ u.channels = sv.channels ∧ u.houses = sv.houses ∧ u.free = sv.free := by
  intro u
  have starts := startClaim_starts (sv := sv) allowed (eq.symm ▸ some_)
  rw [eq] at starts
  have router := setGranted_onRouter (env := env) (sv := sv) (c := callClaim k.desc)
    (zs := k.desc.targets) k.desc.whole
  have drive := fun z => setGranted_drive (env := env) (sv := sv) (c := callClaim k.desc)
    (zs := k.desc.targets) k.desc.whole z
  have carries := fun z mem => setGranted_carries (env := env) (sv := sv) (c := callClaim k.desc)
    (whole := k.desc.whole) nodup (z := z) (eq.symm ▸ mem)
  have others := fun z out => setGranted_others (env := env) (sv := sv) (c := callClaim k.desc)
    (whole := k.desc.whole) (zs := k.desc.targets) (z := z) (eq.symm ▸ out)
  generalize setGranted env sv (callClaim k.desc) k.desc.whole k.desc.targets = t
    at starts router drive carries others
  have hears : hearable env t granted = granted.filter (fun z =>
      !(look env.cfg.zones z).mute && (look sv.zones z).drive != .failed) :=
    List.filter_congr fun z _ => by rw [drive z]
  have first : findCall k.desc.callId (updCall k.desc.callId
      (startedCall (hearable env t granted) t.callClock) t)
      = some (startedCall (hearable env t granted) t.callClock k) := by
    refine findCall_updCall k.desc.callId _ t k (fun _ => rfl) ?_
    rw [findCall, router.calls]
    exact found
  have begun := beginRepetition_begun env (k := startedCall (hearable env t granted) t.callClock k) first
  have same : u = beginRepetition env k.desc.callId (updCall k.desc.callId
      (startedCall (hearable env t granted) t.callClock) t) := starts
  rw [same]
  obtain ⟨p, found', record, chime, message⟩ := begun.found
  refine ⟨⟨p, found', ?_, ?_, ?_, ?_, ?_, ?_, ?_, ?_, ?_, fun sounds => ?_, fun none_ => ?_⟩,
    fun z mem => ?_, fun z out => ?_, fun x mem other => ?_, begun.channels.trans router.channels,
    begun.houses.trans router.houses, begun.free.trans router.free⟩
  · rw [record]; rfl
  · rw [record]; rfl
  · rw [record]
    exact hears
  · rw [record]; rfl
  · rw [record]; rfl
  · rw [record]; rfl
  · rw [record, ← router.callClock]
    unfold startedCall
    cases k.firstStart <;> rfl
  · rw [record]; rfl
  · rw [record]; rfl
  · obtain ⟨phase, slots, chimes⟩ := chime sounds
    exact ⟨phase, slots.trans router.slots, chimes.trans (congrArg (· ++ _) router.chimes)⟩
  · obtain ⟨phase, chimes, mic⟩ := message none_
    exact ⟨phase, chimes.trans router.chimes, mic⟩
  · exact (congrArg (fun zs => (look zs z).carries (.call k.desc.callId)) begun.zones).trans
      (carries z mem)
  · exact (congrArg (look · z) begun.zones).trans (others z out)
  · exact begun.others x (updCall_others (by rw [router.calls]; exact mem) other) other

/-- R134: a call to which the walk offers no slot. -/
theorem not_ready_of_stream {k : Call} {n : Nat} (message : k.desc.message = .stream n)
    (h : k.state = .parked ∨ (k.state = .waiting ∧ k.filled = false)) :
    ¬ (k.state = .waiting ∧ k.ready = true) := by
  rintro ⟨waiting, ready⟩
  rcases h with parked | ⟨-, unfilled⟩
  · exact absurd (parked.symm.trans waiting) (by decide)
  · simp [Call.ready, message, unfilled] at ready

theorem not_playing_of_waits {k : Call} (h : k.state = .parked ∨ (k.state = .waiting ∧ k.filled = false)) :
    ¬ (k.state = .playing ∧ k.desc.whole = false) := by
  rintro ⟨playing, -⟩
  rcases h with parked | ⟨waiting, -⟩
  · exact absurd (parked.symm.trans playing) (by decide)
  · exact absurd (waiting.symm.trans playing) (by decide)

theorem ready_of_filled {k : Call}
    (h : ∀ n, k.desc.message = .stream n → k.slot.isSome ∧ k.filled = true) : k.ready = true := by
  unfold Call.ready
  split
  · rfl
  · rfl
  next n message => simp [h n message]

/-- Settles O45: each timer by its call; a turn of the walk is `offered`, then the start claim or the
late joins; a start claim grants as `setGranted_carries` says. -/
theorem callTimersAct : Obligations.CallTimersAct := by
  unfold Obligations.CallTimersAct
  refine ⟨fun id s h => ⟨fun none_ => ?expiryNone, fun k found runs => ?expiry, fun none_ => ?spacingNone,
    fun k found spacing => ?spacing, fun none_ => ?breakNone,
    fun k found playing pause => breakExpiry_acts h found playing pause, fun none_ => ?micNone,
    fun k found playing out => ?mic⟩,
    fun calls => ⟨List.perm_insertionSort _ calls, queueOrder_pairwise calls⟩, walk_eq,
    fun env zs offering k sv found => ?turn, fun env k sv found nodup allowed => ?start,
    fun env k z sv => ⟨fun apart => lateJoin_eq.trans (if_neg apart), fun apart => ?joins⟩⟩
  case expiryNone => exact event_eq_of_work h (congrArg ({ s with svc := · }) (callExpired_none none_))
  case spacingNone => exact event_eq_of_work h (congrArg ({ s with svc := · }) (spacingExpired_none none_))
  case breakNone => exact event_eq_of_work h (congrArg ({ s with svc := · }) (breakExpired_none none_))
  case micNone => exact event_eq_of_work h (congrArg ({ s with svc := · }) (micExpired_none none_))
  case expiry =>
    refine ⟨_, exec_callExpiry h, ?_⟩
    rw [callExpired_ends found runs]
    exact (endCall_over s.env .expired found).ended rfl rfl rfl rfl
  case spacing =>
    refine ⟨_, exec_spacingExpiry h, ?_⟩
    rw [spacingExpired_waits found spacing]
    exact ⟨findCall_updCall id _ s.svc k (fun _ => rfl) found, rfl, rfl, rfl, rfl, rfl, rfl, rfl⟩
  case mic =>
    refine ⟨_, exec_micTimerExpiry h, ?_⟩
    rw [micExpired_ends found playing out]
    exact (endRepetition_over s.env found).ended rfl rfl rfl rfl
  case turn =>
    refine ⟨fun spacing => ?rests, fun n waits message => ⟨fun unoffered => ?unoffered,
      fun offers slot low high => ?busy, fun i offers slot idle run known long => ?armed⟩,
      fun parked other => ?parked, fun waiting filled => ?ready, fun playing => ?plays⟩
    case rests =>
      rw [walkCall_rests found (by simp [spacing]) (by simp [spacing])]
      exact offered_none fun _ _ _ waits => absurd waits (by simp [spacing])
    case parked =>
      rw [walkCall_rests found (by simp [parked]) (by simp [parked])]
      exact offered_none fun n message _ _ => absurd message (other n)
    case ready =>
      have none_ : offered env k offering sv = (offering, sv) := offered_none fun n message slot _ =>
        absurd (filled n message).1 (by simp [slot])
      rw [walkCall_waits found waiting (ready_of_filled filled), none_]
    case plays =>
      have none_ : offered env k offering sv = (offering, sv) :=
        offered_none fun _ _ _ waits => absurd waits (by simp [playing])
      cases whole : k.desc.whole with
      | true =>
        rw [walkCall_rests found (by simp [playing]) (by simp [whole]), none_]
        rfl
      | false =>
        rw [walkCall_plays found playing whole, none_]
        rfl
    case unoffered =>
      rw [walkCall_rests found (not_ready_of_stream message waits) (not_playing_of_waits waits)]
      refine offered_none fun _ _ slot _ => unoffered.resolve_right ?_
      simp [slot]
    case busy =>
      rw [walkCall_rests found (not_ready_of_stream message waits) (not_playing_of_waits waits), offers,
        offered_stream message slot (waits.imp_right And.left)]
      exact offerSlot_busy (idleCallSlot_none low high)
    case armed =>
      obtain ⟨offer, isIdle⟩ := idleCallSlot_some idle
      have turn : walkCall env zs (offering, sv) k.desc.callId = offerSlot env k n sv := by
        rw [walkCall_rests found (not_ready_of_stream message waits) (not_playing_of_waits waits), offers,
          offered_stream message slot (waits.imp_right And.left)]
      refine ⟨fun scarce => turn.trans (offerSlot_scarce offer run isIdle known long scarce),
        fun room => ?_⟩
      rw [turn, offerSlot_armed offer run isIdle known long room]
      have on := onPool_putSlot env i
        { armedSlot k.desc.callId n with retain := decide (1 < k.desc.repetitions) } sv
      refine ⟨rfl, ?_, putSlot_slots .., putSlot_free .., on.zones, on.channels⟩
      exact congrArg (List.map _) on.calls
  case start =>
    refine ⟨rfl, fun legal => ?_, fun none_ => startClaim_none allowed none_,
      fun some_ => startClaim_granted found nodup allowed rfl some_⟩
    unfold callClaim
    generalize k.desc.priority = p at legal
    interval_cases p <;> rfl
  case joins =>
    have joins := lateJoin_eq (env := env).trans (if_pos apart)
    refine ⟨joins, ?_⟩
    rw [joins]
    exact (onRouter_claim env z (callClaim k.desc) sv).calls

end Sys2Proof.Proofs.CallQueue
end

section
/-! PROOFS. When the head of a channel is loaded (R85, R106, R107). -/

namespace Sys2Proof.Proofs.Loading

open Sys2Proof Sys2Proof.Machine Sys2Proof.Laws Sys2Proof.Proofs.Cues Sys2Proof.Proofs.Link
  Sys2Proof.Proofs.Passes Sys2Proof.Proofs.Streams Sys2Proof.Proofs.ClipArm Sys2Proof.Proofs.Playout Sys2Proof.Proofs.ClipEnds

/-! ## Feed wanted (R89) -/

/-- R89: what it is to want feed. -/
theorem wants_iff (sl : Slot) : sl.wants = true ↔
    (sl.state = .loading ∨ sl.state = .playing ∨ sl.state = .starved)
      ∧ 0 < sl.toReceive ∧ sl.held.length < 64 := by
  simp only [Slot.wants, Bool.and_eq_true, Bool.or_eq_true, beq_iff_eq, decide_eq_true_eq, and_assoc,
    or_assoc]
  exact Iff.rfl

/-- R89: a slot that begins to want feed raises FEED. -/
theorem putSlot_kinds (env : Env) {i : SlotId} {new : Slot} {sv : Services}
    (wants : new.wants = true) (before : (look sv.slots i).wants = false) :
    (putSlot env i new sv).link.pendingKinds = sv.link.pendingKinds ||| 0x0020 := by
  unfold putSlot
  rw [wants, before]
  exact raise_kinds env .feed _

theorem putSlot_same (env : Env) {i : SlotId} {new : Slot} {sv : Services}
    (h : new.wants = false ∨ (look sv.slots i).wants = true) :
    putSlot env i new sv = { sv with slots := put sv.slots i new } := by
  refine putSlot_of_wants env fun wants => ?_
  rcases h with no | before
  · exact absurd wants (by simp [no])
  · exact before

/-! ## A head that can be loaded (R106, R107) -/

/-- R106, R107: the unloaded head of channel `d` can be armed into slot `i`, said of the services. -/
structure Loadable (env : Env) (d : ChannelId) (head : ClipDesc) (i : SlotId) (sv : Services) : Prop where
  run : env.run = true
  queued : (look sv.channels d).queue.head? = some head
  unloaded : (look sv.channels d).headSlot = none
  slot : idleSlot sv d = some i
  inRange : ArmInRange head
  room : reserve sv.slots + min 32 head.length ≤ sv.free

theorem canLoad_iff {d : ChannelId} {head : ClipDesc} {i : SlotId} {s : State} {env : Env}
    (run : env.run = s.control.running) :
    CanLoad d head i s ↔ Loadable env d head i s.svc := by
  constructor
  · intro h
    obtain ⟨id, length⟩ := h.legal
    exact ⟨run.trans h.running, h.queued, h.unloaded, h.slot,
      ⟨between_iff.1 id, between_iff.1 length⟩, h.room⟩
  · intro h
    exact ⟨run.symm.trans h.run, h.queued, h.unloaded, h.slot,
      ⟨between_iff.2 h.inRange.id, between_iff.2 h.inRange.length⟩, h.room⟩

section loadHead

variable {env : Env} {d : ChannelId} {sv : Services}

theorem loadHead_loadable {head : ClipDesc} {i : SlotId} (h : Loadable env d head i sv) :
    loadHead env d sv = headLoaded env d i head sv := by
  obtain ⟨rest, queue⟩ : ∃ rest, (look sv.channels d).queue = head :: rest := by
    cases queue : (look sv.channels d).queue with
    | nil => exact absurd (queue ▸ h.queued) (by simp)
    | cons q rest =>
      have same : some q = some head := by
        rw [← h.queued, queue]
        rfl
      exact ⟨rest, by rw [Option.some.inj same]⟩
  exact loadHead_armed env d sv queue h.unloaded h.slot h.run
    (armSlot_ok h.run (idle_of_idleSlot h.slot) h.inRange.id h.inRange.length h.room)

/-- R85: what an arm that is accepted has been checked for. -/
theorem armable_of_ok {i : SlotId} {tag length : Nat} {u : Services}
    (h : armSlot env i tag length false sv = (.ok, u)) :
    (1 ≤ tag ∧ tag ≤ 255) ∧ (1 ≤ length ∧ length ≤ 3750)
      ∧ reserve sv.slots + min 32 length ≤ sv.free := by
  unfold armSlot at h
  split_ifs at h with config busy range long scarce
  · simp at h
  · simp at h
  · simp at h
  · simp at h
  · simp at h
  · rw [Bool.not_eq_true', Bool.not_eq_false, Bool.and_eq_true, between_iff, between_iff] at range
    exact ⟨range.1, range.2, Nat.not_lt.1 scarce⟩

/-- R107: a try that finds nothing to load, or no room, changes nothing. -/
theorem loadHead_unloadable (h : ∀ head i, ¬ Loadable env d head i sv) : loadHead env d sv = sv := by
  cases queue : (look sv.channels d).queue with
  | nil => simp only [loadHead, queue]
  | cons head rest =>
    cases unloaded : (look sv.channels d).headSlot with
    | some j => simp only [loadHead, queue, unloaded]
    | none =>
      cases slot : idleSlot sv d with
      | none => simp only [loadHead, queue, unloaded, slot]
      | some i =>
        cases run : env.run with
        | false => simp only [loadHead, queue, unloaded, slot, run, Bool.false_eq_true, if_false]
        | true =>
          have refused : ∃ st, st ≠ .ok ∧ armSlot env i head.clipId head.length false sv = (st, sv) := by
            rcases armSlot_cases env i head.clipId head.length sv with refused | armed
            · exact refused
            · obtain ⟨id, length, room⟩ := armable_of_ok armed
              exact absurd ⟨run, by rw [queue]; rfl, unloaded, slot, ⟨id, length⟩, room⟩ (h head i)
          obtain ⟨st, notOk, unarmed⟩ := refused
          simp only [loadHead, queue, unloaded, slot, run, unarmed, if_true]

theorem loadHead_turn : loadHead env d sv = sv
    ∨ ∃ i head, Loadable env d head i sv ∧ loadHead env d sv = headLoaded env d i head sv := by
  by_cases h : ∃ head i, Loadable env d head i sv
  · obtain ⟨head, i, loadable⟩ := h
    exact .inr ⟨i, head, loadable, loadHead_loadable loadable⟩
  · exact .inl (loadHead_unloadable fun head i loadable => h ⟨head, i, loadable⟩)

end loadHead

/-! ## What a loaded head leaves (R89, R106) -/

section headLoaded

variable {env : Env} {d : ChannelId} {i : SlotId} {head : ClipDesc} {sv : Services}

theorem headLoaded_slots :
    (headLoaded env d i head sv).slots = put sv.slots i (armedSlot head.clipId head.length) :=
  putSlot_slots ..

theorem headLoaded_channels : (headLoaded env d i head sv).channels
    = put sv.channels d { look sv.channels d with headSlot := some i, headFilled := false } :=
  congrArg (put · d _) (onPool_putSlot ..).channels

theorem headLoaded_free : (headLoaded env d i head sv).free = sv.free := putSlot_free ..

/-- R89: the slot armed for a head begins to want feed. -/
theorem headLoaded_feed (h : Loadable env d head i sv) :
    (headLoaded env d i head sv).link.pendingKinds &&& 0x0020 = 0x0020 := by
  have idle := idle_of_idleSlot h.slot
  have wants : (armedSlot head.clipId head.length).wants = true :=
    (wants_iff _).2 ⟨.inl rfl, h.inRange.length.1, Nat.zero_lt_succ 63⟩
  have before : (look sv.slots i).wants = false := by simp [Slot.wants, idle]
  exact (congrArg (· &&& (0x0020 : Word16)) (putSlot_kinds env wants before)).trans
    (kinds_raised _ 0x0020)

theorem headLoaded_keeps : (headLoaded env d i head sv).zones = sv.zones
    ∧ (headLoaded env d i head sv).calls = sv.calls ∧ (headLoaded env d i head sv).houses = sv.houses :=
  have on := onPool_putSlot env i (armedSlot head.clipId head.length) sv
  ⟨on.zones, on.calls, on.houses⟩

end headLoaded

/-- The head that a try loads, in the state. -/
theorem headLoaded_of_canLoad {d : ChannelId} {head : ClipDesc} {i : SlotId} {s u : State}
    {env : Env} (run : env.run = s.control.running) (h : CanLoad d head i s)
    (svc : u.svc = loadHead env d s.svc) (control : u.control = s.control) (cue : u.cue = s.cue)
    (sup : u.sup = s.sup) : HeadLoaded d head i s u := by
  have loadable := (canLoad_iff run).1 h
  have loaded := loadHead_loadable loadable
  obtain ⟨zones, calls, houses⟩ := headLoaded_keeps (env := env) (d := d) (i := i) (head := head)
    (sv := s.svc)
  rw [loaded] at svc
  exact ⟨by rw [svc]; exact headLoaded_channels, by rw [svc]; exact headLoaded_slots,
    by rw [svc]; exact headLoaded_feed loadable, by rw [svc]; exact headLoaded_free,
    by rw [svc]; exact zones, by rw [svc]; exact calls, by rw [svc]; exact houses, control, cue, sup⟩

theorem loadHead_of_not_canLoad {d : ChannelId} {s : State} {env : Env}
    (run : env.run = s.control.running) (h : ∀ head i, ¬ CanLoad d head i s) :
    loadHead env d s.svc = s.svc :=
  loadHead_unloadable fun head i loadable => h head i ((canLoad_iff run).2 loadable)

/-! ## The loads of other channels (R106, R107) -/

/-- R84: a slot that is armed adds to the reserve. -/
theorem reserve_armed {slots : Vector Slot 10} {j : SlotId} (idle : (look slots j).state = .idle)
    (tag length : Nat) : reserve slots ≤ reserve (put slots j (armedSlot tag length)) := by
  have none_ : (look slots j).unfilled = 0 := if_pos idle
  have sum := reserve_put slots j (armedSlot tag length)
  omega

theorem exists_idleSlot {sv : Services} {d : ChannelId} : (∃ i, idleSlot sv d = some i) ↔
    (look sv.slots (channelSlots d).1).state = .idle ∨ (look sv.slots (channelSlots d).2).state = .idle := by
  unfold idleSlot
  obtain ⟨low, high⟩ := channelSlots d
  dsimp only
  split_ifs with first second
  · exact ⟨fun _ => .inl first, fun _ => ⟨low, rfl⟩⟩
  · exact ⟨fun _ => .inr second, fun _ => ⟨high, rfl⟩⟩
  · exact ⟨fun ⟨_, some_⟩ => (nomatch some_), fun h => absurd h (not_or.2 ⟨first, second⟩)⟩

/-- A slot that is IDLE after another was armed was IDLE before. -/
theorem idle_of_armed {j m : SlotId} {tag length : Nat} {slots : Vector Slot 10}
    (h : (look (put slots j (armedSlot tag length)) m).state = .idle) :
    (look slots m).state = .idle := by
  by_cases same : j = m
  · subst same
    rw [look_put_self] at h
    exact absurd h (by simp [armedSlot])
  · rwa [look_put_of_ne _ same] at h

/-- R107: the load of another channel's head gives a channel nothing to load. -/
theorem loadable_of_headLoaded {env : Env} {d e : ChannelId} (ne : d ≠ e) {i j : SlotId}
    {head q : ClipDesc} {sv : Services} (other : Loadable env e q j sv)
    (h : Loadable env d head i (headLoaded env e j q sv)) :
    ∃ k, Loadable env d head k sv := by
  have channel : look (headLoaded env e j q sv).channels d = look sv.channels d := by
    rw [headLoaded_channels, look_put_of_ne _ ne.symm]
  obtain ⟨k, slot⟩ : ∃ k, idleSlot sv d = some k := by
    refine exists_idleSlot.2 ((exists_idleSlot.1 ⟨i, h.slot⟩).imp (fun low => ?_) (fun high => ?_))
    · exact idle_of_armed (headLoaded_slots ▸ low)
    · exact idle_of_armed (headLoaded_slots ▸ high)
  have room := h.room
  rw [headLoaded_free, headLoaded_slots] at room
  have more := reserve_armed (idle_of_idleSlot other.slot) q.clipId q.length
  exact ⟨k, h.run, channel ▸ h.queued, channel ▸ h.unloaded, slot, h.inRange, by omega⟩

/-- R107: a channel with nothing to load is left so by the loads of all heads. -/
theorem loadHeads_unloadable {env : Env} {d : ChannelId} {sv : Services}
    (h : ∀ head i, ¬ Loadable env d head i sv) :
    look (loadHeads env sv).channels d = look sv.channels d := by
  refine (foldl_inv (fun t : Services => look t.channels d = look sv.channels d
    ∧ ∀ head i, ¬ Loadable env d head i t) _ (fun t e ⟨same, none_⟩ => ?_) allChannels sv ⟨rfl, h⟩).1
  rcases loadHead_turn (env := env) (d := e) (sv := t) with stays | ⟨j, q, loadable, loaded⟩
  · rw [stays]
    exact ⟨same, none_⟩
  · have ne : d ≠ e := fun same => none_ q j (same ▸ loadable)
    rw [loaded]
    refine ⟨?_, fun head i after => ?_⟩
    · rw [headLoaded_channels, look_put_of_ne _ ne.symm, same]
    · obtain ⟨k, before⟩ := loadable_of_headLoaded ne loadable after
      exact none_ head k before

/-- R107: a head that is loaded stays loaded in its slot. -/
theorem loadHeads_loaded {env : Env} {d : ChannelId} {i : SlotId} {sv : Services} {sl : Slot}
    (headSlot : (look sv.channels d).headSlot = some i) (slot : look sv.slots i = sl)
    (busy : sl.state ≠ .idle) :
    look (loadHeads env sv).channels d = look sv.channels d ∧ look (loadHeads env sv).slots i = sl := by
  refine foldl_inv (fun t : Services => look t.channels d = look sv.channels d
    ∧ look t.slots i = sl) _ (fun t e ⟨same, kept⟩ => ?_) allChannels sv ⟨rfl, slot⟩
  rcases loadHead_turn (env := env) (d := e) (sv := t) with stays | ⟨j, q, loadable, loaded⟩
  · rw [stays]
    exact ⟨same, kept⟩
  · have other : e ≠ d := by
      rintro rfl
      have unloaded := loadable.unloaded
      rw [same, headSlot] at unloaded
      exact absurd unloaded (by simp)
    have apart : j ≠ i := by
      rintro rfl
      exact busy (kept ▸ idle_of_idleSlot loadable.slot)
    rw [loaded]
    exact ⟨by rw [headLoaded_channels, look_put_of_ne _ other, same],
      by rw [headLoaded_slots, look_put_of_ne _ apart, kept]⟩

end Sys2Proof.Proofs.Loading
end

section
/-! PROOFS. CLIP-DISARM (R107, R108). -/

namespace Sys2Proof.Proofs.Disarm

open Sys2Proof Sys2Proof.Machine Sys2Proof.Laws Sys2Proof.Proofs.Cues Sys2Proof.Proofs.Link
  Sys2Proof.Proofs.Passes Sys2Proof.Proofs.Admission Sys2Proof.Proofs.ClipArm Sys2Proof.Proofs.Playout
  Sys2Proof.Proofs.ClipEnds Sys2Proof.Proofs.CallWork Sys2Proof.Proofs.Loading

/-- R108: the queue without a clip. -/
def without (id : Nat) (queue : List ClipDesc) : List ClipDesc := queue.filter (fun q => q.clipId != id)

/-- The clip is active on the channel. -/
def IsActive (ch : Channel) (id : Nat) : Prop := ∃ k, ch.active = some k ∧ k.desc.clipId = id

/-- R108: the services once a clip that is no loaded head has left its queue. -/
def unqueued (d : ChannelId) (id : Nat) (sv : Services) : Services :=
  putChannel d { look sv.channels d with queue := without id (look sv.channels d).queue } sv

/-- R108: the services once a loaded head has left its queue and its slot. -/
def unloadedHead (d : ChannelId) (id : Nat) (i : SlotId) (sv : Services) : Services :=
  putChannel d
    { look sv.channels d with
      queue := without id (look sv.channels d).queue, headSlot := none, headFilled := false }
    (abandonOwned i id sv)

/-- R108: the queue begins with the clip. -/
def beginsWith (id : Nat) : List ClipDesc → Bool
  | q :: _ => q.clipId == id
  | [] => false

/-- R107, R108: the services once a queued clip is disarmed. -/
def disarmed (env : Env) (d : ChannelId) (id : Nat) (sv : Services) : Services :=
  match beginsWith id (look sv.channels d).queue, (look sv.channels d).headSlot with
  | true, some i => loadHeads env (loadHead env d (unloadedHead d id i sv))
  | _, _ => loadHead env d (unqueued d id sv)

section checks

variable {env : Env} {d : ChannelId} {id : Nat} {sv : Services}

theorem clipDisarm_other {n : Nat} (h : channelOf n = none) :
    clipDisarm env n id sv = (.refuse .range, sv) := by
  rw [clipDisarm, h]

theorem clipDisarm_active (h : IsActive (look sv.channels d) id) :
    clipDisarm env d.val id sv = (.refuse .state, loadHead env d sv) := by
  obtain ⟨k, active, same⟩ := h
  simp only [clipDisarm, channelOf_val, active, same, beq_self_eq_true, if_true]

variable (inactive : ¬ IsActive (look sv.channels d) id)
include inactive

/-- The checks after the first, for a clip that is not active. -/
theorem clipDisarm_inactive : clipDisarm env d.val id sv =
    if !(look sv.channels d).queue.any (fun q => q.clipId == id) then
      (.refuse .absent, loadHead env d sv)
    else (.plain .ok (u8 (without id (look sv.channels d).queue).length), disarmed env d id sv) := by
  have other : (match (look sv.channels d).active with
      | some k => k.desc.clipId == id | none => false) = false := by
    cases active : (look sv.channels d).active with
    | none => rfl
    | some k => exact beq_eq_false_iff_ne.2 fun same => inactive ⟨k, active, same⟩
  unfold clipDisarm
  rw [channelOf_val]
  dsimp only
  refine (if_neg (fun h => Bool.false_ne_true (other.symm.trans h))).trans ?_
  rfl

theorem clipDisarm_absent (h : ∀ q ∈ (look sv.channels d).queue, q.clipId ≠ id) :
    clipDisarm env d.val id sv = (.refuse .absent, loadHead env d sv) := by
  rw [clipDisarm_inactive inactive]
  exact if_pos (by simpa using h)

variable (queued : ∃ q ∈ (look sv.channels d).queue, q.clipId = id)
include queued

theorem clipDisarm_ok :
    clipDisarm env d.val id sv = (.plain .ok (u8 (without id (look sv.channels d).queue).length),
      disarmed env d id sv) := by
  rw [clipDisarm_inactive inactive, if_neg (by simpa using queued)]

end checks

section disarmed

variable {env : Env} {d : ChannelId} {id : Nat} {sv : Services}

/-- A clip that is no loaded head. -/
theorem disarmed_tail (h : ∀ q, (look sv.channels d).queue.head? = some q →
      q.clipId ≠ id ∨ (look sv.channels d).headSlot = none) :
    disarmed env d id sv = loadHead env d (unqueued d id sv) := by
  cases queue : (look sv.channels d).queue with
  | nil => simp only [disarmed, queue, beginsWith]
  | cons q rest =>
    rcases h q (by rw [queue]; rfl) with other | none_
    · simp only [disarmed, queue, beginsWith, beq_eq_false_iff_ne.2 other]
    · simp only [disarmed, none_]
      cases beginsWith id (look sv.channels d).queue <;> rfl

/-- A loaded head. -/
theorem disarmed_head {q : ClipDesc} {i : SlotId} (head : (look sv.channels d).queue.head? = some q)
    (same : q.clipId = id) (slot : (look sv.channels d).headSlot = some i) :
    disarmed env d id sv = loadHeads env (loadHead env d (unloadedHead d id i sv)) := by
  cases queue : (look sv.channels d).queue with
  | nil => exact absurd head (by rw [queue]; simp)
  | cons p rest =>
    have here : p = q := Option.some.inj (by rw [← head, queue]; rfl)
    simp only [disarmed, queue, beginsWith, slot, here, same, beq_self_eq_true]

/-- R98: the services once the slot of a disarmed head is abandoned. -/
def headGone (d : ChannelId) (id : Nat) (i : SlotId) (sv : Services) : Services :=
  { sv with
    channels := put sv.channels d { look sv.channels d with
      queue := without id (look sv.channels d).queue, headSlot := none, headFilled := false }
    slots := put sv.slots i Slot.idle
    free := sv.free + (look sv.slots i).held.length }

theorem unloadedHead_eq {i : SlotId} (busy : (look sv.slots i).state ≠ .idle)
    (own : (look sv.slots i).owner = some id) : unloadedHead d id i sv = headGone d id i sv := by
  rw [unloadedHead, abandonOwned_eq busy own]
  rfl

theorem headGone_unloaded (d : ChannelId) (id : Nat) (i : SlotId) (sv : Services) :
    (look (headGone d id i sv).channels d).headSlot = none := by
  simp only [headGone, look_put_self]

theorem headGone_vacant (d : ChannelId) (id : Nat) (i : SlotId) (sv : Services) :
    Vacant i (headGone d id i sv) := by
  simp only [Vacant, headGone, look_put_self]
  exact ⟨rfl, .inl rfl⟩

/-- What can be loaded then does not turn on the request that is being answered. -/
theorem canLoad_headGone (tag : Byte) (kind : RequestKind) {i : SlotId} (s : State) (x : ClipDesc)
    (j : SlotId) : CanLoad d x j { s with svc := headGone d id i s.svc }
      ↔ Loadable s.env d x j (headGone d id i (taken tag kind s).svc) :=
  (canLoad_iff rfl).trans ⟨fun l => ⟨l.run, l.queued, l.unloaded, l.slot, l.inRange, l.room⟩,
    fun l => ⟨l.run, l.queued, l.unloaded, l.slot, l.inRange, l.room⟩⟩

end disarmed

/-! ## What the removal of a clip leaves -/

/-- R108: the queue without the clip; the clips of all channels, the zones, the calls and the houses as
they were. -/
structure Unqueued (d : ChannelId) (id : Nat) (sv u : Services) : Prop where
  queue : (look u.channels d).queue = without id (look sv.channels d).queue
  active : (look u.channels d).active = (look sv.channels d).active
  others : ∀ e, e ≠ d → (look u.channels e).queue = (look sv.channels e).queue
    ∧ (look u.channels e).active = (look sv.channels e).active
  zones : u.zones = sv.zones
  calls : u.calls = sv.calls
  houses : u.houses = sv.houses

theorem Unqueued.heads {d : ChannelId} {id : Nat} {sv t u : Services} (h : Unqueued d id sv t)
    (heads : OnHeads t u) : Unqueued d id sv u :=
  ⟨(heads.queue d).trans h.queue, (heads.active d).trans h.active,
    fun e ne => ⟨(heads.queue e).trans (h.others e ne).1, (heads.active e).trans (h.others e ne).2⟩,
    heads.zones.trans h.zones, heads.calls.trans h.calls, heads.houses.trans h.houses⟩

theorem unqueued_unqueued (d : ChannelId) (id : Nat) (sv : Services) :
    Unqueued d id sv (unqueued d id sv) := by
  refine ⟨?_, ?_, fun e ne => ?_, rfl, rfl, rfl⟩
  · simp only [unqueued, putChannel, look_put_self]
  · simp only [unqueued, putChannel, look_put_self]
  · simp only [unqueued, putChannel, look_put_of_ne _ ne.symm, and_self]

theorem unloadedHead_unqueued (d : ChannelId) (id : Nat) (i : SlotId) (sv : Services) :
    Unqueued d id sv (unloadedHead d id i sv) := by
  have pool := onPool_abandonOwned i id sv
  refine ⟨?_, ?_, fun e ne => ?_, pool.zones, pool.calls, pool.houses⟩
  · simp only [unloadedHead, putChannel, look_put_self]
  · simp only [unloadedHead, putChannel, look_put_self]
  · simp only [unloadedHead, putChannel, look_put_of_ne _ ne.symm, pool.channels, and_self]

theorem disarmed_unqueued (env : Env) (d : ChannelId) (id : Nat) (sv : Services) :
    Unqueued d id sv (disarmed env d id sv) := by
  unfold disarmed
  split
  next i _ _ =>
    exact ((unloadedHead_unqueued d id i sv).heads (onHeads_loadHead ..)).heads (onHeads_loadHeads ..)
  next => exact (unqueued_unqueued d id sv).heads (onHeads_loadHead ..)

/-- R107, R108: what the loads make of a channel whose loaded head was disarmed. -/
theorem reloaded (env : Env) {d : ChannelId} {i : SlotId} {sv : Services}
    (unloaded : (look sv.channels d).headSlot = none) (vacant : Vacant i sv) :
    (loadHeads env (loadHead env d sv)).free = sv.free
    ∧ Vacant i (loadHeads env (loadHead env d sv))
    ∧ ((∀ x j, ¬ Loadable env d x j sv) →
        (look (loadHeads env (loadHead env d sv)).channels d).headSlot = none)
    ∧ (∀ x j, Loadable env d x j sv →
        (look (loadHeads env (loadHead env d sv)).channels d).headSlot = some j
        ∧ (look (loadHeads env (loadHead env d sv)).channels d).headFilled = false
        ∧ look (loadHeads env (loadHead env d sv)).slots j = armedSlot x.clipId x.length
        ∧ (loadHeads env (loadHead env d sv)).link.pendingKinds &&& 0x0020 = 0x0020) := by
  refine ⟨(loadHeads_free _ _).trans (loadHead_free _ _ _),
    loadHeads_vacant _ _ _ (loadHead_vacant _ _ _ _ vacant), fun none_ => ?_, fun x j loadable => ?_⟩
  · rw [loadHead_unloadable none_, loadHeads_unloadable none_, unloaded]
  · rw [loadHead_loadable loadable]
    have channel : look (headLoaded env d j x sv).channels d
        = { look sv.channels d with headSlot := some j, headFilled := false } := by
      rw [headLoaded_channels, look_put_self]
    have slot : look (headLoaded env d j x sv).slots j = armedSlot x.clipId x.length := by
      rw [headLoaded_slots, look_put_self]
    obtain ⟨same, kept⟩ := loadHeads_loaded (env := env) (by rw [channel]) slot (by simp [armedSlot])
    exact ⟨by rw [same, channel], by rw [same, channel], kept,
      (onHeads_loadHeads env _).kinds _ (headLoaded_feed loadable)⟩

/-! ## The request -/

/-- R107: a refused CLIP-DISARM lets the channel try its unloaded head. -/
theorem exec_clipDisarm_refused {tag : Byte} {id : Nat} {d : ChannelId} {st : Status} {s : State}
    (h : Ready s) (work : clipDisarm s.env d.val id (taken tag .clipDisarm s).svc
      = (.refuse st, loadHead s.env d (taken tag .clipDisarm s).svc)) :
    ((∀ q i, ¬ CanLoad d q i s) → exec (.clipDisarm tag d.val id) s
      = .next (answered tag .clipDisarm st [] (taken tag .clipDisarm s)))
    ∧ (∀ q i, CanLoad d q i s → ∃ u : State, exec (.clipDisarm tag d.val id) s = .next u.settled
        ∧ HeadLoaded d q i s u ∧ (.reply tag .clipDisarm [[st.code]]) ∈ u.svc.link.tx) := by
  refine ⟨fun none_ => ?_, fun q i can => ?_⟩
  · have same : loadHead s.env d (taken tag .clipDisarm s).svc = (taken tag .clipDisarm s).svc :=
      loadHead_of_not_canLoad (s := taken tag .clipDisarm s) rfl fun q i can =>
        none_ q i ⟨can.running, can.queued, can.unloaded, can.slot, can.legal, can.room⟩
    rw [same] at work
    exact request_eq_of_work h (answerWith_refuse (s := taken tag .clipDisarm s) work)
  · have loaded : HeadLoaded d q i (taken tag .clipDisarm s) { taken tag .clipDisarm s with
        svc := loadHead s.env d (taken tag .clipDisarm s).svc } :=
      headLoaded_of_canLoad (env := s.env) rfl
        ⟨can.running, can.queued, can.unloaded, can.slot, can.legal, can.room⟩ rfl rfl rfl rfl
    exact ⟨_, request_of_work h (answerWith_of (s := taken tag .clipDisarm s) work),
      ⟨loaded.channels, loaded.slots, loaded.notice, loaded.rest⟩, reply_mem ..⟩

/-- Settles O39: the checks in their order; what a removal leaves is `disarmed_unqueued`, what is
loaded after it `headLoaded_of_canLoad` and `reloaded`. -/
theorem clipDisarmUnqueues : Obligations.ClipDisarmUnqueues := by
  unfold Obligations.ClipDisarmUnqueues
  refine ⟨fun tag n id s h => ⟨fun far => ?far, ?request⟩, fun env i new sv => ?slots⟩
  case far =>
    have none_ : channelOf n = none := dif_neg (by omega)
    exact request_eq_of_work h (answerWith_refuse (clipDisarm_other none_))
  case slots =>
    refine ⟨putSlot_slots .., fun wants before => putSlot_kinds env ((wants_iff new).2 wants) ?_,
      fun same => putSlot_same env (same.imp (fun no => ?_) (wants_iff _).2)⟩
    · exact Bool.eq_false_iff.2 fun w => before ((wants_iff _).1 w)
    · exact Bool.eq_false_iff.2 fun w => no ((wants_iff _).1 w)
  case request =>
    rintro d rfl
    refine ⟨fun active => exec_clipDisarm_refused h (clipDisarm_active active),
      fun inactive unknown => exec_clipDisarm_refused h (clipDisarm_absent inactive unknown),
      fun inactive queued => ?_⟩
    have removed := disarmed_unqueued s.env d id (taken tag .clipDisarm s).svc
    have work : clipDisarm s.env d.val id (taken tag .clipDisarm s).svc
        = (.plain .ok (u8 (without id (look s.svc.channels d).queue).length),
          disarmed s.env d id (taken tag .clipDisarm s).svc) := clipDisarm_ok inactive queued
    refine ⟨_, request_of_work h (answerWith_of (s := taken tag .clipDisarm s) work), removed.queue,
      removed.active, removed.others, reply_mem .., removed.zones, removed.calls, removed.houses, rfl,
      rfl, rfl, fun noHead => ?tail, fun q i head same slot busy own => ?head⟩
    case tail =>
      have work' := disarmed_tail (env := s.env) (sv := (taken tag .clipDisarm s).svc) noHead
      refine ⟨fun none_ => ?_, fun q i can => ?_⟩
      · have same : loadHead s.env d (unqueued d id (taken tag .clipDisarm s).svc)
            = unqueued d id (taken tag .clipDisarm s).svc :=
          loadHead_of_not_canLoad (s := { taken tag .clipDisarm s with
            svc := unqueued d id (taken tag .clipDisarm s).svc }) rfl fun q i can =>
              none_ q i ⟨can.running, can.queued, can.unloaded, can.slot, can.legal, can.room⟩
        rw [same] at work'
        exact ⟨(congrArg Services.channels work' :), (congrArg Services.slots work' :)⟩
      · have loaded : HeadLoaded d q i { taken tag .clipDisarm s with
            svc := unqueued d id (taken tag .clipDisarm s).svc } { taken tag .clipDisarm s with
            svc := disarmed s.env d id (taken tag .clipDisarm s).svc } :=
          headLoaded_of_canLoad (env := s.env) rfl
            ⟨can.running, can.queued, can.unloaded, can.slot, can.legal, can.room⟩ work' rfl rfl rfl
        exact ⟨loaded.channels, loaded.slots, loaded.notice, loaded.rest⟩
    case head =>
      have vacated := unloadedHead_eq (d := d) (sv := (taken tag .clipDisarm s).svc) busy own
      have work' := disarmed_head (env := s.env) (sv := (taken tag .clipDisarm s).svc) head same slot
      rw [vacated] at work'
      obtain ⟨free, vacant, none_, some_⟩ := reloaded s.env
        (headGone_unloaded d id i (taken tag .clipDisarm s).svc)
        (headGone_vacant d id i (taken tag .clipDisarm s).svc)
      rw [← work'] at free vacant none_ some_
      exact ⟨free, vacant.1, vacant.2, fun never => none_ fun x j loadable =>
          never x j ((canLoad_headGone tag .clipDisarm s x j).2 loadable),
        fun x j can => some_ x j ((canLoad_headGone tag .clipDisarm s x j).1 can)⟩

end Sys2Proof.Proofs.Disarm
end

section
/-! PROOFS. CLIP-START (R110, R111) and the activation of a clip (R112). -/

namespace Sys2Proof.Proofs.ClipStart

open Sys2Proof Sys2Proof.Machine Sys2Proof.Laws Sys2Proof.Proofs.Cues Sys2Proof.Proofs.Link
  Sys2Proof.Proofs.Passes Sys2Proof.Proofs.Admission Sys2Proof.Proofs.ClipArm Sys2Proof.Proofs.Playout
  Sys2Proof.Proofs.ClipEnds Sys2Proof.Proofs.Closing Sys2Proof.Proofs.Gaps Sys2Proof.Proofs.CallWork
  Sys2Proof.Proofs.Loading

/-! ## The cut (R111) -/

/-- R107: loads leave a channel whose head is loaded. -/
theorem loadHeads_headed {env : Env} {d : ChannelId} {i : SlotId} {sv : Services}
    (headSlot : (look sv.channels d).headSlot = some i) :
    look (loadHeads env sv).channels d = look sv.channels d := by
  refine foldl_inv (fun t : Services => look t.channels d = look sv.channels d) _
    (fun t e same => ?_) allChannels sv rfl
  rcases loadHead_turn (env := env) (d := e) (sv := t) with stays | ⟨j, q, loadable, loaded⟩
  · rw [stays, same]
  · have other : e ≠ d := by
      rintro rfl
      have unloaded := loadable.unloaded
      rw [same, headSlot] at unloaded
      exact absurd unloaded (by simp)
    rw [loaded, headLoaded_channels, look_put_of_ne _ other, same]

/-- R109, R111: the end of the active clip leaves the channel its queue and its loaded head. -/
structure Cut (env : Env) (d : ChannelId) (sv u : Services) : Prop where
  queue : (look u.channels d).queue = (look sv.channels d).queue
  headSlot : (look u.channels d).headSlot = (look sv.channels d).headSlot
  headFilled : (look u.channels d).headFilled = (look sv.channels d).headFilled
  last : ∀ old, (look sv.channels d).active = some old → (look u.channels d).lastOutcome = some
    { clipId := old.desc.clipId, outcome := .cut, clock := channelClock env d, standing := old.standing }
  noLast : (look sv.channels d).active = none →
    (look u.channels d).lastOutcome = (look sv.channels d).lastOutcome
  calls : u.calls = sv.calls
  houses : u.houses = sv.houses

/-- R109: the services of a clip that has ended, before the heads are loaded. -/
theorem endClip_beforeLoads (env : Env) {d : ChannelId} (outcome : ClipOutcome) {sv : Services}
    {k : ActiveClip} (active : (look sv.channels d).active = some k) :
    ∃ t : Services, endClip env d outcome sv = loadHeads env t
      ∧ (look t.channels d).headSlot = (look sv.channels d).headSlot
      ∧ (look t.channels d).headFilled = (look sv.channels d).headFilled := by
  have channels : (abandonOwned k.slot k.desc.clipId (releaseAll env (.clip d) sv)).channels
      = sv.channels :=
    (onPool_abandonOwned ..).channels.trans (onRouter_releaseAll ..).channels
  simp only [endClip, active]
  refine ⟨_, rfl, ?_, ?_⟩
  · simp only [raise, putChannel, look_put_self, channels]
  · simp only [raise, putChannel, look_put_self, channels]

theorem endClip_cut (env : Env) {d : ChannelId} {i : SlotId} {sv : Services}
    (headSlot : (look sv.channels d).headSlot = some i) : Cut env d sv (endClip env d .cut sv) := by
  cases active : (look sv.channels d).active with
  | none =>
    have same : endClip env d .cut sv = sv := by simp only [endClip, active]
    rw [same]
    exact ⟨rfl, rfl, rfl, fun old some_ => absurd some_ (by simp [active]), fun _ => rfl, rfl, rfl⟩
  | some k =>
    obtain ⟨-, last, -, queue, -, -, -, calls, houses, -⟩ := endClip_ends env d .cut sv k active
    obtain ⟨t, eq, slot, filled⟩ := endClip_beforeLoads env .cut active
    have channel : look (endClip env d .cut sv).channels d = look t.channels d := by
      rw [eq]
      exact loadHeads_headed (slot.trans headSlot)
    refine ⟨queue, by rw [channel, slot], by rw [channel, filled], fun old some_ => ?_,
      fun none_ => absurd none_ (by simp [active]), calls, houses⟩
    obtain rfl := Option.some.inj (active.symm.trans some_)
    exact last

/-! ## The head becomes active (R111) -/

/-- R111: the head as the active clip. -/
def startedClip (head : ClipDesc) (i : SlotId) (filled : Bool) : ActiveClip :=
  { desc := head, slot := i, state := .waitingFill, filled := filled, standing := false
    finishing := false, resumeLeft := none }

structure HeadTaken (d : ChannelId) (k : ActiveClip) (rest : List ClipDesc) (sv u : Services) :
    Prop where
  active : (look u.channels d).active = some k
  queue : (look u.channels d).queue = rest
  last : (look u.channels d).lastOutcome = (look sv.channels d).lastOutcome
  calls : u.calls = sv.calls
  houses : u.houses = sv.houses

theorem takeHead_taken (env : Env) {d : ChannelId} {head : ClipDesc} {rest : List ClipDesc}
    {i : SlotId} {sv : Services} (queue : (look sv.channels d).queue = head :: rest)
    (headSlot : (look sv.channels d).headSlot = some i) :
    HeadTaken d (startedClip head i (look sv.channels d).headFilled) rest sv (takeHead env d sv) := by
  simp only [takeHead, queue, headSlot]
  have loads := onHeads_loadHead env d (putChannel d
    { look sv.channels d with
      queue := rest, headSlot := none, headFilled := false
      active := some (startedClip head i (look sv.channels d).headFilled) } sv)
  refine ⟨(loads.active d).trans ?_, (loads.queue d).trans ?_, (loads.lastOutcome d).trans ?_,
    loads.calls, loads.houses⟩
  · simp only [putChannel, look_put_self]
  · simp only [putChannel, look_put_self]
  · simp only [putChannel, look_put_self]

/-! ## Activation (R112) -/

/-- R112, R115: the clip comes too late. -/
def TooLate (env : Env) (d : ChannelId) (head : ClipDesc) : Prop :=
  head.latestStart ≠ 0 ∧ head.latestStart < channelClock env d

section activate

variable {env : Env} {d : ChannelId} {sv : Services} {k : ActiveClip}
  (active : (look sv.channels d).active = some k)
include active

theorem activate_late (late : TooLate env d k.desc) :
    activate env d sv = endClip env d .late sv := by
  unfold activate
  rw [active]
  exact if_pos late

variable (inTime : ¬ TooLate env d k.desc)
include inTime

theorem activate_unfilled (filled : k.filled = false) :
    activate env d sv = raise env .notReady (setActive d { k with state := .waitingFill } sv) := by
  unfold activate
  rw [active]
  exact (if_neg inTime).trans (if_pos (by simp [filled]))

theorem activate_waitsGap (filled : k.filled = true) (gap : k.desc.condition = .gap)
    (shut : channelGap env d ≠ .quiet) :
    activate env d sv = setActive d { k with state := .waitingGap } sv := by
  have tries : activate env d sv = tryGap env d sv := by
    unfold activate
    rw [active]
    exact (if_neg inTime).trans (if_neg (by simp [filled]))
  rw [tries, tryGap, active]
  exact if_pos ⟨gap, shut⟩

theorem activate_tries (filled : k.filled = true)
    (goes : k.desc.condition = .atCue ∨ channelGap env d = .quiet) :
    activate env d sv = tryZone env d sv := by
  have tries : activate env d sv = tryGap env d sv := by
    unfold activate
    rw [active]
    exact (if_neg inTime).trans (if_neg (by simp [filled]))
  rw [tries, tryGap, active]
  refine if_neg fun ⟨gap, shut⟩ => ?_
  rcases goes with cue | quiet
  · exact absurd (cue.symm.trans gap) (by decide)
  · exact shut quiet

end activate

/-- R112: the clip of a channel has been activated in a state. -/
structure Activated (env : Env) (d : ChannelId) (k : ActiveClip) (sv u : Services) : Prop where
  clip : ∃ st, (look u.channels d).active = some { k with state := st }
    ∧ (k.filled = false → st = .waitingFill ∧ u.link.pendingKinds &&& 0x0010 = 0x0010)
    ∧ (k.filled = true → k.desc.condition = .gap → channelGap env d ≠ .quiet → st = .waitingGap)
    ∧ (k.filled = true → k.desc.condition = .atCue ∨ channelGap env d = .quiet →
        st = .speaking ∨ st = .waitingZone)
  queue : (look u.channels d).queue = (look sv.channels d).queue
  last : (look u.channels d).lastOutcome = (look sv.channels d).lastOutcome
  calls : u.calls = sv.calls
  houses : u.houses = sv.houses

theorem look_setActive (d : ChannelId) (k : ActiveClip) (sv : Services) :
    look (setActive d k sv).channels d = { look sv.channels d with active := some k } :=
  look_put_self _ _ _

theorem activate_activated {env : Env} {d : ChannelId} {sv : Services} {k : ActiveClip}
    (active : (look sv.channels d).active = some k) (inTime : ¬ TooLate env d k.desc) :
    Activated env d k sv (activate env d sv) := by
  cases filled : k.filled with
  | false =>
    rw [activate_unfilled active inTime filled]
    have channel : look (raise env .notReady
        (setActive d { k with state := .waitingFill } sv)).channels d
        = { look sv.channels d with active := some { k with state := .waitingFill } } :=
      look_setActive ..
    have kinds := (congrArg (· &&& (0x0010 : Word16)) (raise_kinds env .notReady
      (setActive d { k with state := .waitingFill } sv))).trans (kinds_raised _ 0x0010)
    refine ⟨⟨.waitingFill, by rw [channel], fun _ => ⟨rfl, kinds⟩, fun yes => ?_, fun yes => ?_⟩,
      by rw [channel], by rw [channel], rfl, rfl⟩
    · exact absurd (filled.symm.trans yes) (by decide)
    · exact absurd (filled.symm.trans yes) (by decide)
  | true =>
    have notUnfilled : ∀ {p : Prop}, k.filled = false → p := fun no =>
      absurd (filled.symm.trans no) (by decide)
    by_cases shut : k.desc.condition = .gap ∧ channelGap env d ≠ .quiet
    · rw [activate_waitsGap active inTime filled shut.1 shut.2]
      have channel := look_setActive d { k with state := .waitingGap } sv
      refine ⟨⟨.waitingGap, by rw [channel], notUnfilled, fun _ _ _ => rfl, fun _ goes => ?_⟩,
        by rw [channel], by rw [channel], rfl, rfl⟩
      rcases goes with cue | quiet
      · exact absurd (cue.symm.trans shut.1) (by decide)
      · exact absurd quiet shut.2
    · have goes : k.desc.condition = .atCue ∨ channelGap env d = .quiet := by
        by_cases quiet : channelGap env d = .quiet
        · exact .inr quiet
        · refine .inl ?_
          cases condition : k.desc.condition with
          | atCue => rfl
          | gap => exact absurd ⟨condition, quiet⟩ shut
      rw [activate_tries active inTime filled goes]
      have leaves := tryZone_leaves env d sv
      obtain ⟨st, which, channel⟩ := tryZone_tried env active
      exact ⟨⟨st, by rw [channel], notUnfilled, fun _ gap quiet => absurd ⟨gap, quiet⟩ shut,
          fun _ _ => which⟩,
        by rw [channel], by rw [channel], leaves.calls, leaves.houses⟩

/-! ## The start of a loaded head (R111, R112) -/

/-- R111: the services once a loaded head has started. -/
def startHead (env : Env) (d : ChannelId) (sv : Services) : Services :=
  activate env d (takeHead env d (endClip env d .cut sv))

/-- R111, R112: what the start of a loaded head leaves. -/
structure HeadStarted (env : Env) (d : ChannelId) (head : ClipDesc) (rest : List ClipDesc) (i : SlotId)
    (sv u : Services) : Prop where
  queue : (look u.channels d).queue = rest
  late : TooLate env d head → (look u.channels d).active = none
    ∧ (look u.channels d).lastOutcome = some
      { clipId := head.clipId, outcome := .late, clock := channelClock env d, standing := false }
  inTime : ¬ TooLate env d head →
    (∃ st, (look u.channels d).active
        = some { startedClip head i (look sv.channels d).headFilled with state := st }
      ∧ ((look sv.channels d).headFilled = false →
          st = .waitingFill ∧ u.link.pendingKinds &&& 0x0010 = 0x0010)
      ∧ ((look sv.channels d).headFilled = true → head.condition = .gap →
          channelGap env d ≠ .quiet → st = .waitingGap)
      ∧ ((look sv.channels d).headFilled = true →
          head.condition = .atCue ∨ channelGap env d = .quiet → st = .speaking ∨ st = .waitingZone))
    ∧ (∀ old, (look sv.channels d).active = some old → (look u.channels d).lastOutcome = some
        { clipId := old.desc.clipId, outcome := .cut, clock := channelClock env d
          standing := old.standing })
    ∧ ((look sv.channels d).active = none →
        (look u.channels d).lastOutcome = (look sv.channels d).lastOutcome)
  calls : u.calls = sv.calls
  houses : u.houses = sv.houses

theorem startHead_started (env : Env) {d : ChannelId} {head : ClipDesc} {rest : List ClipDesc}
    {i : SlotId} {sv : Services} (queue : (look sv.channels d).queue = head :: rest)
    (headSlot : (look sv.channels d).headSlot = some i) :
    HeadStarted env d head rest i sv (startHead env d sv) := by
  have cut := endClip_cut env headSlot
  have took := takeHead_taken env (cut.queue.trans queue) (cut.headSlot.trans headSlot)
  rw [cut.headFilled] at took
  unfold startHead
  generalize takeHead env d (endClip env d .cut sv) = t at took
  by_cases late : TooLate env d head
  · rw [activate_late took.active late]
    obtain ⟨gone, last, -, queue', -, -, -, calls, houses, -⟩ := endClip_ends env d .late t _ took.active
    exact ⟨queue'.trans took.queue, fun _ => ⟨gone, last⟩, fun inTime => absurd late inTime,
      (calls.trans took.calls).trans cut.calls, (houses.trans took.houses).trans cut.houses⟩
  · have done := activate_activated took.active late
    have last := done.last.trans took.last
    exact ⟨done.queue.trans took.queue, fun yes => absurd yes late,
      fun _ => ⟨done.clip, fun old active => last.trans (cut.last old active),
        fun none_ => last.trans (cut.noLast none_)⟩,
      (done.calls.trans took.calls).trans cut.calls, (done.houses.trans took.houses).trans cut.houses⟩

end Sys2Proof.Proofs.ClipStart
end

section
/-! PROOFS. The checks of CLIP-START (R110). -/

namespace Sys2Proof.Proofs.StartChecks

open Sys2Proof Sys2Proof.Machine Sys2Proof.Laws Sys2Proof.Proofs.Cues Sys2Proof.Proofs.Link
  Sys2Proof.Proofs.Passes Sys2Proof.Proofs.Admission Sys2Proof.Proofs.ClipArm Sys2Proof.Proofs.Playout
  Sys2Proof.Proofs.ClipEnds Sys2Proof.Proofs.Closing Sys2Proof.Proofs.Gaps Sys2Proof.Proofs.CallWork
  Sys2Proof.Proofs.Loading Sys2Proof.Proofs.ClipStart

/-! ## The refusals, in order (R110) -/

/-- R110: a channel whose standing clip does not finish. -/
def HeldByStanding (ch : Channel) : Prop :=
  ch.mode = .standing ∧ ∀ k, ch.active = some k → k.finishing = false

section refusal

variable {env : Env} {d : ChannelId} {sv : Services}

theorem startRefusal_config (run : env.run = false) : startRefusal env d sv = some .state := by
  simp only [startRefusal, run, Bool.not_false, if_true]

variable (run : env.run = true)
include run

theorem startRefusal_unserved (out : inService (look env.cfg.channels d) = false) :
    startRefusal env d sv = some .range := by
  simp only [startRefusal, run, out, Bool.not_true, Bool.false_eq_true, if_false, Bool.not_false,
    if_true]

variable (served : inService (look env.cfg.channels d) = true)
include served

theorem startRefusal_held (h : HeldByStanding (look sv.channels d)) :
    startRefusal env d sv = some .state := by
  obtain ⟨mode, none_⟩ := h
  simp only [startRefusal, run, served, Bool.not_true, Bool.false_eq_true, if_false]
  refine if_pos ⟨mode, ?_⟩
  cases active : (look sv.channels d).active with
  | none => rfl
  | some k => simp [none_ k active]

theorem startRefusal_free (h : ¬ HeldByStanding (look sv.channels d)) : startRefusal env d sv =
    if (look sv.channels d).queue = [] then some .empty
    else if (look sv.channels d).headSlot = none then some .notReady else none := by
  simp only [startRefusal, run, served, Bool.not_true, Bool.false_eq_true, if_false]
  refine if_neg fun ⟨mode, stands⟩ => h ⟨mode, fun k active => ?_⟩
  rw [active] at stands
  simpa using stands

end refusal

/-- R107: a load leaves what the standing clip decides. -/
theorem heldByStanding_loadHead {env : Env} {d : ChannelId} {sv : Services}
    (h : ¬ HeldByStanding (look sv.channels d)) :
    ¬ HeldByStanding (look (loadHead env d sv).channels d) := by
  have loads := onHeads_loadHead env d sv
  unfold HeldByStanding
  rw [loads.mode, loads.active]
  exact h

/-! ## The answers of CLIP-START -/

section clipStart

variable {env : Env} {d : ChannelId} {sv : Services}

theorem clipStart_other {n : Nat} (h : channelOf n = none) :
    clipStart env n sv = (.refuse .range, sv) := by
  rw [clipStart, h]

theorem clipStart_early {st : Status} (refused : startRefusal env d sv = some st)
    (which : st = .state ∨ st = .range) : clipStart env d.val sv = (.refuse st, sv) := by
  simp only [clipStart, channelOf_val, refused]
  rcases which with rfl | rfl <;> rfl

theorem clipStart_empty (refused : startRefusal env d sv = some .empty) :
    clipStart env d.val sv = (.refuse .empty, raise env .notReady sv) := by
  simp only [clipStart, channelOf_val, refused, reduceCtorEq, or_self, if_false, Option.some.injEq]

theorem clipStart_notReady (refused : startRefusal env d sv = some .notReady)
    (again : startRefusal env d (loadHead env d sv) = some .notReady) :
    clipStart env d.val sv = (.refuse .notReady, raise env .notReady (loadHead env d sv)) := by
  simp only [clipStart, channelOf_val, refused, again, reduceCtorEq, or_self, if_false, if_true,
    Option.some.injEq]

/-- R107, R110: the retry has loaded the head. -/
theorem clipStart_retried (refused : startRefusal env d sv = some .notReady)
    (again : startRefusal env d (loadHead env d sv) = none) :
    ∃ ans, clipStart env d.val sv = (ans, startHead env d (loadHead env d sv)) := by
  simp only [clipStart, channelOf_val, refused, again, reduceCtorEq, or_self, if_false, if_true,
    Option.some.injEq]
  exact ⟨_, rfl⟩

theorem clipStart_starts (free : startRefusal env d sv = none) :
    ∃ ans, clipStart env d.val sv = (ans, startHead env d sv) := by
  simp only [clipStart, channelOf_val, free, reduceCtorEq, or_self, if_false]
  exact ⟨_, rfl⟩

end clipStart

/-! ## The request -/

section exec

variable {tag : Byte} {d : ChannelId} {s : State} (h : Ready s)
include h

theorem exec_clipStart_refused {n : Nat} {st : Status}
    (work : clipStart s.env n (taken tag .clipStart s).svc
      = (.refuse st, (taken tag .clipStart s).svc)) :
    exec (.clipStart tag n) s = .next (answered tag .clipStart st [] (taken tag .clipStart s)) :=
  request_eq_of_work h (answerWith_refuse (s := taken tag .clipStart s) work)

/-- R110: a start that finds no head to start raises NOT-READY. -/
theorem exec_clipStart_notReady {st : Status}
    (work : clipStart s.env d.val (taken tag .clipStart s).svc
      = (.refuse st, raise s.env .notReady (taken tag .clipStart s).svc)) :
    ∃ u : State, exec (.clipStart tag d.val) s = .next u.settled
      ∧ (.reply tag .clipStart [[st.code]]) ∈ u.svc.link.tx
      ∧ u.svc.link.pendingKinds = s.svc.link.pendingKinds ||| 0x0010
      ∧ u.svc.channels = s.svc.channels ∧ u.svc.slots = s.svc.slots
      ∧ u.svc.zones = s.svc.zones ∧ u.svc.calls = s.svc.calls ∧ u.control = s.control
      ∧ u.cue = s.cue ∧ u.sup = s.sup :=
  ⟨_, request_of_work h (answerWith_of (s := taken tag .clipStart s) work), reply_mem ..,
    raise_kinds s.env .notReady (taken tag .clipStart s).svc, rfl, rfl, rfl, rfl, rfl, rfl, rfl⟩

theorem exec_clipStart_starts {ans : Answer} {u : Services}
    (work : clipStart s.env d.val (taken tag .clipStart s).svc = (ans, u)) :
    exec (.clipStart tag d.val) s
      = .next (State.reply tag .clipStart ans { taken tag .clipStart s with svc := u }).settled :=
  request_of_work h (answerWith_of (s := taken tag .clipStart s) work)

end exec

/-- Settles O40: the checks in their order; a head that starts leaves what `startHead_started` says. -/
theorem clipStartTakesTheHead : Obligations.ClipStartTakesTheHead := by
  unfold Obligations.ClipStartTakesTheHead
  intro tag n s h
  refine ⟨fun far => ?far, ?_⟩
  case far =>
    have none_ : channelOf n = none := dif_neg (by omega)
    exact exec_clipStart_refused h (clipStart_other none_)
  rintro d rfl
  refine ⟨fun off => ?config, fun run out => ?unserved, fun run served => ⟨fun held => ?held,
    fun free waits => ?waits, fun head rest i free queue slot => ?starts,
    fun head rest i free queue unloaded slot id length => ?retries⟩⟩
  case config => exact exec_clipStart_refused h (clipStart_early (startRefusal_config off) (.inl rfl))
  case unserved =>
    exact exec_clipStart_refused h (clipStart_early (startRefusal_unserved run out) (.inr rfl))
  case held =>
    exact exec_clipStart_refused h (clipStart_early (startRefusal_held run served held) (.inl rfl))
  case waits =>
    have refusal := startRefusal_free (env := s.env) (sv := (taken tag .clipStart s).svc) run served free
    by_cases empty : (look s.svc.channels d).queue = []
    · rw [if_pos empty]
      exact exec_clipStart_notReady h (clipStart_empty (refusal.trans (if_pos empty)))
    · obtain ⟨unloaded, none_⟩ := waits.resolve_left empty
      have refused := refusal.trans ((if_neg empty).trans (if_pos unloaded))
      have same : loadHead s.env d (taken tag .clipStart s).svc = (taken tag .clipStart s).svc :=
        loadHead_unloadable fun q i loadable => absurd (none_.symm.trans loadable.slot) (by simp)
      have work := clipStart_notReady refused (same.symm ▸ refused)
      rw [same] at work
      rw [if_neg empty]
      exact exec_clipStart_notReady h work
  case starts =>
    have ready : startRefusal s.env d (taken tag .clipStart s).svc = none := by
      rw [startRefusal_free (env := s.env) (sv := (taken tag .clipStart s).svc) run served free]
      exact (if_neg (by simp [taken, queue])).trans (if_neg (by simp [taken, slot]))
    obtain ⟨ans, work⟩ := clipStart_starts ready
    have started := startHead_started s.env (sv := (taken tag .clipStart s).svc) queue slot
    refine ⟨_, exec_clipStart_starts h work, started.queue, started.late, fun inTime => ?_,
      started.calls, started.houses, rfl, rfl, rfl, rfl⟩
    obtain ⟨⟨st, active, unfilled, shut, goes⟩, last, noLast⟩ := started.inTime inTime
    exact ⟨⟨_, active, rfl, rfl, rfl, rfl, unfilled, shut, goes⟩, last, noLast⟩
  case retries =>
    have refused : startRefusal s.env d (taken tag .clipStart s).svc = some .notReady := by
      rw [startRefusal_free (env := s.env) (sv := (taken tag .clipStart s).svc) run served free]
      exact (if_neg (by simp [taken, queue])).trans (if_pos unloaded)
    refine ⟨fun scarce => ?_, fun room inTime => ?_⟩
    · have same : loadHead s.env d (taken tag .clipStart s).svc = (taken tag .clipStart s).svc := by
        refine loadHead_unloadable fun q j loadable => ?_
        have here : head = q := Option.some.inj (by rw [← loadable.queued]; simp [taken, queue])
        subst here
        exact absurd loadable.room (Nat.not_le.2 scarce)
      have work := clipStart_notReady refused (same.symm ▸ refused)
      rw [same] at work
      obtain ⟨u, exec_, reply, -, channels, slots, -⟩ := exec_clipStart_notReady h work
      exact ⟨u, exec_, reply, channels, slots⟩
    · have loadable : Loadable s.env d head i (taken tag .clipStart s).svc :=
        ⟨run, by simp [taken, queue], unloaded, slot, ⟨between_iff.1 id, between_iff.1 length⟩, room⟩
      have channel : look (loadHead s.env d (taken tag .clipStart s).svc).channels d
          = { look s.svc.channels d with headSlot := some i, headFilled := false } := by
        rw [loadHead_loadable loadable, headLoaded_channels, look_put_self]
        rfl
      have ready : startRefusal s.env d (loadHead s.env d (taken tag .clipStart s).svc) = none := by
        rw [startRefusal_free (env := s.env) run served (heldByStanding_loadHead
          (sv := (taken tag .clipStart s).svc) free), channel]
        exact (if_neg (by simp [queue])).trans (if_neg (by simp))
      obtain ⟨ans, work⟩ := clipStart_retried refused ready
      have started := startHead_started s.env (d := d) (head := head) (rest := rest) (i := i)
        (sv := loadHead s.env d (taken tag .clipStart s).svc) (by rw [channel]; exact queue)
        (by rw [channel])
      obtain ⟨⟨st, active, unfilled, -⟩, -⟩ := started.inTime inTime
      have queue' := started.queue
      rw [channel] at active unfilled
      generalize startHead s.env d (loadHead s.env d (taken tag .clipStart s).svc) = v
        at work queue' active
      exact ⟨_, exec_clipStart_starts h work, queue', _, active, rfl, rfl, rfl, (unfilled rfl).1⟩

end Sys2Proof.Proofs.StartChecks
end

section
/-! PROOFS. What an advance does (R53, R58, R64-R66). -/

namespace Sys2Proof.Proofs.Advances

open Sys2Proof Sys2Proof.Machine Sys2Proof.Laws Sys2Proof.Proofs.Cues Sys2Proof.Proofs.Link

/-! ## Actions, said of the services (R64, R65) -/

/-- R65: a channel of the auditorium. -/
def ownChannel (env : Env) (a : Aud) (n : Nat) : Bool :=
  match channelOf n with
  | some d => decide ((look env.cfg.channels d).auditorium = some a)
  | none => false

/-- R65: the status of an action, and the services after it and the reports it caused. -/
def actOf (env : Env) (a : Aud) (act : CueAction) (sv : Services) : Status × Services :=
  match act with
  | .startClip d =>
    if ownChannel env a d then ((clipStart env d sv).1.status, settle env (clipStart env d sv).2)
    else (.range, sv)
  | .stopClip d =>
    if ownChannel env a d then ((clipStop env d sv).1.status, settle env (clipStop env d sv).2)
    else (.range, sv)
  | .openAdmit n m => ((admitOpen env a n m .cue sv).1, settle env (admitOpen env a n m .cue sv).2)
  | .closeAdmit => ((admitClose env a .cue sv).1, settle env (admitClose env a .cue sv).2)
  | .releaseCall i => ((callRelease i sv).1.status, settle env (callRelease i sv).2)
  | .mark => (.ok, sv)

theorem channelOfCue_eq (s : State) (a : Aud) (n : Nat) : channelOfCue s a n = ownChannel s.env a n := by
  unfold channelOfCue ownChannel
  cases channelOf n with
  | none => rfl
  | some d => exact beq_eq_decide ..

theorem doAction_eq (a : Aud) (act : CueAction) (s : State) :
    doAction a act s
      = ((actOf s.env a act s.svc).1, { s with svc := (actOf s.env a act s.svc).2 }) := by
  cases act with
  | startClip d =>
    unfold doAction actOf
    dsimp only
    rw [channelOfCue_eq]
    split <;> rfl
  | stopClip d =>
    unfold doAction actOf
    dsimp only
    rw [channelOfCue_eq]
    split <;> rfl
  | _ => rfl

theorem asked_startClip (a : Aud) (d : Nat) (s : State) : asked a (.startClip d) s =
    if ownChannel s.env a d then
      ((clipStart s.env d s.svc).1.status, { s with svc := settle s.env (clipStart s.env d s.svc).2 })
    else (.range, s) := rfl

theorem asked_stopClip (a : Aud) (d : Nat) (s : State) : asked a (.stopClip d) s =
    if ownChannel s.env a d then
      ((clipStop s.env d s.svc).1.status, { s with svc := settle s.env (clipStop s.env d s.svc).2 })
    else (.range, s) := rfl

theorem asked_eq (a : Aud) (act : CueAction) (s : State) :
    asked a act s = ((actOf s.env a act s.svc).1, { s with svc := (actOf s.env a act s.svc).2 }) := by
  cases act with
  | startClip d =>
    rw [asked_startClip, actOf]
    split <;> rfl
  | stopClip d =>
    rw [asked_stopClip, actOf]
    split <;> rfl
  | _ => rfl

/-- R64: the actions of an entry one after the other, said of the services. -/
def actsOf (env : Env) (a : Aud) : List CueAction → Services → List ActionOutcome × Services
  | [], sv => ([], sv)
  | act :: rest, sv =>
    ((act, (actOf env a act sv).1) :: (actsOf env a rest (actOf env a act sv).2).1,
      (actsOf env a rest (actOf env a act sv).2).2)

theorem askedAll_eq (a : Aud) (acts : List CueAction) (s : State) :
    askedAll a acts s
      = ((actsOf s.env a acts s.svc).1, { s with svc := (actsOf s.env a acts s.svc).2 }) := by
  induction acts generalizing s with
  | nil => rfl
  | cons act rest ih =>
    simp only [askedAll, asked_eq, ih]
    rfl

theorem actsOf_actions (env : Env) (a : Aud) (acts : List CueAction) (sv : Services) :
    (actsOf env a acts sv).1.map (fun o => o.1) = acts := by
  induction acts generalizing sv with
  | nil => rfl
  | cons act rest ih => simp only [actsOf, List.map_cons, ih]

/-! ## The firing (R64, R66) -/

/-- A firing is in progress. -/
def withFiring (a : Aud) (f : Firing) (s : State) : State :=
  s.updCue a (fun c => { c with firing := some f })

theorem withFiring_env (a : Aud) (f : Firing) (s : State) : (withFiring a f s).env = s.env := by
  cases a <;> rfl

theorem withFiring_firing (a : Aud) (f : Firing) (s : State) :
    ((withFiring a f s).cue.get a).firing = some f :=
  congrArg CueFollower.firing (get_updTwo_self ..)

theorem handOn_withFiring (a : Aud) (f : Firing) (s : State) (act : CueAction) :
    handOn a (withFiring a f s) act
      = withFiring a (f.record act (actOf s.env a act s.svc).1)
          { s with svc := (actOf s.env a act s.svc).2 } := by
  unfold handOn
  rw [doAction_eq, withFiring_env]
  cases a <;> rfl

/-- R64: a firing once all its actions have been handed on. -/
theorem foldl_handOn (a : Aud) (acts : List CueAction) (f : Firing) (s : State) :
    acts.foldl (handOn a) (withFiring a f s)
      = withFiring a { f with
            outcomes := f.outcomes ++ (actsOf s.env a acts s.svc).1, rest := f.rest.drop acts.length }
          { s with svc := (actsOf s.env a acts s.svc).2 } := by
  induction acts generalizing f s with
  | nil =>
    simp only [List.foldl_nil, actsOf, List.append_nil, List.length_nil, List.drop_zero]
  | cons act rest ih =>
    rw [List.foldl_cons, handOn_withFiring, ih]
    simp only [actsOf, Firing.record, List.append_assoc, List.singleton_append, List.length_cons,
      List.drop_tail]
    rfl

/-- R66: the follower once its firing is over. -/
def fired (a : Aud) (f : Firing) (s : State) : State :=
  (s.updCue a (fun c =>
    { c with
      firing := none
      fire := some { number := f.number, clock := f.clock, origin := f.asker.origin
                     outcomes := f.outcomes } })).serve (fun env sv => raise env .cue sv)

theorem finishFiring_withFiring (a : Aud) (f : Firing) (s : State) :
    finishFiring a (withFiring a f s)
      = answerAdvance f.asker (s.cue.get a).position f.number f.outcomes (fired a f s) := by
  unfold finishFiring
  dsimp only
  rw [withFiring_firing]
  cases a <;> rfl

theorem fireRest_withFiring (a : Aud) (f : Firing) (s : State) :
    fireRest a (withFiring a f s)
      = answerAdvance f.asker (s.cue.get a).position f.number
          (f.outcomes ++ (actsOf s.env a f.rest s.svc).1)
          (fired a { f with
              outcomes := f.outcomes ++ (actsOf s.env a f.rest s.svc).1
              rest := f.rest.drop f.rest.length }
            { s with svc := (actsOf s.env a f.rest s.svc).2 }) := by
  unfold fireRest
  rw [withFiring_firing]
  dsimp only
  rw [foldl_handOn, finishFiring_withFiring]

/-! ## The advance (R53) -/

/-- R53, R58: the position and the capture log after an advance. -/
def moved (a : Aud) (asker : CueAsker) (s : State) : State :=
  s.updCue a (fun c =>
    { c with
      position := advanceTo c.position
      log := captured { position := advanceTo c.position, clock := c.clock, origin := asker.origin }
        c.log })

theorem firedBy_eq (c : CueFollower) : firedBy c =
    if advanceTo c.position = c.position then none
    else c.list.find? (fun e => e.number == advanceTo c.position) := by
  unfold firedBy advanceTo
  split
  · rw [if_neg (by omega)]
  · rw [if_pos rfl]

theorem takeAdvance_silent {a : Aud} {asker : CueAsker} {s : State}
    (h : firedBy (s.cue.get a) = none) : takeAdvance a asker s
      = answerAdvance asker (advanceTo (s.cue.get a).position) 0 [] (moved a asker s) := by
  have none_ : (if holdAt 65535 (s.cue.get a).position = (s.cue.get a).position then none
      else (s.cue.get a).list.find? (fun e => e.number == holdAt 65535 (s.cue.get a).position)) = none :=
    (firedBy_eq _).symm.trans h
  unfold takeAdvance
  dsimp only
  rw [none_]
  rfl

theorem takeAdvance_fires {a : Aud} {asker : CueAsker} {s : State} {e : CueEntry}
    (h : firedBy (s.cue.get a) = some e) : takeAdvance a asker s
      = fireRest a (withFiring a
          { number := e.number, clock := (s.cue.get a).clock, asker := asker, outcomes := []
            rest := e.actions } (moved a asker s)) := by
  have some_ : (if holdAt 65535 (s.cue.get a).position = (s.cue.get a).position then none
      else (s.cue.get a).list.find? (fun e => e.number == holdAt 65535 (s.cue.get a).position)) = some e :=
    (firedBy_eq _).symm.trans h
  unfold takeAdvance
  dsimp only
  rw [some_]
  cases a <;> rfl

theorem number_of_firedBy {c : CueFollower} {e : CueEntry} (h : firedBy c = some e) :
    e.number = advanceTo c.position ∧ e.number ≠ 0 := by
  unfold firedBy at h
  split_ifs at h with before
  have number := List.find?_some h
  rw [beq_iff_eq] at number
  unfold advanceTo
  rw [if_pos before]
  omega

theorem moved_env (a : Aud) (asker : CueAsker) (s : State) : (moved a asker s).env = s.env := by
  cases a <;> rfl

/-- R54, R55: an answer changes the link port's queue, or the console. -/
theorem answerAdvance_leaves (asker : CueAsker) (p n : Nat) (outs : List ActionOutcome) (s : State) :
    ∃ (link : LinkPort) (console : Console), answerAdvance asker p n outs s
      = { s with svc := { s.svc with link := link }, console := console }
      ∧ link.pendingKinds = s.svc.link.pendingKinds := by
  cases asker with
  | line => exact ⟨s.svc.link, s.console, rfl, rfl⟩
  | link tag => exact ⟨_, s.console, rfl, rfl⟩
  | console => exact ⟨s.svc.link, _, rfl, rfl⟩

end Sys2Proof.Proofs.Advances
end

section
/-! PROOFS. The cue line (R50, R51, R57) and CUE-GO (R54, R57). -/

namespace Sys2Proof.Proofs.CueLine

open Sys2Proof Sys2Proof.Machine Sys2Proof.Laws Sys2Proof.Proofs.Cues Sys2Proof.Proofs.Link
  Sys2Proof.Proofs.Passes Sys2Proof.Proofs.Advances

/-! ## An advance that is taken -/

/-- R66: the follower and the services once the entry of an advance has fired. -/
def entryFired (a : Aud) (asker : CueAsker) (e : CueEntry) (s : State) : State :=
  fired a
    { number := e.number, clock := (s.cue.get a).clock, asker := asker
      outcomes := (actsOf s.env a e.actions s.svc).1, rest := e.actions.drop e.actions.length }
    { moved a asker s with svc := (actsOf s.env a e.actions s.svc).2 }

theorem takeAdvance_entry {a : Aud} {asker : CueAsker} {s : State} {e : CueEntry}
    (h : firedBy (s.cue.get a) = some e) : takeAdvance a asker s
      = answerAdvance asker (advanceTo (s.cue.get a).position) e.number
          (actsOf s.env a e.actions s.svc).1 (entryFired a asker e s) := by
  have position : ((moved a asker s).cue.get a).position = advanceTo (s.cue.get a).position :=
    congrArg CueFollower.position (get_updTwo_self ..)
  rw [takeAdvance_fires h, fireRest_withFiring, moved_env, position]
  rfl

theorem moved_self (a : Aud) (asker : CueAsker) (s : State) :
    (moved a asker s).cue.get a = { s.cue.get a with
      position := advanceTo (s.cue.get a).position
      log := captured { position := advanceTo (s.cue.get a).position, clock := (s.cue.get a).clock
                        origin := asker.origin } (s.cue.get a).log } :=
  get_updTwo_self ..

theorem moved_other {a b : Aud} (ne : b ≠ a) (asker : CueAsker) (s : State) :
    (moved a asker s).cue.get b = s.cue.get b :=
  (get_updTwo ..).trans (if_neg ne.symm)

theorem entryFired_self (a : Aud) (asker : CueAsker) (e : CueEntry) (s : State) :
    (entryFired a asker e s).cue.get a = { s.cue.get a with
      position := advanceTo (s.cue.get a).position
      log := captured { position := advanceTo (s.cue.get a).position, clock := (s.cue.get a).clock
                        origin := asker.origin } (s.cue.get a).log
      firing := none
      fire := some { number := e.number, clock := (s.cue.get a).clock, origin := asker.origin
                     outcomes := (actsOf s.env a e.actions s.svc).1 } } := by
  cases a <;> rfl

theorem entryFired_other {a b : Aud} (ne : b ≠ a) (asker : CueAsker) (e : CueEntry) (s : State) :
    (entryFired a asker e s).cue.get b = s.cue.get b :=
  ((get_updTwo ..).trans (if_neg ne.symm)).trans (moved_other ne asker s)

theorem entryFired_svc (a : Aud) (asker : CueAsker) (e : CueEntry) (s : State) :
    ∃ env : Env, (entryFired a asker e s).svc = raise env .cue (actsOf s.env a e.actions s.svc).2 :=
  ⟨_, rfl⟩

/-- R53, R54, R66: an advance that fires nothing. -/
theorem advanced_silent {a : Aud} {asker : CueAsker} {s : State}
    (idle : (s.cue.get a).firing = none) (h : firedBy (s.cue.get a) = none) :
    Advanced a asker.origin s (takeAdvance a asker s) := by
  rw [takeAdvance_silent h]
  obtain ⟨link, console, eq, kinds⟩ := answerAdvance_leaves asker
    (advanceTo (s.cue.get a).position) 0 [] (moved a asker s)
  rw [eq]
  have self := moved_self a asker s
  refine ⟨?_, ?_, ?_, fun b ne => moved_other ne asker s,
    fun _ => ⟨?_, rfl, rfl, rfl, rfl, rfl, kinds⟩, fun e some_ => absurd some_ (by simp [h]),
    fun e some_ => absurd some_ (by simp [h]), rfl, rfl, rfl, rfl⟩
  · exact (congrArg CueFollower.position self :)
  · exact (congrArg CueFollower.log self :)
  · exact ⟨(congrArg CueFollower.clock self :), (congrArg CueFollower.running self :),
      (congrArg CueFollower.list self :), (congrArg CueFollower.firing self :).trans idle⟩
  · exact (congrArg CueFollower.fire self :)

/-- R53, R64, R66: an advance that fires an entry. -/
theorem advanced_entry {a : Aud} {asker : CueAsker} {s : State} {e : CueEntry}
    (h : firedBy (s.cue.get a) = some e) : Advanced a asker.origin s (takeAdvance a asker s) := by
  rw [takeAdvance_entry h]
  obtain ⟨number, -⟩ := number_of_firedBy h
  obtain ⟨link, console, eq, kinds⟩ := answerAdvance_leaves asker
    (advanceTo (s.cue.get a).position) e.number (actsOf s.env a e.actions s.svc).1
    (entryFired a asker e s)
  obtain ⟨env, svc⟩ := entryFired_svc a asker e s
  have self := entryFired_self a asker e s
  have fire := (congrArg CueFollower.fire self :)
  rw [svc] at eq kinds
  rw [eq]
  refine ⟨?_, ?_, ?_, fun b ne => entryFired_other ne asker e s,
    fun none_ => absurd none_ (by simp [h]), fun x some_ => ?_, fun x some_ => ?_, rfl, rfl, rfl, rfl⟩
  · exact (congrArg CueFollower.position self :)
  · exact (congrArg CueFollower.log self :)
  · exact ⟨(congrArg CueFollower.clock self :), (congrArg CueFollower.running self :),
      (congrArg CueFollower.list self :), (congrArg CueFollower.firing self :)⟩
  · obtain rfl := Option.some.inj (h.symm.trans some_)
    refine ⟨_, fire, number, rfl, rfl, actsOf_actions .., ?_, fun mark => ?_⟩
    · exact (congrArg (· &&& (0x0004 : Word16)) (kinds.trans (raise_kinds ..))).trans
        (kinds_raised _ 0x0004)
    · rw [mark]
      exact ⟨rfl, rfl, rfl, rfl, rfl, rfl⟩
  · obtain rfl := Option.some.inj (h.symm.trans some_)
    refine ⟨s.svc.link, _, fire, ?_, ?_⟩
    · rw [askedAll_eq]
    · rw [askedAll_eq]
      exact ⟨rfl, rfl, rfl, rfl, rfl, rfl, rfl, rfl, rfl, rfl⟩

theorem takeAdvance_advanced {a : Aud} (asker : CueAsker) {s : State}
    (idle : (s.cue.get a).firing = none) : Advanced a asker.origin s (takeAdvance a asker s) := by
  cases h : firedBy (s.cue.get a) with
  | none => exact advanced_silent idle h
  | some e => exact advanced_entry h

/-- R50, R51: an advance concerns neither the filter of the line nor its lockout. -/
theorem takeAdvance_line (a : Aud) (asker : CueAsker) (s : State) :
    ((takeAdvance a asker s).cue.get a).filter = (s.cue.get a).filter
      ∧ ((takeAdvance a asker s).cue.get a).lockout = (s.cue.get a).lockout := by
  cases h : firedBy (s.cue.get a) with
  | none =>
    rw [takeAdvance_silent h]
    obtain ⟨link, console, eq, -⟩ := answerAdvance_leaves asker
      (advanceTo (s.cue.get a).position) 0 [] (moved a asker s)
    rw [eq]
    have self := moved_self a asker s
    exact ⟨(congrArg CueFollower.filter self :), (congrArg CueFollower.lockout self :)⟩
  | some e =>
    rw [takeAdvance_entry h]
    obtain ⟨link, console, eq, -⟩ := answerAdvance_leaves asker
      (advanceTo (s.cue.get a).position) e.number (actsOf s.env a e.actions s.svc).1
      (entryFired a asker e s)
    rw [eq]
    have self := entryFired_self a asker e s
    exact ⟨(congrArg CueFollower.filter self :), (congrArg CueFollower.lockout self :)⟩

/-! ## An advance after the work that led to it -/

/-- What an advance reads of the state. -/
structure SameFollower (a : Aud) (s t : State) : Prop where
  position : (t.cue.get a).position = (s.cue.get a).position
  log : (t.cue.get a).log = (s.cue.get a).log
  clock : (t.cue.get a).clock = (s.cue.get a).clock
  running : (t.cue.get a).running = (s.cue.get a).running
  list : (t.cue.get a).list = (s.cue.get a).list
  fire : (t.cue.get a).fire = (s.cue.get a).fire
  other : ∀ b, b ≠ a → t.cue.get b = s.cue.get b
  svc : ∃ link, t.svc = { s.svc with link := link } ∧ link.pendingKinds = s.svc.link.pendingKinds
  env : t.env = s.env
  rest : t.sup = s.sup ∧ t.quiet = s.quiet ∧ t.control = s.control ∧ t.pending = s.pending

theorem SameFollower.firedBy {a : Aud} {s t : State} (h : SameFollower a s t) :
    firedBy (t.cue.get a) = firedBy (s.cue.get a) := by
  unfold Machine.firedBy
  rw [h.position, h.list]

theorem advanced_of_before {a : Aud} {origin : CueOrigin} {s t u : State}
    (h : Advanced a origin t u) (same : SameFollower a s t) : Advanced a origin s u := by
  obtain ⟨link, svc, kinds⟩ := same.svc
  obtain ⟨clock, running, list, firing⟩ := h.kept
  obtain ⟨sup, quiet, control, pending⟩ := h.rest
  obtain ⟨sup', quiet', control', pending'⟩ := same.rest
  have position := h.position
  have log := h.log
  have silent := h.silent
  have fires := h.fired
  rw [same.position] at position
  rw [same.position, same.log, same.clock] at log
  rw [same.firedBy, same.fire, svc] at silent
  rw [same.firedBy, same.position, same.clock, svc] at fires
  refine ⟨position, log, ⟨clock.trans same.clock, running.trans same.running, list.trans same.list,
    firing⟩, fun b ne => (h.other b ne).trans (same.other b ne), fun none_ => ?_, fires,
    fun e some_ => ?_, sup.trans sup', quiet.trans quiet', control.trans control',
    pending.trans pending'⟩
  · obtain ⟨fire, zones, slots, channels, calls, houses, kinds'⟩ := silent none_
    exact ⟨fire, zones, slots, channels, calls, houses, kinds'.trans kinds⟩
  · obtain ⟨link', f, fire, outcomes, services⟩ := h.acted e (same.firedBy.trans some_)
    have acts : askedAll a e.actions { t with svc := { t.svc with link := link' } }
        = ((actsOf s.env a e.actions { s.svc with link := link' }).1,
          { t with svc := (actsOf s.env a e.actions { s.svc with link := link' }).2 }) := by
      rw [askedAll_eq, svc, ← same.env]
      rfl
    have acts' := askedAll_eq a e.actions { s with svc := { s.svc with link := link' } }
    rw [acts] at outcomes services
    refine ⟨link', f, fire, ?_, ?_⟩
    · rw [acts']
      exact outcomes
    · rw [acts']
      exact services

/-! ## CUE-GO (R54, R57) -/

theorem firedBytes_silent {a : Aud} {s : State} (h : firedBy (s.cue.get a) = none) (u : State) :
    firedBytes s u a = [0, 0] := by
  unfold firedBytes
  rw [h]

theorem firedBytes_entry {a : Aud} {s u : State} {e : CueEntry} {f : FireRecord}
    (h : firedBy (s.cue.get a) = some e) (hf : (u.cue.get a).fire = some f) :
    firedBytes s u a = u16 f.number ++ counted (f.outcomes.map (fun o => encodeOutcome o.2)) := by
  unfold firedBytes
  rw [h, hf]

theorem answerAdvance_link (tag : Byte) (p n : Nat) (outs : List ActionOutcome) (s : State) :
    answerAdvance (.link tag) p n outs s = answered tag .cueGo .ok
      (u16 p ++ u16 n ++ (if n = 0 then [] else counted (outs.map (fun o => encodeOutcome o.2)))) s :=
  rfl

/-- R54: the reply to an advance the link asked for. -/
theorem takeAdvance_reply (a : Aud) (tag : Byte) (s : State) :
    .reply tag .cueGo [0x00 :: (u16 (advanceTo (s.cue.get a).position)
        ++ firedBytes s (takeAdvance a (.link tag) s) a)]
      ∈ (takeAdvance a (.link tag) s).svc.link.tx := by
  cases h : firedBy (s.cue.get a) with
  | none =>
    rw [firedBytes_silent h, takeAdvance_silent h, answerAdvance_link]
    exact reply_mem ..
  | some e =>
    obtain ⟨-, nonzero⟩ := number_of_firedBy h
    have taken_ := (takeAdvance_entry (asker := .link tag) h).trans (answerAdvance_link ..)
    rw [if_neg nonzero] at taken_
    have fire := congrArg CueFollower.fire (entryFired_self a (.link tag) e s)
    rw [taken_, firedBytes_entry
      (u := answered tag .cueGo .ok _ (entryFired a (.link tag) e s)) h fire, ← List.append_assoc]
    exact reply_mem ..

section cueGo

variable (tag : Byte) {n : Nat} {a : Aud} {s : State}

theorem workCueGo_other (h : audOf n = none) :
    workCueGo tag n s = s.reply tag .cueGo (.refuse .range) := by
  simp [workCueGo, h]

theorem workCueGo_config (h : s.control.running = false) :
    workCueGo tag (audNumber a) s = s.reply tag .cueGo (.refuse .state) := by
  simp [workCueGo, h]

theorem workCueGo_run (h : s.control.running = true) :
    workCueGo tag (audNumber a) s = arriveCue a (.advance (.link tag)) s := by
  simp [workCueGo, h]

end cueGo

theorem sameFollower_taken (a : Aud) (tag : Byte) (kind : RequestKind) (s : State) :
    SameFollower a s (taken tag kind s) :=
  ⟨rfl, rfl, rfl, rfl, rfl, rfl, fun _ _ => rfl, ⟨_, rfl, rfl⟩, rfl, rfl, rfl, rfl, rfl⟩

theorem SameFollower.firedBytes {a : Aud} {s t : State} (h : SameFollower a s t) (u : State) :
    firedBytes t u a = firedBytes s u a := by
  unfold Machine.firedBytes
  rw [h.firedBy]

/-- Settles O30: each case is the equation of `workCueGo` for it, then that of `arriveCue`. -/
theorem cueGoAdvances : Obligations.CueGoAdvances := by
  unfold Obligations.CueGoAdvances
  intro tag n s h
  have arrives (a : Aud) (run : s.control.running = true) :
      workCueGo tag (audNumber a) (taken tag .cueGo s)
        = arriveCue a (.advance (.link tag)) (taken tag .cueGo s) := workCueGo_run tag run
  refine ⟨fun h1 h2 => ?other, ?config, ?advance, ?busy⟩
  case other => exact request_eq_of_work h (workCueGo_other tag (audOf_eq_none h1 h2))
  case config =>
    rintro a rfl config
    exact request_eq_of_work h (workCueGo_config tag config)
  case advance =>
    rintro a rfl run idle empty
    have same := sameFollower_taken a tag .cueGo s
    have reply := takeAdvance_reply a tag (taken tag .cueGo s)
    rw [same.position, same.firedBytes] at reply
    exact ⟨takeAdvance a (.link tag) (taken tag .cueGo s),
      request_of_work h ((arrives a run).trans (arriveCue_free _ idle empty)),
      advanced_of_before (takeAdvance_advanced (.link tag) idle) same, reply⟩
  case busy =>
    rintro a rfl run busy
    have arrived := arrives a run
    exact ⟨fun full => request_eq_of_work h (arrived.trans (arriveCue_full _ busy full)),
      fun room => request_eq_of_work h (arrived.trans (arriveCue_waits _ busy room))⟩

/-! ## The cue line (R50, R51) -/

section line

variable {a : Aud} {s : State}

theorem setCueLine_self (a : Aud) (active : Bool) (filter : FilterState) (s : State) :
    ∃ level, (setCueLine a active filter s).cue.get a
      = { s.cue.get a with filter := filter, sample := some level } :=
  ⟨_, get_updTwo_self ..⟩

theorem updCue_onlyCue (a : Aud) (f : CueFollower → CueFollower) (s : State) :
    OnlyCue a s (s.updCue a f) :=
  ⟨fun _ ne => (get_updTwo ..).trans (if_neg ne.symm), rfl, rfl, rfl, rfl, rfl, rfl⟩

theorem setCueLine_onlyCue (a : Aud) (active : Bool) (filter : FilterState) (s : State) :
    OnlyCue a s (setCueLine a active filter s) :=
  ⟨fun _ ne => (get_updTwo ..).trans (if_neg ne.symm), rfl, rfl, rfl, rfl, rfl, rfl⟩

theorem onlyCue_trans {s t u : State} (h : OnlyCue a s t) (h' : OnlyCue a t u) : OnlyCue a s u :=
  ⟨fun b ne => (h'.other b ne).trans (h.other b ne), h'.svc.trans h.svc, h'.sup.trans h.sup,
    h'.quiet.trans h.quiet, h'.console.trans h.console, h'.control.trans h.control,
    h'.pending.trans h.pending⟩

/-- The line found settled, and its lockout started. -/
def linePressed (a : Aud) (s : State) : State :=
  (setCueLine a true .pressed s).updCue a
    (startLockout (s.control.cfg.auditoria.get a).lockout)

theorem linePressed_onlyCue (a : Aud) (s : State) : OnlyCue a s (linePressed a s) :=
  onlyCue_trans (setCueLine_onlyCue ..) (updCue_onlyCue ..)

theorem startLockout_eq (ms : Nat) (c : CueFollower) (h : c.lockout = none) :
    startLockout ms c = { c with lockout := if ms = 0 then none else some ms } := by
  unfold startLockout
  split
  · rw [← h]
  · rfl

theorem linePressed_self (idle : (s.cue.get a).lockout = none) :
    ∃ level, (linePressed a s).cue.get a = { s.cue.get a with
      filter := .pressed, sample := some level
      lockout := if (s.control.cfg.auditoria.get a).lockout = 0 then none
        else some (s.control.cfg.auditoria.get a).lockout } := by
  obtain ⟨level, line⟩ := setCueLine_self a true .pressed s
  refine ⟨level, (get_updTwo_self ..).trans ?_⟩
  rw [line]
  exact startLockout_eq _ _ idle

theorem cuePressed_unless (h : ¬ (s.control.running = true ∧ (s.cue.get a).filter = .released)) :
    cuePressed a s = s := if_neg h

theorem cueReleased_unless (h : ¬ (s.control.running = true ∧ (s.cue.get a).filter = .pressed)) :
    cueReleased a s = s := if_neg h

theorem cueSettled_unless {active : Bool}
    (h : ¬ (s.control.running = true ∧ (s.cue.get a).filter = .unsettled)) :
    cueSettled a active s = s := if_neg h

theorem cuePressed_locked (run : s.control.running = true) (line : (s.cue.get a).filter = .released)
    (locked : (s.cue.get a).lockout.isSome) : cuePressed a s = setCueLine a true .pressed s :=
  (if_pos ⟨run, line⟩).trans (if_pos locked)

theorem cuePressed_open (run : s.control.running = true) (line : (s.cue.get a).filter = .released)
    (free : (s.cue.get a).lockout = none) :
    cuePressed a s = arriveCue a (.advance .line) (linePressed a s) :=
  (if_pos ⟨run, line⟩).trans (if_neg (by simp [free]))

theorem env_of_clocks {s t : State} (control : t.control = s.control) (quiet : t.quiet = s.quiet)
    (clock : ∀ b, (t.cue.get b).clock = (s.cue.get b).clock) : t.env = s.env := by
  have one : t.cue.one.clock = s.cue.one.clock := clock .one
  have two : t.cue.two.clock = s.cue.two.clock := clock .two
  unfold State.env
  rw [control, quiet, one, two]

theorem sameFollower_linePressed (idle : (s.cue.get a).lockout = none) :
    SameFollower a s (linePressed a s) := by
  obtain ⟨level, self⟩ := linePressed_self idle
  have only := linePressed_onlyCue a s
  have clock (b : Aud) : ((linePressed a s).cue.get b).clock = (s.cue.get b).clock := by
    by_cases same : b = a
    · rw [same, self]
    · rw [only.other b same]
  refine ⟨?_, ?_, ?_, ?_, ?_, ?_, only.other, ⟨s.svc.link, only.svc, rfl⟩,
    env_of_clocks only.control only.quiet clock,
    only.sup, only.quiet, only.control, only.pending⟩ <;> rw [self]

/-- R57: a press of the line that finds the follower busy waits, or is dropped. -/
def pressKept (c : CueFollower) : CueFollower :=
  { c with waiting := c.waiting ++ (if 8 ≤ c.waiting.length then [] else [.advance .line]) }

theorem pressKept_self (a : Aud) (s : State) :
    (s.updCue a pressKept).cue.get a = pressKept (s.cue.get a) :=
  get_updTwo_self ..

theorem arriveCue_line_busy
    (busy : (s.cue.get a).firing.isSome ∨ (s.cue.get a).waiting ≠ []) :
    arriveCue a (.advance .line) s = s.updCue a pressKept := by
  by_cases full : 8 ≤ (s.cue.get a).waiting.length
  · have unchanged : pressKept (s.cue.get a) = s.cue.get a := by
      unfold pressKept
      rw [if_pos full, List.append_nil]
    rw [arriveCue_full _ busy full, State.updCue, updTwo, unchanged]
    cases a <;> rfl
  · have waits : pressKept (s.cue.get a)
        = { s.cue.get a with waiting := (s.cue.get a).waiting ++ [.advance .line] } := by
      unfold pressKept
      rw [if_neg full]
    rw [arriveCue_waits _ busy (Nat.lt_of_not_le full), State.updCue, State.updCue, updTwo, updTwo,
      waits]

theorem exec_lockoutExpiry (h : Still s) : exec (.lockoutExpiry a) s
    = .next { s with cue := s.cue.set a { s.cue.get a with lockout := none } } :=
  event_eq_of_work h (w := fun s => s.updCue a (fun c => { c with lockout := none })) rfl rfl rfl

end line

/-- Settles O29: each event's work by cases on the filter and the lockout. -/
theorem cueLineActs : Obligations.CueLineActs := by
  unfold Obligations.CueLineActs
  intro a active s h
  refine ⟨fun no => event_eq_of_work h (cuePressed_unless no) ,
    fun no => event_eq_of_work h (cueReleased_unless no),
    fun no => event_eq_of_work h (cueSettled_unless no), fun run line => ?release,
    fun run line => ?settled, fun run line locked => ?locked, fun run line free idle empty => ?advance,
    fun run line free busy => ?busy, ?expiry⟩
  case release =>
    exact ⟨_, event_eq_of_work h (if_pos ⟨run, line⟩), setCueLine_onlyCue .., setCueLine_self ..⟩
  case settled =>
    exact ⟨_, event_eq_of_work h (if_pos ⟨run, line⟩), setCueLine_onlyCue .., setCueLine_self ..⟩
  case locked =>
    exact ⟨_, event_eq_of_work h (cuePressed_locked run line locked), setCueLine_onlyCue ..,
      setCueLine_self ..⟩
  case advance =>
    obtain ⟨level, self⟩ := linePressed_self free
    have firing : ((linePressed a s).cue.get a).firing = none := by rw [self, ← idle]
    have waiting : ((linePressed a s).cue.get a).waiting = [] := by rw [self, ← empty]
    obtain ⟨filter, lockout⟩ := takeAdvance_line a .line (linePressed a s)
    rw [self] at filter lockout
    exact ⟨takeAdvance a .line (linePressed a s),
      event_of_work h ((cuePressed_open run line free).trans (arriveCue_free _ firing waiting)),
      advanced_of_before (takeAdvance_advanced .line firing) (sameFollower_linePressed free),
      filter, lockout⟩
  case busy =>
    obtain ⟨level, self⟩ := linePressed_self free
    have busy' : ((linePressed a s).cue.get a).firing.isSome
        ∨ ((linePressed a s).cue.get a).waiting ≠ [] := by
      rw [self]
      exact busy
    refine ⟨_, event_eq_of_work h ((cuePressed_open run line free).trans (arriveCue_line_busy busy')),
      onlyCue_trans (linePressed_onlyCue a s) (updCue_onlyCue ..), level,
      (pressKept_self a _).trans ?_⟩
    exact congrArg pressKept self
  case expiry => exact exec_lockoutExpiry h

end Sys2Proof.Proofs.CueLine
end

section
/-! PROOFS. Numbers in bytes, and what a load makes of the settings memory (R189). -/

namespace Sys2Proof.Proofs.Images

open Sys2Proof Sys2Proof.Machine Sys2Proof.Laws

/-! ## Numbers in bytes -/

@[simp] theorem length_leBytes (k n : Nat) : (leBytes k n).length = k := by
  induction k generalizing n with
  | zero => rfl
  | succ k ih => simp [leBytes, ih]

theorem leNat_leBytes {k n : Nat} (fits : n < 256 ^ k) : leNat (leBytes k n) = n := by
  induction k generalizing n with
  | zero =>
    have zero_ : n = 0 := by omega
    exact zero_.symm
  | succ k ih =>
    have rest : n / 256 < 256 ^ k := Nat.div_lt_of_lt_mul (by rw [Nat.mul_comm]; exact fits)
    have low : (BitVec.ofNat 8 n).toNat = n % 256 := BitVec.toNat_ofNat n 8
    rw [leBytes, leNat, ih rest, low]
    exact Nat.mod_add_div n 256

theorem leBytes_leNat (b : List Byte) : leBytes b.length (leNat b) = b := by
  induction b with
  | nil => rfl
  | cons x rest ih =>
    have small : x.toNat < 256 := x.isLt
    have low : BitVec.ofNat 8 (x.toNat + 256 * leNat rest) = x := by
      apply BitVec.eq_of_toNat_eq
      simp only [BitVec.toNat_ofNat]
      omega
    have high : (x.toNat + 256 * leNat rest) / 256 = leNat rest := by omega
    rw [List.length_cons, leNat, leBytes, low, high, ih]

theorem leNat_eq_iff {b : List Byte} {k n : Nat} (long : b.length = k) (fits : n < 256 ^ k) :
    leNat b = n ↔ b = leBytes k n := by
  refine ⟨fun h => ?_, fun h => ?_⟩
  · rw [← h, ← long, leBytes_leNat]
  · rw [h, leNat_leBytes fits]

/-! ## The header (R189) -/

theorem length_readAll (m : Memory) (a n : Nat) : (m.readAll a n).length = n := by
  induction n generalizing a with
  | zero => rfl
  | succ n ih => rw [Memory.readAll, List.length_cons, ih]

theorem byteAt_eq_iff {b : List Byte} {i n : Nat} (inside : i < b.length) (fits : n < 256) :
    byteAt b i = n ↔ (b.drop i).take 1 = u8 n := by
  have one : (b.drop i).take 1 = [b[i]] := by
    rw [List.drop_eq_getElem_cons inside, List.take_succ_cons, List.take_zero]
  have at_ : byteAt b i = leNat [b[i]] := by
    unfold byteAt
    rw [List.getD_eq_getElem b 0 inside]
    exact (Nat.add_zero _).symm
  rw [at_, one]
  exact leNat_eq_iff rfl fits

theorem numAt_eq_iff {b : List Byte} {i k n : Nat} (inside : i + k ≤ b.length) (fits : n < 256 ^ k) :
    numAt b i k = n ↔ (b.drop i).take k = leBytes k n :=
  leNat_eq_iff (by rw [List.length_take, List.length_drop]; omega) fits

/-- R189: the marker is valid and the format is 1. -/
theorem marked_iff {header : List Byte} (long : header.length = 11) :
    header.take 5 = u32 validMarker ++ u8 1
      ↔ ¬ (numAt header 0 4 ≠ validMarker ∨ byteAt header 4 ≠ 1) := by
  have parts : header.take 5 = header.take 4 ++ (header.drop 4).take 1 :=
    List.take_add (i := 4) (j := 1)
  have first : (header.take 4).length = (u32 validMarker).length := by
    rw [List.length_take, long]
    rfl
  rw [parts, not_or, not_ne_iff, not_ne_iff, numAt_eq_iff (by omega) (by decide),
    byteAt_eq_iff (by omega) (by decide), List.drop_zero]
  exact ⟨fun h => List.append_inj h first, fun ⟨h, h'⟩ => by rw [h, h']; rfl⟩

theorem long_iff {header : List Byte} (long : header.length = 11) :
    (header.drop 5).take 2 = u16 areaLength ↔ ¬ numAt header 5 2 ≠ areaLength := by
  rw [not_ne_iff, numAt_eq_iff (by omega) (by decide)]
  rfl

theorem checked_iff {header : List Byte} (long : header.length = 11) (w : BitVec 32) :
    header.drop 7 = u32 w.toNat ↔ ¬ numAt header 7 4 ≠ w.toNat := by
  have all : (header.drop 7).take 4 = header.drop 7 :=
    List.take_of_length_le (by rw [List.length_drop, long])
  rw [not_ne_iff, numAt_eq_iff (by omega) w.isLt, all]
  rfl

theorem allOnes_iff (b : List Byte) : allOnes b = true ↔ ∀ x ∈ b, x = 0xFF := by
  simp [allOnes]

/-! ## The records of an image (R189) -/

/-- The place of a record in the record area. -/
def recordStart (i : Nat) : Nat := ((List.range i).map (fun j => (recordLength j).getD 0)).sum

theorem recordStart_succ (i : Nat) :
    recordStart (i + 1) = recordStart i + (recordLength i).getD 0 := by
  simp [recordStart, List.range_succ]

/-- The bytes of a record in the record area. -/
def recordBytes (area : List Byte) (i : Nat) : List Byte :=
  (area.drop (recordStart i)).take ((recordLength i).getD 0)

theorem cutRecords_eq (n i : Nat) (area : List Byte) :
    cutRecords n i (area.drop (recordStart i))
      = (List.range' i n).map (fun j => (j, decodeRecord j (recordBytes area j))) := by
  induction n generalizing i with
  | zero => rfl
  | succ n ih =>
    rw [cutRecords, List.drop_drop, ← recordStart_succ, ih, List.range'_succ, List.map_cons]
    rfl

theorem readPasses_iff (o : Option ConfigRecord) :
    readPasses o = true ↔ ∃ r, o = some r ∧ recordLegal r = true := by
  cases o with
  | none => simp [readPasses]
  | some r => simp [readPasses]

/-- R189: a record that passes, at each place of a list that passes. -/
theorem filterMap_passed (l : List (Nat × Option ConfigRecord))
    (passed : ∀ p ∈ l, readPasses p.2 = true) :
    (l.filterMap (·.2)).map some = l.map (·.2) := by
  induction l with
  | nil => rfl
  | cons p rest ih =>
    obtain ⟨r, some_, -⟩ := (readPasses_iff p.2).1 (passed p List.mem_cons_self)
    rw [List.filterMap_cons, some_, List.map_cons, List.map_cons,
      ih fun q hq => passed q (List.mem_cons_of_mem p hq), some_]

/-- The records cut from a record area whose records pass. -/
theorem cutRecords_passed {area : List Byte}
    (passed : ∀ p ∈ cutRecords 40 0 area, readPasses p.2 = true) :
    ((cutRecords 40 0 area).filterMap (·.2)).length = 40
      ∧ ∀ i r, ((cutRecords 40 0 area).filterMap (·.2))[i]? = some r →
        i < 40 ∧ decodeRecord i (recordBytes area i) = some r ∧ recordLegal r = true := by
  have cut : cutRecords 40 0 area
      = (List.range' 0 40).map (fun j => (j, decodeRecord j (recordBytes area j))) :=
    cutRecords_eq 40 0 area
  have all := filterMap_passed _ passed
  have sizes := congrArg List.length all
  rw [List.length_map, List.length_map, cut, List.length_map, List.length_range'] at sizes
  rw [← cut] at sizes
  refine ⟨sizes, fun i r at_ => ?_⟩
  have inside : i < 40 := by
    rw [← sizes]
    exact (List.getElem?_eq_some_iff.1 at_).1
  have here := congrArg (·[i]?) all
  simp only [List.getElem?_map, at_, Option.map_some] at here
  have decoded : decodeRecord i (recordBytes area i) = some r := by
    rw [cut, List.getElem?_map, List.getElem?_range' inside] at here
    simpa using here.symm
  have member : (i, decodeRecord i (recordBytes area i)) ∈ cutRecords 40 0 area := by
    rw [cut]
    exact List.mem_map.2 ⟨i, List.mem_range'_1.2 ⟨Nat.zero_le i, by omega⟩, rfl⟩
  obtain ⟨x, some_, legal⟩ := (readPasses_iff _).1 (passed _ member)
  obtain rfl := Option.some.inj (decoded.symm.trans some_)
  exact ⟨inside, decoded, legal⟩

/-! ## What a load reads (R189) -/

section reads

variable {c : PartControl}

/-- R189: a read of the settings memory fails, or returns all ones. -/
def readFails (c : PartControl) : Prop :=
  c.memoryFault = true ∨ (∀ b ∈ c.memory.readAll 0 11, b = 0xFF)
    ∨ (∀ b ∈ c.memory.readAll areaStart areaLength, b = 0xFF)

theorem readFails_iff (c : PartControl) : readFails c ↔
    (c.memoryFault || allOnes (c.memory.readAll 0 11)
      || allOnes (c.memory.readAll areaStart areaLength)) = true := by
  simp only [readFails, Bool.or_eq_true, allOnes_iff, or_assoc]

theorem readImage_memory (fails : readFails c) : readImage c = (.memory, []) :=
  if_pos ((readFails_iff c).1 fails)

/-- R189: the marker is valid and the format is 1. -/
def marked (c : PartControl) : Prop :=
  (c.memory.readAll 0 11).take 5 = u32 validMarker ++ u8 1

/-- R189: the length is that of format 1. -/
def rightLength (c : PartControl) : Prop :=
  ((c.memory.readAll 0 11).drop 5).take 2 = u16 areaLength

/-- R189: the check is that of the record area. -/
def rightCheck (c : PartControl) : Prop :=
  (c.memory.readAll 0 11).drop 7 = u32 (crc32 (c.memory.readAll areaStart areaLength)).toNat

theorem readImage_marker (reads : ¬ readFails c) (h : ¬ marked c) : readImage c = (.marker, []) :=
  (if_neg (mt (readFails_iff c).2 reads)).trans
    (if_pos (not_not.1 (mt (marked_iff (length_readAll ..)).2 h)))

theorem readImage_length (reads : ¬ readFails c) (mark : marked c) (h : ¬ rightLength c) :
    readImage c = (.length, []) :=
  (if_neg (mt (readFails_iff c).2 reads)).trans
    ((if_neg ((marked_iff (length_readAll ..)).1 mark)).trans
      (if_pos (not_not.1 (mt (long_iff (length_readAll ..)).2 h))))

/-- R189: what the records of an image with a right header make of a load. -/
def judgeRecords (l : List (Nat × Option ConfigRecord)) : SettingsResult × List ConfigRecord :=
  match l.find? (fun p => !readPasses p.2) with
  | some p => (.range p.1, [])
  | none => (.loaded, l.filterMap (·.2))

theorem readImage_crc (reads : ¬ readFails c) (mark : marked c) (long : rightLength c)
    (h : ¬ rightCheck c) : readImage c = (.crc, []) :=
  (if_neg (mt (readFails_iff c).2 reads)).trans
    ((if_neg ((marked_iff (length_readAll ..)).1 mark)).trans
      ((if_neg ((long_iff (length_readAll ..)).1 long)).trans
        (if_pos (not_not.1 (mt (checked_iff (length_readAll ..) _).2 h)))))

theorem readImage_records (reads : ¬ readFails c) (mark : marked c) (long : rightLength c)
    (check : rightCheck c) :
    readImage c = judgeRecords (cutRecords 40 0 (c.memory.readAll areaStart areaLength)) :=
  (if_neg (mt (readFails_iff c).2 reads)).trans
    ((if_neg ((marked_iff (length_readAll ..)).1 mark)).trans
      ((if_neg ((long_iff (length_readAll ..)).1 long)).trans
        ((if_neg ((checked_iff (length_readAll ..) _).1 check)).trans rfl)))

theorem judgeRecords_range {l before after : List (Nat × Option ConfigRecord)}
    {p : Nat × Option ConfigRecord} (eq : l = before ++ p :: after)
    (passed : ∀ x ∈ before, readPasses x.2 = true) (fails : readPasses p.2 = false) :
    judgeRecords l = (.range p.1, []) := by
  have found : l.find? (fun p => !readPasses p.2) = some p := by
    rw [eq, List.find?_append, List.find?_eq_none.2 (fun x hx => by simp [passed x hx]),
      List.find?_cons_of_pos (by simp [fails])]
    rfl
  unfold judgeRecords
  rw [found]

theorem judgeRecords_passed {l : List (Nat × Option ConfigRecord)}
    (passed : ∀ x ∈ l, readPasses x.2 = true) : judgeRecords l = (.loaded, l.filterMap (·.2)) := by
  have none_ : l.find? (fun p => !readPasses p.2) = none :=
    List.find?_eq_none.2 (fun x hx => by simp [passed x hx])
  unfold judgeRecords
  rw [none_]

theorem judgeRecords_loaded {l : List (Nat × Option ConfigRecord)}
    (h : (judgeRecords l).1 = .loaded) : ∀ x ∈ l, readPasses x.2 = true := by
  unfold judgeRecords at h
  cases found : l.find? (fun p => !readPasses p.2) with
  | some p =>
    rw [found] at h
    cases h
  | none => simpa using List.find?_eq_none.1 found

/-- R189: the records of a LOADED image. -/
theorem readImage_loaded (h : (readImage c).1 = .loaded) :
    (readImage c).2.length = 40
      ∧ ∀ i r, (readImage c).2[i]? = some r →
        i < 40 ∧ decodeRecord i (recordBytes (c.memory.readAll areaStart areaLength) i) = some r
          ∧ recordLegal r = true := by
  by_cases reads : readFails c
  · rw [readImage_memory reads] at h
    cases h
  by_cases mark : marked c
  case neg =>
    rw [readImage_marker reads mark] at h
    cases h
  by_cases long : rightLength c
  case neg =>
    rw [readImage_length reads mark long] at h
    cases h
  by_cases check : rightCheck c
  case neg =>
    rw [readImage_crc reads mark long check] at h
    cases h
  rw [readImage_records reads mark long check] at h ⊢
  have passed := judgeRecords_loaded h
  rw [judgeRecords_passed passed]
  exact cutRecords_passed passed

end reads

/-! ## Records and their indices (R186) -/

theorem indexTakes_of_decodeRecord {i : Nat} {b : List Byte} {r : ConfigRecord} (inside : i < 40)
    (h : decodeRecord i b = some r) : indexTakes i r = true := by
  unfold decodeRecord at h
  split_ifs at h with wrong zone entrance channel auditorium supervision
  · obtain ⟨c, -, rfl⟩ := Option.map_eq_some_iff.1 h
    exact decide_eq_true zone
  · obtain ⟨c, -, rfl⟩ := Option.map_eq_some_iff.1 h
    simp only [indexTakes, between, Bool.and_eq_true, decide_eq_true_eq]
    omega
  · obtain ⟨c, -, rfl⟩ := Option.map_eq_some_iff.1 h
    simp only [indexTakes, between, Bool.and_eq_true, decide_eq_true_eq]
    omega
  · obtain ⟨c, -, rfl⟩ := Option.map_eq_some_iff.1 h
    simp only [indexTakes, between, Bool.and_eq_true, decide_eq_true_eq]
    omega
  · obtain rfl := Option.some.inj h
    exact decide_eq_true supervision
  · obtain rfl := Option.some.inj h
    simp only [indexTakes, decide_eq_true_eq]
    omega

end Sys2Proof.Proofs.Images
end

section
/-! PROOFS. What taking a configuration record changes (R1, R40, R44, R45, R148, R173, R186). -/

namespace Sys2Proof.Proofs.Records

open Sys2Proof Sys2Proof.Machine Sys2Proof.Laws Sys2Proof.Proofs.Link Sys2Proof.Proofs.Passes
  Sys2Proof.Proofs.Polling Sys2Proof.Proofs.VisitSteps

/-! ## The index of a record (R186) -/

/-- R186: a record of the type its index names. -/
inductive Takes : Nat → ConfigRecord → Prop
  | zone (z : ZoneId) (c : ZoneConfig) : Takes z.val (.zone c)
  | entrance (e : EntranceId) (c : EntranceConfig) : Takes (20 + e.val) (.entrance c)
  | channel (d : ChannelId) (c : ChannelConfig) : Takes (32 + d.val) (.channel c)
  | auditorium (a : Aud) (c : AuditoriumConfig) : Takes (35 + audNumber a) (.auditorium c)
  | supervision (c : SupervisionConfig) : Takes 38 (.supervision c)
  | link (c : LinkConfig) : Takes 39 (.link c)

theorem takes_of_indexTakes {i : Nat} {r : ConfigRecord} (h : indexTakes i r = true) : Takes i r := by
  cases r with
  | zone c => exact .zone ⟨i, of_decide_eq_true h⟩ c
  | entrance c =>
    obtain ⟨low, high⟩ : 20 ≤ i ∧ i ≤ 31 := by
      simpa [indexTakes, between] using h
    obtain ⟨k, rfl⟩ := Nat.exists_eq_add_of_le low
    exact .entrance ⟨k, by omega⟩ c
  | channel c =>
    obtain ⟨low, high⟩ : 32 ≤ i ∧ i ≤ 35 := by
      simpa [indexTakes, between] using h
    obtain ⟨k, rfl⟩ := Nat.exists_eq_add_of_le low
    exact .channel ⟨k, by omega⟩ c
  | auditorium c =>
    obtain ⟨low, high⟩ : 36 ≤ i ∧ i ≤ 37 := by
      simpa [indexTakes, between] using h
    rcases Nat.eq_or_lt_of_le low with rfl | above
    · exact .auditorium .one c
    · obtain rfl : i = 37 := by omega
      exact .auditorium .two c
  | supervision c =>
    obtain rfl := of_decide_eq_true h
    exact .supervision c
  | link c =>
    obtain rfl := of_decide_eq_true h
    exact .link c

/-- The configuration with the record of an index replaced. -/
def withRecord (cfg : Configuration) (i : Nat) : ConfigRecord → Configuration
  | .zone c => if h : i < 20 then { cfg with zones := put cfg.zones ⟨i, h⟩ c } else cfg
  | .entrance c =>
    if h : i - 20 < 12 then { cfg with entrances := put cfg.entrances ⟨i - 20, h⟩ c } else cfg
  | .channel c => if h : i - 32 < 4 then { cfg with channels := put cfg.channels ⟨i - 32, h⟩ c } else cfg
  | .auditorium c =>
    { cfg with auditoria := cfg.auditoria.set (if i = 36 then Aud.one else Aud.two) c }
  | .supervision c => { cfg with supervision := c }
  | .link c => { cfg with link := c }

theorem recordAt_withRecord_self {i : Nat} {r : ConfigRecord} (h : Takes i r) (cfg : Configuration) :
    recordAt (withRecord cfg i r) i = some r := by
  cases h with
  | zone z c =>
    have inside := z.isLt
    simp [recordAt, withRecord, inside]
  | entrance e c =>
    have inside := e.isLt
    simp [recordAt, withRecord, inside]
  | channel d c =>
    have inside := d.isLt
    have past : ¬ 32 + d.val < 20 := by omega
    have past' : ¬ 32 + d.val - 20 < 12 := by omega
    simp [recordAt, withRecord, inside, past, past']
  | auditorium a c => cases a <;> rfl
  | supervision c => rfl
  | link c => rfl

theorem recordAt_withRecord_other {i j : Nat} {r : ConfigRecord} (h : Takes i r) (ne : j ≠ i)
    (cfg : Configuration) : recordAt (withRecord cfg i r) j = recordAt cfg j := by
  cases h with
  | zone z c =>
    have inside := z.isLt
    have differ (k : j < 20) : z ≠ ⟨j, k⟩ := fun e => ne (congrArg Fin.val e).symm
    unfold recordAt withRecord
    simp only [inside, dite_true]
    split
    next k => rw [look_put_of_ne _ (differ k)]
    · rfl
  | entrance e c =>
    have inside : 20 + e.val - 20 < 12 := by omega
    have differ (k : j - 20 < 12) (past : ¬ j < 20) : (⟨20 + e.val - 20, inside⟩ : EntranceId) ≠ ⟨j - 20, k⟩ :=
      fun same => ne (by have := congrArg Fin.val same; dsimp only at this; omega)
    unfold recordAt withRecord
    simp only [inside, dite_true]
    split
    · rfl
    next past =>
      split
      next k => rw [look_put_of_ne _ (differ k past)]
      · rfl
  | channel d c =>
    have inside : 32 + d.val - 32 < 4 := by omega
    have differ (k : j - 32 < 4) (past : ¬ j < 20) (past' : ¬ j - 20 < 12) :
        (⟨32 + d.val - 32, inside⟩ : ChannelId) ≠ ⟨j - 32, k⟩ :=
      fun same => ne (by have := congrArg Fin.val same; dsimp only at this; omega)
    unfold recordAt withRecord
    simp only [inside, dite_true]
    split
    · rfl
    next past =>
      split
      · rfl
      next past' =>
        split
        next k => rw [look_put_of_ne _ (differ k past past')]
        · rfl
  | auditorium a c =>
    cases a with
    | one =>
      have other : j ≠ 36 := ne
      simp [recordAt, withRecord, audNumber, Two.set, other]
    | two =>
      have other : j ≠ 37 := ne
      simp [recordAt, withRecord, audNumber, Two.set, other]
  | supervision c => simp [recordAt, withRecord, ne]
  | link c => simp [recordAt, withRecord, ne]

/-! ## What the owners leave (R186) -/

/-- What taking a record leaves as it was. -/
def recordView (s : State) :=
  ({ s.control with cfg := Configuration.default }, s.cue, s.svc.slots, s.svc.calls.length, s.svc.houses)

theorem recordView_grantPoll (s : State) : recordView (grantPoll s) = recordView s := by
  unfold grantPoll
  split <;> rfl

theorem recordView_answerPass (p : PassThrough) (st : Status) (w : Option Word16) (s : State) :
    recordView (answerPass p st w s) = recordView s := by
  unfold answerPass
  dsimp only
  split <;> rfl

theorem recordView_grantBus (s : State) : recordView (grantBus s) = recordView s := by
  unfold grantBus
  split
  · rfl
  · rfl
  · split
    · exact (recordView_grantPoll _).trans (recordView_answerPass _ _ _ _)
    · rfl
  · exact recordView_grantPoll s

theorem recordView_beginRound (s : State) : recordView (beginRound s) = recordView s := by
  obtain ⟨p, eq⟩ := beginRound_eq s
  rw [eq]
  rfl

theorem recordView_nextVisit (m : ModuleId) (s : State) : recordView (nextVisit m s) = recordView s := by
  unfold nextVisit
  split
  · rfl
  · split <;> rfl

theorem recordView_wakePoll (s : State) : recordView (wakePoll s) = recordView s := by
  unfold wakePoll
  split
  · exact recordView_beginRound s
  · split
    · exact recordView_beginRound s
    · rfl
  · rfl

theorem recordView_dropVisit (m : ModuleId) (s : State) : recordView (dropVisit m s) = recordView s := by
  unfold dropVisit
  split
  · split
    · split
      · rfl
      · exact recordView_nextVisit m s
    · rfl
  · rfl

theorem writeDrive_houses (z : ZoneId) (d : DriveState) (b : Bool) (sv : Services) :
    (writeDrive z d b sv).houses = sv.houses ∧ (writeDrive z d b sv).entrances = sv.entrances := by
  unfold writeDrive
  dsimp only
  split <;> exact ⟨rfl, rfl⟩

theorem writeDrive_calls_length (z : ZoneId) (d : DriveState) (b : Bool) (sv : Services) :
    (writeDrive z d b sv).calls.length = sv.calls.length := by
  rw [Proofs.Visits.writeDrive_calls]
  split
  · exact List.length_map _
  · rfl

theorem resolveZone_cases (s : State) (z : ZoneId) : resolveZone s z = s
    ∨ ∃ d b, resolveZone s z = { s with svc := writeDrive z d b s.svc }
      ∨ resolveZone s z = { s with svc := raise s.env .zone (writeDrive z d b s.svc) } := by
  by_cases loop : isLoopKind (look s.control.cfg.zones z).kind = true
  · obtain ⟨_, _, _, same, changed⟩ := resolveZone_loop z s loop
    refine .inr ⟨resolvedDrive s z, resolvedBackoff s z, ?_⟩
    by_cases drive : resolvedDrive s z = (look s.svc.zones z).drive
    · exact .inl (same drive)
    · exact .inr (changed drive)
  · exact .inl (if_neg loop)

theorem recordView_writeDrive (z : ZoneId) (d : DriveState) (b : Bool) (s : State) :
    recordView { s with svc := writeDrive z d b s.svc } = recordView s := by
  obtain ⟨slots, -, -⟩ := writeDrive_slots z d b s.svc
  obtain ⟨houses, -⟩ := writeDrive_houses z d b s.svc
  unfold recordView
  dsimp only
  rw [slots, houses, writeDrive_calls_length]

theorem recordView_resolveZone (s : State) (z : ZoneId) : recordView (resolveZone s z) = recordView s := by
  obtain eq | ⟨d, b, eq | eq⟩ := resolveZone_cases s z
  · rw [eq]
  · rw [eq, recordView_writeDrive]
  · rw [eq]
    exact recordView_writeDrive z d b s

theorem recordView_resolveModule (s : State) (m : ModuleId) :
    recordView (resolveModule s m) = recordView s := by
  unfold resolveModule
  refine foldl_keeps recordView _ (fun t z => ?_) _ _
  split
  · exact recordView_resolveZone t z
  · rfl

theorem recordView_dropModule (s : State) (m : ModuleId) :
    recordView (dropModule s m) = recordView s := by
  rw [dropModule_eq]
  exact (recordView_dropVisit _ _).trans (recordView_resolveModule _ _)

theorem recordView_applyPoll (w : Word16) (gap : Nat) (s : State) :
    recordView (applyPoll w gap s) = recordView s := by
  rw [applyPoll_eq, recordView_grantBus, recordView_wakePoll]
  exact foldl_keeps recordView _ recordView_dropModule _ _

theorem recordView_takeZoneKind (z : ZoneId) (old new : ZoneKind) (s : State) :
    recordView { s with svc := takeZoneKind z old new s.svc } = recordView s := by
  unfold takeZoneKind
  split <;> rfl

theorem recordView_takeZone (z : ZoneId) (c : ZoneConfig) (s : State) :
    recordView (takeZone z c s) = recordView s := by
  unfold takeZone
  dsimp only
  refine (foldl_keeps recordView _ recordView_resolveModule _ _).trans
    ((recordView_resolveZone _ z).trans ?_)
  exact recordView_takeZoneKind z _ _ (s.setCfg _)

theorem recordView_takeEntrance (e : EntranceId) (c : EntranceConfig) (s : State) :
    recordView (takeEntrance e c s) = recordView s := by
  unfold takeEntrance takeEntranceConfig
  dsimp only
  split <;> rfl

theorem recordView_takeRecord (s : State) (i : Nat) (r : ConfigRecord) :
    recordView (takeRecord s i r) = recordView s := by
  unfold takeRecord
  split
  · split
    next z _ => exact recordView_takeZone z _ s
    · rfl
  · split
    next e _ => exact recordView_takeEntrance e _ s
    · rfl
  · split <;> rfl
  · rfl
  · exact recordView_applyPoll _ _ _
  · rfl

theorem recordView_takeRecords (i : Nat) (l : List ConfigRecord) (s : State) :
    recordView (takeRecords i l s) = recordView s := by
  induction l generalizing i s with
  | nil => rfl
  | cons r rest ih => exact (ih _ _).trans (recordView_takeRecord s i r)

theorem control_of_recordView {s t : State} (h : recordView t = recordView s) :
    t.control = { s.control with cfg := t.control.cfg } :=
  congrArg (fun v => { v.1 with cfg := t.control.cfg }) h

/-! ## The configuration in force -/

theorem cfg_takeZone (z : ZoneId) (c : ZoneConfig) (s : State) : (takeZone z c s).control.cfg
    = { s.control.cfg with zones := put s.control.cfg.zones z c } := by
  unfold takeZone
  dsimp only
  refine congrArg PartControl.cfg ((foldl_keeps State.control _
    (fun t m => (resolveModule_onDrive t m).control) _ _).trans (resolveZone_onDrive _ z).control)

theorem cfg_takeSupervision (c : SupervisionConfig) (s : State) :
    (takeSupervision c s).control.cfg = { s.control.cfg with supervision := c } := by
  unfold takeSupervision
  dsimp only
  obtain ⟨-, control, -, -⟩ := applyPoll_onBus c.enables c.gap (lowerRuns c.tripLimit (s.setCfg
    { s.control.cfg with supervision := { s.control.cfg.supervision with
        tripLimit := c.tripLimit, warnTemp := c.warnTemp, tripTemp := c.tripTemp } }))
  exact congrArg PartControl.cfg (control.trans (foldl_dropModule_keeps _ _).1)

theorem takeRecord_zone (s : State) (z : ZoneId) (c : ZoneConfig) :
    takeRecord s z.val (.zone c) = takeZone z c s := by
  unfold takeRecord
  rw [zoneOf_val]

theorem takeRecord_entrance (s : State) (e : EntranceId) (c : EntranceConfig) :
    takeRecord s (20 + e.val) (.entrance c) = takeEntrance e c s := by
  unfold takeRecord
  rw [Nat.add_sub_cancel_left, entranceOf_val]

theorem cfg_takeRecord {i : Nat} {r : ConfigRecord} (h : Takes i r) (s : State) :
    (takeRecord s i r).control.cfg = withRecord s.control.cfg i r := by
  cases h with
  | zone z c =>
    rw [takeRecord_zone, cfg_takeZone, withRecord, dif_pos z.isLt]
  | entrance e c =>
    have inside : 20 + e.val - 20 < 12 := by omega
    have same : (⟨20 + e.val - 20, inside⟩ : EntranceId) = e := Fin.ext (by simp)
    rw [takeRecord_entrance, withRecord, dif_pos inside, same]
    rfl
  | channel d c =>
    have inside : 32 + d.val - 32 < 4 := by omega
    have same : (⟨32 + d.val - 32, inside⟩ : ChannelId) = d := Fin.ext (by simp)
    unfold takeRecord
    rw [Nat.add_sub_cancel_left, Proofs.ClipArm.channelOf_val, withRecord, dif_pos inside, same]
    rfl
  | auditorium a c => cases a <;> rfl
  | supervision c => exact cfg_takeSupervision c s
  | link c => rfl

theorem recordAt_takeRecord {i : Nat} {r : ConfigRecord} (h : Takes i r) (s : State) :
    recordAt (takeRecord s i r).control.cfg i = some r := by
  rw [cfg_takeRecord h, recordAt_withRecord_self h]

theorem recordAt_takeRecord_other {i j : Nat} {r : ConfigRecord} (h : Takes i r) (ne : j ≠ i)
    (s : State) : recordAt (takeRecord s i r).control.cfg j = recordAt s.control.cfg j := by
  rw [cfg_takeRecord h, recordAt_withRecord_other h ne]

theorem recordAt_takeRecords_below (l : List ConfigRecord) (i : Nat) (s : State)
    (takes : ∀ k r, l[k]? = some r → Takes (i + k) r) {j : Nat} (below : j < i) :
    recordAt (takeRecords i l s).control.cfg j = recordAt s.control.cfg j := by
  induction l generalizing i s with
  | nil => rfl
  | cons r rest ih =>
    have later : ∀ k x, rest[k]? = some x → Takes (i + 1 + k) x := fun k x h => by
      rw [Nat.add_assoc, Nat.add_comm 1 k]
      exact takes (k + 1) x h
    exact (ih (i + 1) (takeRecord s i r) later (by omega)).trans
      (recordAt_takeRecord_other (takes 0 r rfl) (by omega) s)

/-- R189: the records of an image are those in force once their owners have taken them. -/
theorem recordAt_takeRecords (l : List ConfigRecord) (i : Nat) (s : State)
    (takes : ∀ k r, l[k]? = some r → Takes (i + k) r) (k : Nat) (r : ConfigRecord)
    (h : l[k]? = some r) : recordAt (takeRecords i l s).control.cfg (i + k) = some r := by
  induction l generalizing i s k with
  | nil => cases h
  | cons x rest ih =>
    have later : ∀ k x, rest[k]? = some x → Takes (i + 1 + k) x := fun k x h => by
      rw [Nat.add_assoc, Nat.add_comm 1 k]
      exact takes (k + 1) x h
    cases k with
    | zero =>
      obtain rfl := Option.some.inj h
      exact (recordAt_takeRecords_below rest (i + 1) (takeRecord s i x) later (by omega)).trans
        (recordAt_takeRecord (takes 0 x rfl) s)
    | succ k =>
      rw [Nat.add_comm k 1, ← Nat.add_assoc]
      exact ih (i + 1) (takeRecord s i x) later k h

end Sys2Proof.Proofs.Records
end

section
/-! PROOFS. Saving and loading the settings (R189-R192, R194). -/

namespace Sys2Proof.Proofs.SettingsOps

open Sys2Proof Sys2Proof.Machine Sys2Proof.Laws Sys2Proof.Proofs.Cues Sys2Proof.Proofs.Link
  Sys2Proof.Proofs.Passes Sys2Proof.Proofs.Polling Sys2Proof.Proofs.Zones Sys2Proof.Proofs.Images
  Sys2Proof.Proofs.Records

/-! ## The length of an image -/

theorem takes_recordAt (c : Configuration) {i : Nat} (inside : i < 40) :
    ∃ r, recordAt c i = some r ∧ Takes i r := by
  by_cases zone : i < 20
  · exact ⟨_, dif_pos zone, .zone ⟨i, zone⟩ _⟩
  by_cases entrance : i < 32
  · obtain ⟨k, rfl⟩ := Nat.exists_eq_add_of_le (Nat.le_of_not_lt zone)
    have k_lt : k < 12 := by omega
    exact ⟨.entrance (look c.entrances ⟨k, k_lt⟩), by simp [recordAt, k_lt], .entrance ⟨k, k_lt⟩ _⟩
  by_cases channel : i < 36
  · obtain ⟨k, rfl⟩ := Nat.exists_eq_add_of_le (Nat.le_of_not_lt entrance)
    have k_lt : k < 4 := by omega
    have past : ¬ 32 + k < 20 := by omega
    have past' : ¬ 32 + k - 20 < 12 := by omega
    exact ⟨.channel (look c.channels ⟨k, k_lt⟩), by simp [recordAt, k_lt, past, past'],
      .channel ⟨k, k_lt⟩ _⟩
  obtain ⟨k, rfl⟩ := Nat.exists_eq_add_of_le (Nat.le_of_not_lt channel)
  match k, inside with
  | k + 4, past => exact absurd past (by omega)
  | 0, _ => exact ⟨.auditorium c.auditoria.one, rfl, .auditorium .one _⟩
  | 1, _ => exact ⟨.auditorium c.auditoria.two, rfl, .auditorium .two _⟩
  | 2, _ => exact ⟨.supervision c.supervision, rfl, .supervision _⟩
  | 3, _ => exact ⟨.link c.link, rfl, .link _⟩

theorem length_u8 (n : Nat) : (u8 n).length = 1 := length_leBytes 1 n
theorem length_u16 (n : Nat) : (u16 n).length = 2 := length_leBytes 2 n
theorem length_u32 (n : Nat) : (u32 n).length = 4 := length_leBytes 4 n

theorem length_mayBe_u8 {α : Type} (o : Option α) (code : α → Nat) :
    (mayBe 1 (o.map (fun x => u8 (code x)))).length = 2 := by cases o <;> rfl

/-- R189: the byte form of a record is as long as its index says. -/
theorem recordLength_encodeRecord {i : Nat} {r : ConfigRecord} (h : Takes i r) :
    recordLength i = some (encodeRecord r).length := by
  cases h with
  | zone z c =>
    have aud := length_mayBe_u8 c.auditorium audNumber
    simp [recordLength, encodeRecord, encodeZone, audField, aud, length_u8, length_u16, moduleMask, yesNo]
  | entrance e c =>
    have aud := length_mayBe_u8 c.auditorium audNumber
    have inside : 20 + e.val < 32 := by omega
    simp [recordLength, inside, encodeRecord, encodeEntrance, audField, aud, length_u8, length_u32, zoneMask,
      yesNo]
  | channel d c =>
    have aud := length_mayBe_u8 c.auditorium audNumber
    have zone := length_mayBe_u8 c.zone Fin.val
    have live := length_mayBe_u8 c.liveInput liveCode
    have past : ¬ 32 + d.val < 20 := by omega
    have inside : 32 + d.val < 36 := by omega
    simp [recordLength, past, inside, encodeRecord, encodeChannel, audField, aud, zone, live, length_u8]
  | auditorium a c => cases a <;> rfl
  | supervision c => rfl
  | link c => rfl

theorem length_recordArea (c : Configuration) : (recordArea c).length = areaLength := by
  have upTo (n : Nat) (inside : n ≤ 40) :
      ((((List.range n).filterMap (recordAt c)).map encodeRecord).flatten).length = recordStart n := by
    induction n with
    | zero => rfl
    | succ n ih =>
      obtain ⟨r, at_, takes⟩ := takes_recordAt c (i := n) (by omega)
      rw [recordStart_succ, ← ih (by omega), List.range_succ, List.filterMap_append, List.map_append,
        List.flatten_append, List.length_append, recordLength_encodeRecord takes]
      simp [at_]
  exact upTo 40 (Nat.le_refl 40)

theorem length_headerOf (area : List Byte) : (headerOf area).length = 11 := by
  simp [headerOf, length_u32, length_u8, length_u16]

/-- R191: a memory that the save has written reads back as the image. -/
theorem readAll_writtenImage {m : Memory} (wf : Memory.wf m = true) (copy : Configuration) :
    (writtenImage m copy (headerOf (recordArea copy))).readAll 0 11 = headerOf (recordArea copy)
      ∧ (writtenImage m copy (headerOf (recordArea copy))).readAll areaStart areaLength
          = recordArea copy := by
  have area := writeAll_wf (recordArea copy) m areaStart wf
  have whole : (headerOf (recordArea copy)).take 11 = headerOf (recordArea copy) :=
    List.take_of_length_le (Nat.le_of_eq (length_headerOf _))
  unfold writtenImage
  rw [whole]
  refine ⟨?_, ?_⟩
  · have header := readAll_writeAll (headerOf (recordArea copy)) _ 0 area
    rwa [length_headerOf] at header
  · rw [readAll_frame _ _ _ _ _ area (.inr (by rw [length_headerOf]; decide)), ← length_recordArea copy]
    exact readAll_writeAll (recordArea copy) m areaStart wf

/-! ## SETTINGS-SAVE (R191) -/

section save

variable {tag : Byte} {copy : Configuration} {back : List Byte} {s : State}

theorem workSettingsSave_busy (busy : s.control.settings.isSome) :
    workSettingsSave tag s = answered tag .settingsSave .busy [] s := if_pos busy

/-- R190, R191: a save that is accepted has begun, its first two stages written. -/
def saveBegun (tag : Byte) (s : State) : State :=
  { s with control := { s.control with
      settings := some (.save tag s.control.cfg), memoryFault := false
      result := { kind := some .save, result := none, inProgress := true }
      memory := begunImage s.control.memory s.control.cfg } }

theorem workSettingsSave_begins (idle : s.control.settings = none) :
    workSettingsSave tag s = saveBegun tag s := if_neg (by simp [idle])

/-- R191: the image of a save that a reset cuts short has no valid marker. -/
theorem readImage_beginReset (wf : Memory.wf s.control.memory = true) (cause : ResetCause) {t : State}
    (memory : t.control.memory = begunImage s.control.memory s.control.cfg) :
    (readImage (beginReset cause t).control).1 = .marker :=
  readImage_begunImage s.control.memory s.control.cfg wf _ memory rfl

/-- R191: the save has written its image and read it back. -/
def savedWell (back : List Byte) (copy : Configuration) (s : State) : Bool :=
  !s.control.memoryFault && back == headerOf (recordArea copy)

/-- R189, R191: the memory when the save ends. -/
def memoryAfterSave (back : List Byte) (copy : Configuration) (s : State) : Memory :=
  if s.control.memoryFault then s.control.memory else writtenImage s.control.memory copy back

theorem settingsSaveDone_ends (busy : s.control.settings = some (.save tag copy)) :
    settingsSaveDone back s
      = endSettings (if savedWell back copy s then .saved else .memory)
          (answered tag .settingsSave .ok
            (resultBytes (if savedWell back copy s then .saved else .memory))
            (s.updControl (fun c => { c with memory := memoryAfterSave back copy s }))) := by
  unfold settingsSaveDone
  rw [busy]
  rfl

theorem settingsSaveDone_other (other : ∀ x c, s.control.settings ≠ some (.save x c)) :
    settingsSaveDone back s = s := by
  unfold settingsSaveDone
  split
  next x c busy => exact absurd busy (other x c)
  · rfl

theorem pageWriteTimeout_other (other : ∀ x c, s.control.settings ≠ some (.save x c)) :
    pageWriteTimeout s = s := by
  unfold pageWriteTimeout
  split
  next x c busy => exact absurd busy (other x c)
  · rfl

theorem pageWriteTimeout_saving (busy : s.control.settings = some (.save tag copy)) :
    pageWriteTimeout s = { s with control := { s.control with memoryFault := true } } := by
  unfold pageWriteTimeout
  rw [busy]
  rfl

theorem memoryAfterSave_saved (wf : Memory.wf s.control.memory = true)
    (saved : savedWell back copy s = true) :
    (memoryAfterSave back copy s).readAll 0 11 = headerOf (recordArea copy)
      ∧ (memoryAfterSave back copy s).readAll areaStart areaLength = recordArea copy := by
  unfold savedWell at saved
  rw [Bool.and_eq_true, Bool.not_eq_true', beq_iff_eq] at saved
  obtain ⟨fault, rfl⟩ := saved
  have written : memoryAfterSave (headerOf (recordArea copy)) copy s
      = writtenImage s.control.memory copy (headerOf (recordArea copy)) := if_neg (by simp [fault])
  rw [written]
  exact readAll_writtenImage wf copy

end save

/-- Settles O17: the save refused, begun, cut short by a reset, and ended. -/
theorem settingsSaveWritesTheImage : Obligations.SettingsSaveWritesTheImage := by
  unfold Obligations.SettingsSaveWritesTheImage
  intro tag back s
  have begins (h : Ready s) (idle : s.control.settings = none) :
      exec (.settingsSave tag) s = .next (saveBegun tag (taken tag .settingsSave s)) :=
    request_eq_of_work h (workSettingsSave_begins (s := taken tag .settingsSave s) idle)
  refine ⟨fun h busy => request_eq_of_work h (workSettingsSave_busy busy), begins,
    fun h idle wf => ⟨_, begins h idle, ?cut⟩, fun copy h busy => ⟨?timeout, ?done⟩,
    fun h other => ⟨event_eq_of_work h (settingsSaveDone_other other),
      event_eq_of_work h (pageWriteTimeout_other other)⟩⟩
  case cut =>
    intro c mem
    rw [List.mem_cons, List.mem_cons, List.mem_singleton] at mem
    rcases mem with rfl | rfl | rfl
    · exact ⟨_, rfl, readImage_beginReset wf .powerOn rfl⟩
    · exact ⟨_, rfl, readImage_beginReset wf .supplyDip rfl⟩
    · exact ⟨_, rfl, readImage_beginReset wf .resetLine rfl⟩
  case timeout => exact event_eq_of_work h (pageWriteTimeout_saving busy)
  case done =>
    refine ⟨_, event_eq_of_work h (settingsSaveDone_ends busy), ⟨?_, mem_raise_tx _ _ ?_, fun saved wf =>
      memoryAfterSave_saved wf saved⟩, rfl, raise_kinds .., rfl, rfl, rfl, rfl, rfl, rfl⟩
    · rfl
    · have bytes : resultBytes (if savedWell back copy s then .saved else .memory)
          = [if savedWell back copy s then 7 else 0] := by
        cases savedWell back copy s <;> rfl
      rw [bytes]
      exact reply_mem ..

end Sys2Proof.Proofs.SettingsOps
end

section
/-! PROOFS. The ends of a load and of the start-up load (R189, R192, R194). -/

namespace Sys2Proof.Proofs.Loads

open Sys2Proof Sys2Proof.Machine Sys2Proof.Laws Sys2Proof.Proofs.Cues Sys2Proof.Proofs.Link
  Sys2Proof.Proofs.Passes Sys2Proof.Proofs.Polling Sys2Proof.Proofs.Zones Sys2Proof.Proofs.Images
  Sys2Proof.Proofs.Records Sys2Proof.Proofs.Steady

/-! ## The records of an image -/

/-- R189: an image that is not LOADED gives no records. -/
theorem readImage_unloaded {c : PartControl} (h : (readImage c).1 ≠ .loaded) : (readImage c).2 = [] := by
  by_cases reads : readFails c
  · rw [readImage_memory reads]
  by_cases mark : marked c
  case neg => rw [readImage_marker reads mark]
  by_cases long : rightLength c
  case neg => rw [readImage_length reads mark long]
  by_cases check : rightCheck c
  case neg => rw [readImage_crc reads mark long check]
  rw [readImage_records reads mark long check] at h ⊢
  unfold judgeRecords at h ⊢
  cases found : (cutRecords 40 0 (c.memory.readAll areaStart areaLength)).find?
      (fun p => !readPasses p.2) with
  | some p => rfl
  | none =>
    rw [found] at h
    exact absurd rfl h

theorem takes_readImage {c : PartControl} (h : (readImage c).1 = .loaded) (i : Nat) (r : ConfigRecord)
    (at_ : (readImage c).2[i]? = some r) : Takes (0 + i) r := by
  obtain ⟨-, each⟩ := readImage_loaded h
  obtain ⟨inside, decoded, -⟩ := each i r at_
  rw [Nat.zero_add]
  exact takes_of_indexTakes (indexTakes_of_decodeRecord inside decoded)

/-- R189: the part once the owners have taken the records of the image. -/
def imageTaken (s : State) : State := takeRecords 0 (readImage s.control).2 s

theorem imageTaken_control (s : State) :
    (imageTaken s).control = { s.control with cfg := (imageTaken s).control.cfg } :=
  control_of_recordView (recordView_takeRecords 0 _ s)

theorem imageTaken_unloaded {s : State} (h : (readImage s.control).1 ≠ .loaded) : imageTaken s = s := by
  unfold imageTaken
  rw [readImage_unloaded h]
  rfl

theorem imageTaken_loaded {s : State} (h : (readImage s.control).1 = .loaded) (i : Nat)
    (r : ConfigRecord) (at_ : (readImage s.control).2[i]? = some r) :
    recordAt (imageTaken s).control.cfg i = some r := by
  have taken_ := recordAt_takeRecords _ 0 s (takes_readImage h) i r at_
  rw [Nat.zero_add] at taken_
  exact taken_

/-! ## SETTINGS-LOAD (R192) -/

section load

variable {tag : Byte} {s : State}

theorem workSettingsLoad_run (run : s.control.running = true) :
    workSettingsLoad tag s = answered tag .settingsLoad .state [] s := if_pos run

theorem workSettingsLoad_busy (config : s.control.running = false) (busy : s.control.settings.isSome) :
    workSettingsLoad tag s = answered tag .settingsLoad .busy [] s :=
  (if_neg (by simp [config])).trans (if_pos busy)

theorem workSettingsLoad_begins (config : s.control.running = false)
    (idle : s.control.settings = none) :
    workSettingsLoad tag s = beginSettings (.load tag) .load s :=
  (if_neg (by simp [config])).trans (if_neg (by simp [idle]))

theorem settingsLoadDone_ends (busy : s.control.settings = some (.load tag)) :
    settingsLoadDone s = endSettings (readImage s.control).1
      (answered tag .settingsLoad .ok (resultBytes (readImage s.control).1) (imageTaken s)) := by
  unfold settingsLoadDone
  rw [busy]
  rfl

theorem settingsLoadDone_other (other : ∀ x, s.control.settings ≠ some (.load x)) :
    settingsLoadDone s = s := by
  unfold settingsLoadDone
  split
  next x busy => exact absurd busy (other x)
  · rfl

end load

/-- Settles O18: the load refused, begun and ended. -/
theorem settingsLoadReadsTheImage : Obligations.SettingsLoadReadsTheImage := by
  unfold Obligations.SettingsLoadReadsTheImage
  intro tag s
  refine ⟨fun h run => request_eq_of_work h (workSettingsLoad_run run),
    fun h config busy => request_eq_of_work h (workSettingsLoad_busy config busy),
    fun h config idle => request_eq_of_work h (workSettingsLoad_begins config idle),
    fun h busy => ⟨_, event_of_work h (settingsLoadDone_ends busy), ?_⟩,
    fun h other => event_eq_of_work h (settingsLoadDone_other other)⟩
  have control := imageTaken_control s
  have unloaded := imageTaken_unloaded (s := s)
  have loaded := imageTaken_loaded (s := s)
  generalize imageTaken s = t at control unloaded loaded
  refine ⟨?_, mem_raise_tx _ _ (reply_mem ..), rfl, ?_, ?_, ?_, fun h => ?_, loaded⟩
  · have kind := congrArg (fun c : PartControl => c.result.kind) control
    exact congrArg (fun k => ({ kind := k, result := some (readImage s.control).1
                                inProgress := false } : ResultRecord)) kind
  · exact (congrArg PartControl.memory control :)
  · exact (congrArg PartControl.running control :)
  · exact (congrArg (· &&& (0x0800 : Word16)) (raise_kinds ..)).trans (kinds_raised _ 0x0800)
  · exact (congrArg (fun t : State => t.control.cfg) (unloaded h) :)

/-! ## The start-up load (R194) -/

theorem grantPoll_link (s : State) : (grantPoll s).svc.link.pendingKinds = s.svc.link.pendingKinds := by
  unfold grantPoll
  split <;> rfl

theorem answerPass_kinds (p : PassThrough) (st : Status) (w : Option Word16) (s : State) :
    (answerPass p st w s).svc.link.pendingKinds = s.svc.link.pendingKinds := by
  unfold answerPass
  dsimp only
  split <;> rfl

theorem grantBus_kinds (s : State) : (grantBus s).svc.link.pendingKinds = s.svc.link.pendingKinds := by
  unfold grantBus
  split
  · rfl
  · rfl
  · split
    · exact (grantPoll_link _).trans (answerPass_kinds _ _ _ _)
    · rfl
  · exact grantPoll_link s

/-- R47: the first round leaves part control and the pending kinds. -/
theorem firstRound_leaves (s : State) : (firstRound s).control = s.control
    ∧ (firstRound s).svc.link.pendingKinds = s.svc.link.pendingKinds := by
  unfold firstRound
  split
  · obtain ⟨p, eq⟩ := beginRound_eq s
    rw [eq]
    exact ⟨(grantBus_onBus _).control, grantBus_kinds _⟩
  · exact ⟨rfl, rfl⟩

theorem startLoadDone_other {s : State} (other : s.control.settings ≠ some .startLoad) :
    startLoadDone s = s := by
  unfold startLoadDone
  split
  next busy => exact absurd busy other
  · rfl

section startLoad

variable {s : State}

theorem startLoadDone_unloaded (busy : s.control.settings = some .startLoad)
    (h : (readImage s.control).1 ≠ .loaded) :
    startLoadDone s = firstRound (endSettings (readImage s.control).1 s) := by
  unfold startLoadDone
  rw [busy]
  dsimp only
  split
  next loaded => exact absurd loaded h
  · rfl

theorem startLoadDone_loaded (busy : s.control.settings = some .startLoad)
    (h : (readImage s.control).1 = .loaded) :
    startLoadDone s = firstRound (enterLoaded (imageTaken s)) := by
  unfold startLoadDone
  rw [busy]
  dsimp only
  rw [h]
  rfl

end startLoad

/-- R190: an operation of the settings memory has ended with a result. -/
structure LoadOver (r : SettingsResult) (s t : State) : Prop where
  settings : t.control.settings = none
  result : t.control.result = { kind := s.control.result.kind, result := some r, inProgress := false }
  kinds : t.svc.link.pendingKinds &&& 0x0800 = 0x0800
  memory : t.control.memory = s.control.memory
  cfg : t.control.cfg = s.control.cfg
  running : t.control.running = s.control.running

theorem endSettings_loadOver (r : SettingsResult) (s : State) : LoadOver r s (endSettings r s) :=
  ⟨rfl, rfl, (congrArg (· &&& (0x0800 : Word16)) (raise_kinds ..)).trans (kinds_raised _ 0x0800),
    rfl, rfl, rfl⟩

theorem LoadOver.firstRound {r : SettingsResult} {s t : State} (h : LoadOver r s t) :
    LoadOver r s (firstRound t) := by
  obtain ⟨control, kinds⟩ := firstRound_leaves t
  exact ⟨control ▸ h.settings, control ▸ h.result, kinds ▸ h.kinds, control ▸ h.memory,
    control ▸ h.cfg, control ▸ h.running⟩

theorem blocksEnterRun_control (s : State) : (blocksEnterRun s).control = s.control :=
  control_of_view (view_blocksEnterRun s)

theorem enterLoaded_invalid {s : State} {i : Nat} (h : firstFailure s.control.cfg = some i) :
    LoadOver (.invalid i) s (enterLoaded s) := by
  unfold enterLoaded
  rw [h]
  exact endSettings_loadOver _ s

theorem enterLoaded_valid {s : State} (h : firstFailure s.control.cfg = none) :
    LoadOver .loaded (s.setRunning true) (enterLoaded s) := by
  unfold enterLoaded
  rw [h]
  have control := blocksEnterRun_control (s.setRunning true)
  obtain ⟨settings, result, kinds, memory, cfg, running⟩ :=
    endSettings_loadOver .loaded (blocksEnterRun (s.setRunning true))
  exact ⟨settings, control ▸ result, kinds, control ▸ memory, control ▸ cfg, control ▸ running⟩

/-- Settles O19: the image not LOADED, and LOADED with a configuration that passes or does not. -/
theorem startLoadEnds : Obligations.StartLoadEnds := by
  unfold Obligations.StartLoadEnds
  intro s h
  refine ⟨fun other => event_eq_of_work h (startLoadDone_other other), fun busy => ?_⟩
  refine ⟨startLoadDone s, event_of_work h rfl, ?_⟩
  by_cases loaded : (readImage s.control).1 = .loaded
  case neg =>
    rw [startLoadDone_unloaded busy loaded]
    obtain ⟨settings, result, kinds, memory, cfg, running⟩ :=
      (endSettings_loadOver (readImage s.control).1 s).firstRound
    exact ⟨settings, memory, (congrArg ResultRecord.kind result :), congrArg ResultRecord.inProgress result,
      kinds, fun _ => ⟨cfg, running, congrArg ResultRecord.result result⟩,
      fun is => absurd is loaded⟩
  case pos =>
    rw [startLoadDone_loaded busy loaded]
    have control := imageTaken_control s
    have records := imageTaken_loaded loaded
    generalize imageTaken s = t at control records
    have memory' : t.control.memory = s.control.memory := (congrArg PartControl.memory control :)
    have running' : t.control.running = s.control.running := (congrArg PartControl.running control :)
    have kind' : t.control.result.kind = s.control.result.kind :=
      (congrArg (fun c : PartControl => c.result.kind) control :)
    cases valid : firstFailure t.control.cfg with
    | some i =>
      obtain ⟨settings, result, kinds, memory, cfg, running⟩ := (enterLoaded_invalid valid).firstRound
      rw [cfg, valid]
      exact ⟨settings, memory.trans memory', (congrArg ResultRecord.kind result).trans kind',
        congrArg ResultRecord.inProgress result, kinds, fun no => absurd loaded no, fun _ => ⟨records,
        fun none_ => (nomatch none_), fun j some_ => ⟨running.trans running',
          (congrArg ResultRecord.result result).trans (by rw [Option.some.inj some_])⟩⟩⟩
    | none =>
      obtain ⟨settings, result, kinds, memory, cfg, running⟩ := (enterLoaded_valid valid).firstRound
      have cfg' : (t.setRunning true).control.cfg = t.control.cfg := rfl
      rw [cfg, cfg', valid]
      exact ⟨settings, memory.trans memory', (congrArg ResultRecord.kind result).trans kind',
        congrArg ResultRecord.inProgress result, kinds, fun no => absurd loaded no, fun _ => ⟨records,
        fun _ => ⟨running, congrArg ResultRecord.result result⟩, fun j some_ => (nomatch some_)⟩⟩

end Sys2Proof.Proofs.Loads
end

section
/-! PROOFS. CONFIG-WRITE (R186): what each owner makes of the record it takes. -/

namespace Sys2Proof.Proofs.ConfigWrites

open Sys2Proof Sys2Proof.Machine Sys2Proof.Laws Sys2Proof.Proofs.Cues Sys2Proof.Proofs.Link
  Sys2Proof.Proofs.Passes Sys2Proof.Proofs.Polling Sys2Proof.Proofs.Visits
  Sys2Proof.Proofs.VisitSteps Sys2Proof.Proofs.Records

/-! ## Zones that are resolved again (R1, R40) -/

/-- What resolving zones leaves: of the zone records all but the drive fields of the loop zones. -/
structure Redriven (s t : State) : Prop where
  same : OnDrive s t
  zone : ∀ y, ∃ d b, look t.svc.zones y = { look s.svc.zones y with drive := d, backoff := b }
  other : ∀ y, ¬ isLoopKind (look s.control.cfg.zones y).kind = true →
    look t.svc.zones y = look s.svc.zones y
  entrances : t.svc.entrances = s.svc.entrances

theorem Redriven.refl (s : State) : Redriven s s :=
  ⟨OnDrive.refl s, fun _ => ⟨_, _, rfl⟩, fun _ _ => rfl, rfl⟩

theorem Redriven.trans {a b c : State} (h : Redriven a b) (k : Redriven b c) : Redriven a c := by
  refine ⟨h.same.trans k.same, fun y => ?_, fun y other => ?_, k.entrances.trans h.entrances⟩
  · obtain ⟨_, _, first⟩ := h.zone y
    obtain ⟨d, o, second⟩ := k.zone y
    exact ⟨d, o, by rw [second, first]⟩
  · exact (k.other y (by rw [h.same.control]; exact other)).trans (h.other y other)

theorem resolveZone_entrances (s : State) (z : ZoneId) :
    (resolveZone s z).svc.entrances = s.svc.entrances := by
  obtain eq | ⟨d, b, eq | eq⟩ := resolveZone_cases s z
  · rw [eq]
  · rw [eq]
    exact (writeDrive_houses ..).2
  · rw [eq]
    exact (writeDrive_houses ..).2

theorem resolveZone_redriven (s : State) (z : ZoneId) : Redriven s (resolveZone s z) := by
  by_cases loop : isLoopKind (look s.control.cfg.zones z).kind = true
  · obtain ⟨_, own, others, _, _⟩ := resolveZone_loop z s loop
    refine ⟨resolveZone_onDrive s z, fun y => ?_, fun y other => ?_, resolveZone_entrances s z⟩
    · by_cases here : y = z
      · subst here
        exact ⟨_, _, own⟩
      · exact ⟨_, _, others y here⟩
    · exact others y fun here => other (here ▸ loop)
  · have eq : resolveZone s z = s := if_neg loop
    rw [eq]
    exact .refl s

theorem resolveModule_redriven (s : State) (m : ModuleId) : Redriven s (resolveModule s m) := by
  unfold resolveModule
  exact foldl_inv (fun t => Redriven s t) _ (fun t z h => by
    split
    · exact h.trans (resolveZone_redriven t z)
    · exact h) _ _ (Redriven.refl s)

theorem foldl_resolveModule_redriven (l : List ModuleId) (s : State) :
    Redriven s (l.foldl resolveModule s) :=
  foldl_inv (fun t => Redriven s t) _ (fun t m h => h.trans (resolveModule_redriven t m)) _ _
    (Redriven.refl s)

theorem showsDrive_resolveZone_self {s t : State} (same : OnDrive s t) {z : ZoneId}
    (loop : isLoopKind (look s.control.cfg.zones z).kind = true) : ShowsDrive s z (resolveZone t z) := by
  obtain ⟨drive, backoff⟩ := resolved_of_onDrive same z
  obtain ⟨_, record, _, _, _⟩ := resolveZone_loop z t (by rw [same.control]; exact loop)
  exact ⟨(congrArg ZoneRecord.drive record).trans drive,
    (congrArg ZoneRecord.backoff record).trans backoff⟩

/-- R40: a zone that shows the drive state of its modules shows it after other zones are resolved. -/
theorem showsDrive_resolveZone {s t : State} (same : OnDrive s t) {z : ZoneId}
    (loop : isLoopKind (look s.control.cfg.zones z).kind = true) (shown : ShowsDrive s z t)
    (y : ZoneId) : ShowsDrive s z (resolveZone t y) := by
  by_cases here : z = y
  · subst here
    exact showsDrive_resolveZone_self same loop
  · by_cases other : isLoopKind (look t.control.cfg.zones y).kind = true
    · obtain ⟨_, _, others, _, _⟩ := resolveZone_loop y t other
      unfold ShowsDrive
      rw [others z here]
      exact shown
    · have eq : resolveZone t y = t := if_neg other
      rw [eq]
      exact shown

theorem showsDrive_resolveModule {s t : State} (same : OnDrive s t) {z : ZoneId}
    (loop : isLoopKind (look s.control.cfg.zones z).kind = true) (shown : ShowsDrive s z t)
    (m : ModuleId) : ShowsDrive s z (resolveModule t m) := by
  unfold resolveModule
  refine (foldl_inv (fun u => OnDrive s u ∧ ShowsDrive s z u) _ (fun u y h => ?_) _ _
    ⟨same, shown⟩).2
  split
  · exact ⟨h.1.trans (resolveZone_onDrive u y), showsDrive_resolveZone h.1 loop h.2 y⟩
  · exact h

theorem showsDrive_foldl {s t : State} (same : OnDrive s t) {z : ZoneId}
    (loop : isLoopKind (look s.control.cfg.zones z).kind = true) (shown : ShowsDrive s z t)
    (l : List ModuleId) : ShowsDrive s z (l.foldl resolveModule t) :=
  (foldl_inv (fun u => OnDrive s u ∧ ShowsDrive s z u) _ (fun u m h =>
    ⟨h.1.trans (resolveModule_onDrive u m), showsDrive_resolveModule h.1 loop h.2 m⟩) _ _
    ⟨same, shown⟩).2

/-- R40: resolving a list of modules resolves every loop zone that lists one of them. -/
theorem showsDrive_listed {s t : State} (same : OnDrive s t) {z : ZoneId}
    (loop : isLoopKind (look s.control.cfg.zones z).kind = true) {m : ModuleId} {l : List ModuleId}
    (mem : m ∈ l) (lists : m ∈ (look s.control.cfg.zones z).modules) :
    ShowsDrive s z (l.foldl resolveModule t) := by
  refine foldl_reaches (x := m) (inv := OnDrive s) (goal := ShowsDrive s z)
    (fun u y h => h.trans (resolveModule_onDrive u y)) (fun u h => ?_)
    (fun u y h shown => showsDrive_resolveModule h loop shown y) l t mem same
  obtain ⟨drive, backoff⟩ := resolved_of_onDrive h z
  obtain ⟨drive', backoff'⟩ := resolveModule_shows u (z := z) (m := m) (by rw [h.control]; exact loop)
    (by rw [h.control]; exact lists)
  exact ⟨drive'.trans drive, backoff'.trans backoff⟩

theorem driveResolved_of_shows {s t : State} (same : OnDrive s t) {z : ZoneId}
    (shown : ShowsDrive s z t) : DriveResolved z t t := by
  obtain ⟨drive, backoff⟩ := resolved_of_onDrive same z
  exact driveResolved_of z t t (shown.1.trans drive.symm) (shown.2.trans backoff.symm)

/-! ## A ZONE record (R1, R40, R43) -/

/-- R1: the zone's record after a change of kind. -/
def kindChanged (new : ZoneKind) (r : ZoneRecord) : ZoneRecord :=
  let r1 : ZoneRecord :=
    if new = .unused then
      { r with
        active := r.active.filter (fun k => !k.who.isTest)
        stack := r.stack.filter (fun k => !k.who.isTest), testLink := none, testConsole := none }
    else r
  if isLoopKind new then { r1 with drive := .unknown }
  else { r1 with drive := .good, backoff := false }

theorem takeZoneKind_self (z : ZoneId) (old new : ZoneKind) (sv : Services) :
    look (takeZoneKind z old new sv).zones z
      = if old = new then look sv.zones z else kindChanged new (look sv.zones z) := by
  unfold takeZoneKind
  split
  · rfl
  · exact look_put_self ..

theorem takeZoneKind_entrances (z : ZoneId) (old new : ZoneKind) (sv : Services) :
    (takeZoneKind z old new sv).entrances = sv.entrances := by
  unfold takeZoneKind
  split <;> rfl

/-- R1: the configuration taken and the kind changed, before the zones are resolved. -/
def zoneWritten (z : ZoneId) (c : ZoneConfig) (s : State) : State :=
  { s.setCfg { s.control.cfg with zones := put s.control.cfg.zones z c } with
    svc := takeZoneKind z (look s.control.cfg.zones z).kind c.kind s.svc }

theorem takeZone_eq (z : ZoneId) (c : ZoneConfig) (s : State) : takeZone z c s
    = ((look s.control.cfg.zones z).modules ++ c.modules).foldl resolveModule
        (resolveZone (zoneWritten z c s) z) := rfl

theorem takeZone_redriven (z : ZoneId) (c : ZoneConfig) (s : State) :
    Redriven (zoneWritten z c s) (takeZone z c s) := by
  rw [takeZone_eq]
  exact (resolveZone_redriven _ z).trans (foldl_resolveModule_redriven _ _)

theorem zoneWritten_kind (z : ZoneId) (c : ZoneConfig) (s : State) :
    (look (zoneWritten z c s).control.cfg.zones z).kind = c.kind :=
  congrArg ZoneConfig.kind (look_put_self _ z c)

/-- R40: the loop zones that a ZONE record concerns are resolved. -/
theorem takeZone_resolves (z : ZoneId) (c : ZoneConfig) (s : State) (y : ZoneId)
    (loop : isLoopKind (look (takeZone z c s).control.cfg.zones y).kind = true)
    (concerned : y = z ∨ ∃ m ∈ (look s.control.cfg.zones z).modules ++ c.modules,
      m ∈ (look (takeZone z c s).control.cfg.zones y).modules) :
    DriveResolved y (takeZone z c s) (takeZone z c s) := by
  have same := (takeZone_redriven z c s).same
  rw [same.control] at loop concerned
  refine driveResolved_of_shows same ?_
  rw [takeZone_eq]
  rcases concerned with rfl | ⟨m, mem, lists⟩
  · exact showsDrive_foldl (resolveZone_onDrive _ _) loop
      (showsDrive_resolveZone_self (OnDrive.refl _) loop) _
  · exact showsDrive_listed (resolveZone_onDrive _ _) loop mem lists

/-- What a ZONE record makes of its zone, and of the blocks that do not own it. -/
theorem takeZone_acts (z : ZoneId) (c : ZoneConfig) (s : State) :
    let old := look s.control.cfg.zones z
    let r := look s.svc.zones z
    let u := takeZone z c s
    let new := look u.svc.zones z
    let loop (k : ZoneKind) := k = .hallLoop ∨ k = .foyerLoop
    (old.kind ≠ c.kind → c.kind = .unused →
      new.active = r.active.filter (fun k => !k.who.isTest)
      ∧ new.stack = r.stack.filter (fun k => !k.who.isTest)
      ∧ new.testLink = none ∧ new.testConsole = none)
    ∧ (old.kind = c.kind ∨ c.kind ≠ .unused → new.active = r.active ∧ new.stack = r.stack
      ∧ new.testLink = r.testLink ∧ new.testConsole = r.testConsole)
    ∧ (old.kind ≠ c.kind → ¬ loop c.kind → new.drive = .good ∧ new.backoff = false)
    ∧ (old.kind = c.kind → ¬ loop c.kind → new = r)
    ∧ (∀ y, loop (look u.control.cfg.zones y).kind →
      y = z ∨ (∃ m ∈ old.modules ++ c.modules, m ∈ (look u.control.cfg.zones y).modules) →
      DriveResolved y u u)
    ∧ u.svc.entrances = s.svc.entrances ∧ u.sup = s.sup := by
  intro old r u new loop
  have redriven := takeZone_redriven z c s
  obtain ⟨d, b, zone⟩ := redriven.zone z
  have kind := zoneWritten_kind z c s
  have written : look (zoneWritten z c s).svc.zones z
      = if old.kind = c.kind then r else kindChanged c.kind r := takeZoneKind_self z _ _ s.svc
  have unlooped : ¬ loop c.kind → new = look (zoneWritten z c s).svc.zones z := fun no =>
    redriven.other z (by rw [kind, isLoopKind_iff]; exact no)
  have changed : old.kind ≠ c.kind → look (zoneWritten z c s).svc.zones z = kindChanged c.kind r :=
    fun ne => written.trans (if_neg ne)
  have fields : new.active = (look (zoneWritten z c s).svc.zones z).active
      ∧ new.stack = (look (zoneWritten z c s).svc.zones z).stack
      ∧ new.testLink = (look (zoneWritten z c s).svc.zones z).testLink
      ∧ new.testConsole = (look (zoneWritten z c s).svc.zones z).testConsole := by
    rw [show new = _ from zone]
    exact ⟨rfl, rfl, rfl, rfl⟩
  refine ⟨fun ne unused => ?_, fun kept => ?_, fun ne no => ?_, fun eq no => ?_, fun y is concerned =>
    takeZone_resolves z c s y ((isLoopKind_iff _).2 is) concerned,
    redriven.entrances.trans (takeZoneKind_entrances z _ _ s.svc), redriven.same.sup⟩
  · rw [changed ne, unused] at fields
    exact fields
  · by_cases eq : old.kind = c.kind
    · rw [written, if_pos eq] at fields
      exact fields
    · have used : c.kind ≠ .unused := kept.resolve_left eq
      have record : (kindChanged c.kind r).active = r.active ∧ (kindChanged c.kind r).stack = r.stack
          ∧ (kindChanged c.kind r).testLink = r.testLink
          ∧ (kindChanged c.kind r).testConsole = r.testConsole := by
        unfold kindChanged
        rw [if_neg used]
        dsimp only
        split <;> exact ⟨rfl, rfl, rfl, rfl⟩
      obtain ⟨active, stack, link, console⟩ := record
      rw [changed eq, active, stack, link, console] at fields
      exact fields
  · have record : (kindChanged c.kind r).drive = .good ∧ (kindChanged c.kind r).backoff = false := by
      unfold kindChanged
      dsimp only
      rw [if_neg (mt (isLoopKind_iff c.kind).1 no)]
      exact ⟨rfl, rfl⟩
    rw [unlooped no, changed ne]
    exact record
  · rw [unlooped no, written, if_pos eq]

/-! ## An ENTRANCE record (R148) -/

theorem takeEntrance_acts (e : EntranceId) (c : EntranceConfig) (s : State) :
    let r := look s.svc.entrances e
    let same := (look s.control.cfg.entrances e).polarity = c.polarity
    (takeEntrance e c s).svc.entrances = put s.svc.entrances e
        { r with
          sensed := if same then r.sensed else .unknown
          sample := if same then r.sample else none }
      ∧ (takeEntrance e c s).svc.zones = s.svc.zones ∧ (takeEntrance e c s).sup = s.sup := by
  intro r same
  have eq : (takeEntrance e c s).svc = takeEntranceConfig e (look s.control.cfg.entrances e) c s.svc :=
    rfl
  rw [eq]
  unfold takeEntranceConfig
  by_cases polarity : (look s.control.cfg.entrances e).polarity = c.polarity
  · rw [if_pos polarity, if_pos polarity, if_pos polarity]
    exact ⟨(put_look ..).symm, rfl, rfl⟩
  · rw [if_neg polarity, if_neg polarity, if_neg polarity]
    exact ⟨rfl, rfl, rfl⟩

/-! ## A SUPERVISION record (R44, R45) -/

theorem resolveModule_entrances (s : State) (m : ModuleId) :
    (resolveModule s m).svc.entrances = s.svc.entrances := (resolveModule_redriven s m).entrances

theorem grantPoll_svc (s : State) : (grantPoll s).svc = s.svc := by
  unfold grantPoll
  split <;> rfl

theorem answerPass_entrances (p : PassThrough) (st : Status) (w : Option Word16) (s : State) :
    (answerPass p st w s).svc.entrances = s.svc.entrances := by
  unfold answerPass
  dsimp only
  split <;> rfl

theorem grantBus_entrances (s : State) : (grantBus s).svc.entrances = s.svc.entrances := by
  unfold grantBus
  split
  · rfl
  · rfl
  · split
    · rw [grantPoll_svc]
      exact answerPass_entrances _ _ _ _
    · rfl
  · rw [grantPoll_svc]

theorem wakePoll_svc (s : State) : (wakePoll s).svc = s.svc := by
  have round : (beginRound s).svc = s.svc := by
    obtain ⟨p, eq⟩ := beginRound_eq s
    rw [eq]
  unfold wakePoll
  split
  · exact round
  · split
    · exact round
    · rfl
  · rfl

theorem dropVisit_svc (m : ModuleId) (s : State) : (dropVisit m s).svc = s.svc := by
  unfold dropVisit
  split
  · split
    · split
      · rfl
      · exact nextVisit_svc _ _
    · rfl
  · rfl

theorem applyPoll_entrances (w : Word16) (gap : Nat) (s : State) :
    (applyPoll w gap s).svc.entrances = s.svc.entrances := by
  rw [applyPoll_eq, grantBus_entrances, wakePoll_svc]
  refine foldl_keeps (fun t : State => t.svc.entrances) _ (fun t m => ?_) _ _
  rw [dropModule_eq, dropVisit_svc]
  exact resolveModule_entrances _ _

/-- R45: the limits of a SUPERVISION record taken. -/
def limitsTaken (c : SupervisionConfig) (s : State) : State :=
  lowerRuns c.tripLimit (s.setCfg { s.control.cfg with supervision := { s.control.cfg.supervision with
    tripLimit := c.tripLimit, warnTemp := c.warnTemp, tripTemp := c.tripTemp } })

theorem takeSupervision_eq (c : SupervisionConfig) (s : State) :
    takeSupervision c s = applyPoll c.enables c.gap (limitsTaken c s) := rfl

theorem limitsTaken_modules (c : SupervisionConfig) (s : State) (m : ModuleId) :
    look (limitsTaken c s).sup.modules m
      = { look s.sup.modules m with run := min c.tripLimit (look s.sup.modules m).run } := by
  simp [limitsTaken, lowerRuns, State.setSup, State.setCfg, look]

theorem takeSupervision_acts (c : SupervisionConfig) (s : State) :
    (∀ m, look (takeSupervision c s).sup.modules m =
      if pollEnabled s.control.cfg m ∧ c.enables.getLsbD (m.val + 1) = false then
        { look s.sup.modules m with state := .unknown, caps := none, run := 0 }
      else { look s.sup.modules m with run := min c.tripLimit (look s.sup.modules m).run })
    ∧ (takeSupervision c s).svc.entrances = s.svc.entrances := by
  refine ⟨fun m => ?_, applyPoll_entrances c.enables c.gap (limitsTaken c s)⟩
  have modules := (applyPoll_onBus c.enables c.gap (limitsTaken c s)).modules
  have dropped := foldl_dropModule_modules (droppedBy (limitsTaken c s).control.cfg c.enables c.gap)
    ((limitsTaken c s).setCfg (withPoll (limitsTaken c s).control.cfg c.enables c.gap)) m
  have lowered := limitsTaken_modules c s m
  rw [takeSupervision_eq]
  refine (congrArg (look · m) modules).trans (dropped.trans ?_)
  have enabled : pollEnabled (limitsTaken c s).control.cfg m = pollEnabled s.control.cfg m := rfl
  simp only [mem_droppedBy, enabled]
  split
  · exact (congrArg droppedRecord lowered :)
  · exact lowered

/-! ## A LINK record (R173, R174) -/

theorem takeLink_acts (c : LinkConfig) {s : State} (config : s.control.running = false) :
    let owed := s.svc.link.gateOpen && (s.svc.link.pendingKinds &&& c.enables != 0)
      && !s.svc.link.tx.any TxItem.isNotice
    (takeLink c s).svc.link.gateOpen = (s.svc.link.gateOpen && !owed)
      ∧ (takeLink c s).svc.link.tx = s.svc.link.tx
        ++ (if owed then [.notice (w16 s.svc.link.pendingKinds ++ [0])] else []) := by
  intro owed
  have judged := judgeNotice_eq (s.setCfg { s.control.cfg with link := c }).env s.svc.link
  have run : (s.setCfg { s.control.cfg with link := c }).env.run = false := config
  rw [run] at judged
  exact ⟨(congrArg LinkPort.gateOpen judged :), (congrArg LinkPort.tx judged :)⟩

/-! ## CONFIG-WRITE (R186) -/

section configWrite

variable {tag : Byte} {i : Nat} {s : State}

theorem workConfigWrite_refused {r : Option ConfigRecord} {st : Status}
    (h : writeRefusal s i r = some st) :
    workConfigWrite tag i r s = answered tag .configWrite st [] s := by
  unfold workConfigWrite
  rw [h]
  rfl

theorem writeRefusal_run (r : Option ConfigRecord) (run : s.control.running = true) :
    writeRefusal s i r = some .state := if_pos run

theorem writeRefusal_loading (r : Option ConfigRecord) (config : s.control.running = false)
    (load : loading s.control = true) : writeRefusal s i r = some .busy :=
  (if_neg (by simp [config])).trans (if_pos load)

theorem writeRefusal_range {r : Option ConfigRecord} (config : s.control.running = false)
    (idle : loading s.control = false)
    (bad : ∀ x, r = some x → (indexTakes i x && recordLegal x) = false) :
    writeRefusal s i r = some .range := by
  refine (if_neg (by simp [config])).trans ((if_neg (by simp [idle])).trans ?_)
  cases r with
  | none => rfl
  | some x => exact if_neg (by simp [bad x rfl])

theorem workConfigWrite_taken {x : ConfigRecord} (config : s.control.running = false)
    (idle : loading s.control = false) (takes : indexTakes i x = true) (legal : recordLegal x = true) :
    workConfigWrite tag i (some x) s = answered tag .configWrite .ok [] (takeRecord s i x) := by
  have accepted : writeRefusal s i (some x) = none :=
    (if_neg (by simp [config])).trans ((if_neg (by simp [idle])).trans (if_pos (by simp [takes, legal])))
  unfold workConfigWrite
  rw [accepted]
  rfl

end configWrite

/-- Settles O15: the refusals, then the record as its owner takes it. -/
theorem configWriteReplacesTheRecord : Obligations.ConfigWriteReplacesTheRecord := by
  unfold Obligations.ConfigWriteReplacesTheRecord
  intro tag i r s h
  refine ⟨fun run => request_eq_of_work h (workConfigWrite_refused (writeRefusal_run r run)),
    fun config load => request_eq_of_work h (workConfigWrite_refused (writeRefusal_loading r config load)),
    fun config idle bad =>
      request_eq_of_work h (workConfigWrite_refused (writeRefusal_range config idle bad)), ?_⟩
  rintro config idle x rfl takes legal
  have index := takes_of_indexTakes takes
  have view := recordView_takeRecord (taken tag .configWrite s) i x
  have record := recordAt_takeRecord index (taken tag .configWrite s)
  have others (j : Nat) (ne : j ≠ i) := recordAt_takeRecord_other index ne (taken tag .configWrite s)
  have running : (takeRecord (taken tag .configWrite s) i x).control.running = s.control.running :=
    (congrArg (fun v => v.1.running) view :)
  refine ⟨_, request_of_work h (workConfigWrite_taken config idle takes legal), record, others,
    running.trans config, (congrArg (fun v => v.2.2.1) view :), (congrArg (fun v => v.2.2.2.1) view :),
    (congrArg (fun v => v.2.2.2.2) view :), (congrArg (fun v => v.2.1) view :), reply_mem .., ?zone,
    ?entrance, ?supervision, ?link⟩
  case zone =>
    rintro z c rfl rfl
    rw [takeRecord_zone]
    obtain ⟨unused, kept, changed, same, resolved, entrances, sup⟩ :=
      takeZone_acts z c (taken tag .configWrite s)
    refine ⟨unused, kept, changed, same, fun y loop concerned => ?_, entrances, sup⟩
    obtain ⟨good, failed, degraded, backoff⟩ := resolved y loop concerned
    exact ⟨good, failed, degraded, backoff⟩
  case entrance =>
    rintro e c rfl rfl
    rw [takeRecord_entrance]
    exact takeEntrance_acts e c (taken tag .configWrite s)
  case supervision =>
    rintro c rfl
    exact takeSupervision_acts c (taken tag .configWrite s)
  case link =>
    rintro c rfl
    obtain ⟨gate, tx⟩ := takeLink_acts c (s := taken tag .configWrite s) config
    exact ⟨gate, (congrArg (fun l : List TxItem => l ++ [.reply tag .configWrite [[0x00]]]) tx :), rfl, rfl,
      rfl⟩

end Sys2Proof.Proofs.ConfigWrites
end

section
/-! PROOFS. Slots abandoned together (R99). -/

namespace Sys2Proof.Proofs.Abandons

open Sys2Proof Sys2Proof.Machine Sys2Proof.Laws Sys2Proof.Proofs.Playout

/-- R99: the slots of a list that are not IDLE and meet a condition. -/
def meeting (cond : Slot → Bool) (l : List SlotId) (sv : Services) : List SlotId :=
  l.filter (fun i => (look sv.slots i).state != .idle && cond (look sv.slots i))

/-- R99: the slots `lost` have been abandoned for a reason, their owners told. -/
structure Abandoned (reason : AbandonReason) (lost : List SlotId) (sv u : Services) : Prop where
  slots : ∀ i, look u.slots i = if i ∈ lost then Slot.idle else look sv.slots i
  free : u.free = sv.free + (lost.map (fun i => (look sv.slots i).held.length)).sum
  reports : u.reports = sv.reports ++ lost.filterMap (fun i =>
    (look sv.slots i).owner.map (.slotAbandoned i reason))
  rest : u = { sv with slots := u.slots, free := u.free, reports := u.reports }

theorem abandoned_nil (reason : AbandonReason) (sv : Services) : Abandoned reason [] sv sv :=
  ⟨fun _ => rfl, rfl, (List.append_nil _).symm, rfl⟩

theorem abandoned_cons {reason : AbandonReason} {i : SlotId} {lost : List SlotId} {sv u : Services}
    (busy : (look sv.slots i).state ≠ .idle) (fresh : i ∉ lost)
    (h : Abandoned reason lost (abandonFor reason i sv) u) : Abandoned reason (i :: lost) sv u := by
  have first := abandonFor_eq reason busy
  rw [first] at h
  obtain ⟨slots, free, reports, rest⟩ := h
  have other (j : SlotId) (mem : j ∈ lost) :
      look (put sv.slots i Slot.idle) j = look sv.slots j :=
    look_put_of_ne _ (fun same : i = j => fresh (by rwa [same])) _
  refine ⟨fun j => ?_, ?_, ?_, rest⟩
  · rw [slots]
    by_cases here : j = i
    · subst here
      rw [if_neg fresh, if_pos List.mem_cons_self, look_put_self]
    · simp only [List.mem_cons, here, false_or, look_put_of_ne _ (Ne.symm here)]
  · rw [free, List.map_congr_left (fun j mem => by rw [other j mem]), List.map_cons, List.sum_cons,
      Nat.add_assoc]
  · rw [reports, List.filterMap_congr (fun j mem => by rw [other j mem]), List.filterMap_cons]
    cases (look sv.slots i).owner with
    | none => simp
    | some tag => simp

/-- R99: one turn of the pool's walk over the slots. -/
def abandonTurn (reason : AbandonReason) (cond : Slot → Bool) (sv : Services) (i : SlotId) : Services :=
  if (look sv.slots i).state ≠ .idle ∧ cond (look sv.slots i) then abandonFor reason i sv else sv

theorem foldl_abandonTurn (reason : AbandonReason) (cond : Slot → Bool) (l : List SlotId)
    (distinct : l.Nodup) (sv : Services) :
    Abandoned reason (meeting cond l sv) sv (l.foldl (abandonTurn reason cond) sv) := by
  induction l generalizing sv with
  | nil => exact abandoned_nil reason sv
  | cons i rest ih =>
    obtain ⟨fresh, distinct⟩ := List.nodup_cons.1 distinct
    rw [List.foldl_cons]
    by_cases goes : (look sv.slots i).state ≠ .idle ∧ cond (look sv.slots i) = true
    · have turn : abandonTurn reason cond sv i = abandonFor reason i sv := if_pos goes
      have kept : meeting cond rest (abandonFor reason i sv) = meeting cond rest sv := by
        refine List.filter_congr fun j mem => ?_
        rw [abandonFor_eq reason goes.1]
        dsimp only
        rw [look_put_of_ne _ (fun same : i = j => fresh (by rwa [same]))]
      have first : meeting cond (i :: rest) sv = i :: meeting cond rest sv :=
        List.filter_cons_of_pos (by simpa using goes)
      rw [turn, first]
      exact abandoned_cons goes.1 (fun mem => fresh (List.mem_filter.1 mem).1) (kept ▸ ih distinct _)
    · have turn : abandonTurn reason cond sv i = sv := if_neg goes
      have first : meeting cond (i :: rest) sv = meeting cond rest sv :=
        List.filter_cons_of_neg (by simpa using goes)
      rw [turn, first]
      exact ih distinct sv

theorem allSlots_nodup : allSlots.Nodup := List.nodup_finRange 10

theorem abandonWhere_abandoned (reason : AbandonReason) (cond : Slot → Bool) (sv : Services) :
    Abandoned reason (meeting cond allSlots sv) sv (abandonWhere reason cond sv) :=
  foldl_abandonTurn reason cond allSlots allSlots_nodup sv

end Sys2Proof.Proofs.Abandons
end

section
/-! PROOFS. Host silence (R176) and what each report does at the block that takes it (R6, R7, R10,
R83, R106, R113, R116, R117, R120-R122, R134, R138, R140, R144). -/

namespace Sys2Proof.Proofs.Deliveries

open Sys2Proof Sys2Proof.Machine Sys2Proof.Laws Sys2Proof.Proofs.Cues Sys2Proof.Proofs.Link
  Sys2Proof.Proofs.ClipArm Sys2Proof.Proofs.Streams Sys2Proof.Proofs.ClipEnds Sys2Proof.Proofs.CallEnds
  Sys2Proof.Proofs.Closing Sys2Proof.Proofs.Gaps Sys2Proof.Proofs.Loading Sys2Proof.Proofs.Abandons

/-- The state once a report has been taken. -/
def delivered (r : Report) (s : State) : State := { s with svc := deliver s.env r s.svc }

theorem delivered_of {r : Report} {s : State} {sv : Services} (h : deliver s.env r s.svc = sv) :
    delivered r s = { s with svc := sv } := congrArg ({ s with svc := · }) h

/-! ## Settling (log 5, log 20, log 32) -/

theorem settleWith_rest {n : Nat} {env : Env} {sv : Services} (reports : sv.reports = [])
    (walked : sv.walkDue = false) : settleWith n env sv = sv := by
  cases n with
  | zero => rfl
  | succ n =>
    rw [settleWith, reports, walked]
    rfl

theorem settleWith_walk (n : Nat) (env : Env) {sv : Services} (reports : sv.reports = [])
    (owed : sv.walkDue = true) : settleWith (n + 1) env sv = settleWith n env (walk env sv) := by
  rw [settleWith, reports, owed]
  rfl

theorem settleWith_report (n : Nat) (env : Env) {sv : Services} {r : Report} {rest : List Report}
    (reports : sv.reports = r :: rest) :
    settleWith (n + 1) env sv = settleWith n env (deliver env r { sv with reports := rest }) := by
  rw [settleWith, reports]

/-! ## Host silence (R176) -/

theorem silenceExpired_other {s : State} (h : s.svc.link.silenceLeft ≠ some 0) :
    silenceExpired s = s := if_neg h

/-- R176: the services once STANDALONE is set and SILENCE raised, before the slots go. -/
def standaloneSet (s : State) : Services :=
  raise s.env .silence { s.svc with
    link := { s.svc.link with standalone := true, silenceLeft := none } }

/-- R176: the services once host silence has been found. -/
def silenced (s : State) : Services :=
  abandonWhere .hostLost (fun sl => decide (0 < sl.toReceive)) (standaloneSet s)

theorem silenceExpired_runsOut {s : State} (h : s.svc.link.silenceLeft = some 0) :
    silenceExpired s = { s with svc := silenced s } := if_pos h

theorem standaloneSet_eq (s : State) : ∃ link : LinkPort,
    standaloneSet s = { s.svc with link := link } ∧ link.standalone = true ∧ link.silenceLeft = none
      ∧ link.pendingKinds = s.svc.link.pendingKinds ||| 0x0400 := by
  have judged := judgeNotice_eq s.env { s.svc.link with
    standalone := true, silenceLeft := none
    pendingKinds := s.svc.link.pendingKinds ||| NoticeKind.silence.mask }
  exact ⟨_, rfl, (congrArg LinkPort.standalone judged :), (congrArg LinkPort.silenceLeft judged :),
    raise_kinds s.env .silence { s.svc with
      link := { s.svc.link with standalone := true, silenceLeft := none } }⟩

/-! ## Reports about a description slot (R106, R113, R116, R120-R122) -/

section addressed

variable (env : Env) {d : ChannelId} {i : SlotId} (sv : Services)

theorem deliver_abandoned_channel (own : slotChannel i = some d) (reason : AbandonReason) (n : Nat) :
    deliver env (.slotAbandoned i reason n) sv = engineAbandoned env d i reason n sv := by
  unfold deliver
  dsimp only
  rw [own]

theorem deliver_done_channel (own : slotChannel i = some d) (n : Nat) :
    deliver env (.streamDone i n) sv = engineStreamDone env d i n sv := by
  unfold deliver
  dsimp only
  rw [own]

theorem deliver_pass_channel (own : slotChannel i = some d) (n : Nat) :
    deliver env (.passDone i n) sv = enginePassDone env d i sv := by
  unfold deliver
  dsimp only
  rw [own]

theorem deliver_prefill_channel (own : slotChannel i = some d) :
    deliver env (.prefillReached i) sv = enginePrefill env d i sv := by
  unfold deliver
  dsimp only
  rw [own]

theorem deliver_abandoned_call (own : slotChannel i = none) (reason : AbandonReason) (n : Nat) :
    deliver env (.slotAbandoned i reason n) sv = schedulerAbandoned env i reason n sv := by
  unfold deliver
  dsimp only
  rw [own]

theorem deliver_done_call (own : slotChannel i = none) (n : Nat) :
    deliver env (.streamDone i n) sv = schedulerStreamDone env i n sv := by
  unfold deliver
  dsimp only
  rw [own]

theorem deliver_pass_call (own : slotChannel i = none) (n : Nat) :
    deliver env (.passDone i n) sv = schedulerMessageDone env i sv := by
  unfold deliver
  dsimp only
  rw [own]

theorem deliver_prefill_call (own : slotChannel i = none) :
    deliver env (.prefillReached i) sv = schedulerPrefill i sv := by
  unfold deliver
  dsimp only
  rw [own]

end addressed

section clip

variable {env : Env} {d : ChannelId} {i : SlotId} {k : ActiveClip} {sv : Services}
  (own : slotChannel i = some d) (active : (look sv.channels d).active = some k) (slot : k.slot = i)
include own active slot

theorem deliver_slotAbandoned (reason : AbandonReason) :
    deliver env (.slotAbandoned i reason k.desc.clipId) sv = endClip env d (clipOutcomeOf reason) sv := by
  rw [deliver_abandoned_channel env sv own reason _]
  unfold engineAbandoned
  dsimp only
  rw [active]
  exact if_pos (decide_eq_true ⟨slot, rfl⟩)

theorem deliver_streamDone :
    deliver env (.streamDone i k.desc.clipId) sv = endClip env d .done sv := by
  rw [deliver_done_channel env sv own _]
  unfold engineStreamDone
  rw [active]
  exact if_pos ⟨slot, rfl⟩

theorem deliver_passDone_finishing (finishing : k.finishing = true) (n : Nat) :
    deliver env (.passDone i n) sv = endClip env d .done sv := by
  rw [deliver_pass_channel env sv own n]
  unfold enginePassDone
  rw [active]
  exact if_pos ⟨slot, finishing⟩

omit slot in
theorem deliver_passDone_goesOn (goes : k.finishing = false) (n : Nat) :
    deliver env (.passDone i n) sv = sv := by
  rw [deliver_pass_channel env sv own n]
  unfold enginePassDone
  rw [active]
  exact if_neg fun ⟨_, finishing⟩ => by simp [goes] at finishing

end clip

section prefill

variable {env : Env} {d : ChannelId} {i : SlotId} {sv : Services}

theorem enginePrefill_head (head : (look sv.channels d).headSlot = some i)
    (other : ∀ k, (look sv.channels d).active = some k → k.slot ≠ i) :
    enginePrefill env d i sv = putChannel d { look sv.channels d with headFilled := true } sv := by
  unfold enginePrefill
  dsimp only
  cases active : (look sv.channels d).active with
  | none => exact if_pos head
  | some k => exact (if_neg (other k active)).trans (if_pos head)

theorem enginePrefill_waiting {k : ActiveClip} (active : (look sv.channels d).active = some k)
    (waits : k.state = .waitingFill) : enginePrefill env d k.slot sv
      = if k.standing then tryZone env d (setActive d { k with filled := true } sv)
        else tryGap env d (setActive d { k with filled := true } sv) := by
  unfold enginePrefill
  dsimp only
  rw [active]
  exact (if_pos rfl).trans (if_pos waits)

theorem tryGap_waits {k : ActiveClip} (active : (look sv.channels d).active = some k)
    (shut : k.desc.condition = .gap ∧ channelGap env d ≠ .quiet) :
    tryGap env d sv = setActive d { k with state := .waitingGap } sv := by
  unfold tryGap
  rw [active]
  exact if_pos shut

theorem tryGap_tries {k : ActiveClip} (active : (look sv.channels d).active = some k)
    (open_ : ¬ (k.desc.condition = .gap ∧ channelGap env d ≠ .quiet)) :
    tryGap env d sv = tryZone env d sv := by
  unfold tryGap
  rw [active]
  exact if_neg open_

/-- R113: a waiting clip whose slot is filled goes on from step 3, a standing one from step 4. -/
theorem enginePrefill_goesOn {k : ActiveClip} (active : (look sv.channels d).active = some k)
    (waits : k.state = .waitingFill) :
    ∃ st, (look (enginePrefill env d k.slot sv).channels d).active
        = some { k with filled := true, state := st }
      ∧ (k.standing = false → k.desc.condition = .gap → channelGap env d ≠ .quiet → st = .waitingGap)
      ∧ (k.standing = true ∨ k.desc.condition = .atCue ∨ channelGap env d = .quiet →
          st = .speaking ∨ st = .waitingZone) := by
  have filled := active_setActive d { k with filled := true } sv
  rw [enginePrefill_waiting active waits]
  by_cases shut : k.standing = false ∧ k.desc.condition = .gap ∧ channelGap env d ≠ .quiet
  · obtain ⟨queued, gap, loud⟩ := shut
    rw [if_neg (by simp [queued]), tryGap_waits filled ⟨gap, loud⟩]
    refine ⟨.waitingGap, active_setActive .., fun _ _ _ => rfl, fun goes => ?_⟩
    rcases goes with standing | cue | quiet
    · simp [queued] at standing
    · simp [gap] at cue
    · exact absurd quiet loud
  · have tries : (if k.standing then tryZone env d (setActive d { k with filled := true } sv)
        else tryGap env d (setActive d { k with filled := true } sv))
        = tryZone env d (setActive d { k with filled := true } sv) := by
      by_cases standing : k.standing = true
      · exact if_pos standing
      · exact (if_neg standing).trans (tryGap_tries filled fun ⟨gap, loud⟩ =>
          shut ⟨Bool.eq_false_of_not_eq_true standing, gap, loud⟩)
    obtain ⟨st, which, channel⟩ := tryZone_tried env filled
    rw [tries]
    exact ⟨st, by rw [channel], fun queued gap loud => absurd ⟨queued, gap, loud⟩ shut, fun _ => which⟩

end prefill

/-! ## Reports about a claim of a clip (R7, R10, R117) -/

section pause

variable (env : Env) {i : SlotId} {sv : Services}

theorem pauseSlot_playing (h : (look sv.slots i).state = .playing) : (pauseSlot env i sv).2
    = { sv with slots := put sv.slots i { look sv.slots i with state := .paused } } := by
  unfold pauseSlot
  dsimp only
  rw [h]
  exact putSlot_same env (new := { look sv.slots i with state := .paused }) (.inl rfl)

theorem pauseSlot_starved (h : (look sv.slots i).state = .starved) : (pauseSlot env i sv).2
    = { sv with slots := put sv.slots i { look sv.slots i with state := .paused, starve := none } } := by
  unfold pauseSlot
  dsimp only
  rw [h]
  exact putSlot_same env (new := { look sv.slots i with state := .paused, starve := none }) (.inl rfl)

theorem pauseSlot_other (playing : (look sv.slots i).state ≠ .playing)
    (starved : (look sv.slots i).state ≠ .starved) : (pauseSlot env i sv).2 = sv := by
  unfold pauseSlot
  dsimp only
  cases h : (look sv.slots i).state with
  | playing => exact absurd h playing
  | starved => exact absurd h starved
  | idle => rfl
  | loading => rfl
  | paused => rfl

/-- R96: a pause keeps what the slot holds and who owns it. -/
theorem pauseSlot_keeps (i : SlotId) (sv : Services) : ∃ sl : Slot,
    (pauseSlot env i sv).2 = { sv with slots := put sv.slots i sl }
      ∧ sl.owner = (look sv.slots i).owner ∧ sl.held = (look sv.slots i).held
      ∧ (sl.state = .idle → (look sv.slots i).state = .idle) := by
  by_cases playing : (look sv.slots i).state = .playing
  · exact ⟨_, pauseSlot_playing env playing, rfl, rfl, fun idle => by cases idle⟩
  by_cases starved : (look sv.slots i).state = .starved
  · exact ⟨_, pauseSlot_starved env starved, rfl, rfl, fun idle => by cases idle⟩
  · exact ⟨look sv.slots i, (pauseSlot_other env playing starved).trans (by rw [put_look]), rfl, rfl, id⟩

theorem resumeSlot_ahead (paused : (look sv.slots i).state = .paused)
    (ahead : 0 < (look sv.slots i).ahead) :
    (resumeSlot env i sv).2 = putSlot env i { look sv.slots i with state := .playing } sv := by
  simp only [resumeSlot, paused, ahead, if_true]

theorem resumeSlot_starves (paused : (look sv.slots i).state = .paused)
    (empty : (look sv.slots i).ahead = 0) (more : 0 < (look sv.slots i).toReceive) :
    (resumeSlot env i sv).2
      = putSlot env i { look sv.slots i with state := .starved, starve := some starveTime } sv := by
  simp only [resumeSlot, paused, empty, more, Nat.lt_irrefl, if_false, if_true]

end pause

/-- R117: the clip suspended and its slot paused. -/
def suspendedClip (env : Env) (d : ChannelId) (k : ActiveClip) (sv : Services) : Services :=
  setActive d { k with state := .suspended } (pauseSlot env k.slot sv).2

section claims

variable {env : Env} {d : ChannelId} {k : ActiveClip} {sv : Services}
  (active : (look sv.channels d).active = some k)
include active

theorem clipPushed_silent (h : k.state ≠ .speaking) : clipPushed env d sv = sv := by
  unfold clipPushed
  rw [active]
  exact if_pos h

theorem clipPushed_finishing (speaking : k.state = .speaking) (finishing : k.finishing = true) :
    clipPushed env d sv = endClip env d .stopped sv := by
  unfold clipPushed
  rw [active]
  exact (if_neg (not_not.2 speaking)).trans (if_pos finishing)

theorem clipPushed_ends (speaking : k.state = .speaking) (goes : k.finishing = false)
    (queued : k.standing = false) (limit : (look env.cfg.channels d).resumeLimit = 0) :
    clipPushed env d sv = endClip env d .resumeLimit (suspendedClip env d k sv) := by
  unfold clipPushed
  rw [active]
  exact (if_neg (not_not.2 speaking)).trans ((if_neg (by simp [goes])).trans
    ((if_neg (by simp [queued])).trans (if_pos limit)))

theorem clipPushed_suspends (speaking : k.state = .speaking) (goes : k.finishing = false)
    (stays : k.standing = true ∨ (look env.cfg.channels d).resumeLimit ≠ 0) :
    clipPushed env d sv = setActive d
      { k with
        state := .suspended
        resumeLeft := if k.standing then k.resumeLeft
          else some ((look env.cfg.channels d).resumeLimit * 1000) }
      (pauseSlot env k.slot sv).2 := by
  unfold clipPushed
  rw [active]
  refine (if_neg (not_not.2 speaking)).trans ((if_neg (by simp [goes])).trans ?_)
  cases standing : k.standing with
  | true => rfl
  | false =>
    have limit : (look env.cfg.channels d).resumeLimit ≠ 0 := stays.resolve_left (by simp [standing])
    exact (if_neg (by simp)).trans (if_neg limit)

theorem clipRestored_other (h : k.state ≠ .suspended) : clipRestored env d sv = sv := by
  unfold clipRestored
  rw [active]
  exact if_pos h

theorem clipRestored_speaks (h : k.state = .suspended) : clipRestored env d sv
    = (resumeSlot env k.slot (setActive d { k with state := .speaking, resumeLeft := none } sv)).2 := by
  unfold clipRestored
  rw [active]
  exact if_neg (not_not.2 h)

theorem clipLost_ends (h : k.state = .speaking ∨ k.state = .suspended) :
    clipLost env d sv = endClip env d .resumeLimit sv := by
  unfold clipLost
  rw [active]
  exact if_pos h

theorem clipLost_other (speaking : k.state ≠ .speaking) (suspended : k.state ≠ .suspended) :
    clipLost env d sv = sv := by
  unfold clipLost
  rw [active]
  exact if_neg fun h => h.elim speaking suspended

end claims

/-- The end of a clip that has just been suspended. -/
theorem clipEnded_suspended (d : ChannelId) (k : ActiveClip) (outcome : ClipOutcome) (s : State) :
    ClipEnded d k outcome s
      { s with svc := endClip s.env d outcome (suspendedClip s.env d k s.svc) } := by
  obtain ⟨sl, paused, owner, held, idle⟩ := pauseSlot_keeps s.env k.slot s.svc
  rw [suspendedClip, paused]
  have own (c : Channel) : look (put s.svc.channels d c) d = c := look_put_self ..
  have here : look (put s.svc.slots k.slot sl) k.slot = sl := look_put_self ..
  have clip := active_setActive d { k with state := .suspended }
    { s.svc with slots := put s.svc.slots k.slot sl }
  have ended := endClip_clipEnded (d := d) (outcome := outcome) (s := { s with svc := _ }) clip
  obtain ⟨gone, last, mode, queue, zones, notice, slot, others, rest⟩ := ended
  refine ⟨gone, last, mode.trans ?_, queue.trans ?_, zones, notice, fun busy owns => ?_,
    fun e ne => ?_, rest⟩
  · exact congrArg (fun m => if k.standing then ChannelMode.scripted else m)
      (congrArg Channel.mode (own _) :)
  · exact (congrArg Channel.queue (own _) :)
  · obtain ⟨empty, state, free⟩ := slot (fun is => busy (idle ((congrArg Slot.state here).symm.trans is)))
      ((congrArg Slot.owner here).trans (owner.trans owns))
    refine ⟨empty, state, free.trans ?_⟩
    exact congrArg (s.svc.free + List.length ·) ((congrArg Slot.held here).trans held)
  · obtain ⟨clip, line⟩ := others e ne
    have other (c : Channel) : look (put s.svc.channels d c) e = look s.svc.channels e :=
      look_put_of_ne _ ne.symm _
    exact ⟨clip.trans (congrArg Channel.active (other _) :),
      line.trans (congrArg Channel.queue (other _) :)⟩

end Sys2Proof.Proofs.Deliveries
end

section
/-! PROOFS. The silence timer (R175, R176), and the reports the blocks take. -/

namespace Sys2Proof.Proofs.HostSilence

open Sys2Proof Sys2Proof.Machine Sys2Proof.Laws Sys2Proof.Proofs.Cues Sys2Proof.Proofs.Link
  Sys2Proof.Proofs.ClipArm Sys2Proof.Proofs.Streams Sys2Proof.Proofs.ClipEnds Sys2Proof.Proofs.CallEnds
  Sys2Proof.Proofs.Closing Sys2Proof.Proofs.Gaps Sys2Proof.Proofs.Loading Sys2Proof.Proofs.Abandons
  Sys2Proof.Proofs.Deliveries Sys2Proof.Proofs.Starts

/-! ## Reports about a call slot (R134, R138, R144) -/

theorem CallOver.oweWalk {k : Call} {outcome : CallOutcome} {sv u : Services}
    (h : CallOver k outcome sv u) : CallOver k outcome sv (oweWalk u) :=
  ⟨h.gone, h.others, h.finished, h.zones, h.notice, fun i slot => ⟨rfl, (h.slot i slot).2⟩, h.noSlot,
    h.silent, h.channels, h.houses⟩

theorem RepetitionOver.oweWalk {k : Call} {sv u : Services} (h : RepetitionOver k sv u) :
    RepetitionOver k sv (oweWalk u) :=
  ⟨fun last => CallOver.oweWalk (h.last last), h.more, h.zones, h.channels, h.houses, h.silent⟩

section call

variable {env : Env} {i : SlotId} {k : Call} {sv : Services} (holds : slotCall i sv = some k)
include holds

theorem schedulerAbandoned_ends (reason : AbandonReason) :
    schedulerAbandoned env i reason k.desc.callId sv
      = oweWalk (endCall env k.desc.callId (callOutcomeOf reason) sv) := by
  unfold schedulerAbandoned
  rw [holds]
  exact if_pos rfl

theorem schedulerMessageDone_ends (playing : k.state = .playing) (message : k.phase = some .message) :
    schedulerMessageDone env i sv = endRepetition env k.desc.callId sv := by
  unfold schedulerMessageDone
  rw [holds]
  exact if_pos ⟨playing, message⟩

theorem schedulerStreamDone_owes :
    schedulerStreamDone env i k.desc.callId sv = oweWalk (schedulerMessageDone env i sv) := by
  unfold schedulerStreamDone
  rw [holds]
  exact if_pos rfl

theorem schedulerPrefill_fills :
    schedulerPrefill i sv = { sv with
      walkDue := true
      calls := sv.calls.map (fun c =>
        if c.desc.callId = k.desc.callId then { c with filled := true } else c) } := by
  unfold schedulerPrefill
  rw [holds]
  rfl

end call

/-- R140: the zone leaves the unbroken set of a call that plays. -/
theorem callLosesZone_eq (id : Nat) (z : ZoneId) (sv : Services) :
    callLosesZone id z sv = { sv with calls := sv.calls.map (fun k =>
      if k.desc.callId = id ∧ k.state = .playing then
        { k with unbroken := k.unbroken.filter (fun y => y != z) } else k) } := by
  refine congrArg (fun l => { sv with calls := l }) (List.map_congr_left fun k _ => ?_)
  by_cases own : k.desc.callId = id
  · rw [if_pos own]
    by_cases playing : k.state = .playing
    · exact (if_pos playing).trans (if_pos ⟨own, playing⟩).symm
    · exact (if_neg playing).trans (if_neg fun h => playing h.2).symm
  · rw [if_neg own, if_neg fun h => own h.1]

/-! ## Each report at its block -/

section reports

variable (s : State)

theorem clipReports_end {i : SlotId} {d : ChannelId} {k : ActiveClip} (own : slotChannel i = some d)
    (active : (look s.svc.channels d).active = some k) (slot : k.slot = i) (reason : AbandonReason) :
    ClipEnded d k (clipOutcomeOf reason) s (delivered (.slotAbandoned i reason k.desc.clipId) s)
      ∧ ClipEnded d k .done s (delivered (.streamDone i k.desc.clipId) s)
      ∧ (k.finishing = true → ∀ n, ClipEnded d k .done s (delivered (.passDone i n) s))
      ∧ (k.finishing = false → ∀ n, delivered (.passDone i n) s = s) := by
  refine ⟨?_, ?_, fun finishing n => ?_, fun goes n => ?_⟩
  · rw [delivered_of (deliver_slotAbandoned own active slot reason)]
    exact endClip_clipEnded active
  · rw [delivered_of (deliver_streamDone own active slot)]
    exact endClip_clipEnded active
  · rw [delivered_of (deliver_passDone_finishing own active slot finishing n)]
    exact endClip_clipEnded active
  · exact delivered_of (deliver_passDone_goesOn own active goes n)

theorem callReports_end {i : SlotId} {k : Call} (own : slotChannel i = none)
    (holds : slotCall i s.svc = some k) (found : findCall k.desc.callId s.svc = some k)
    (reason : AbandonReason) :
    CallEnded k (callOutcomeOf reason) s (delivered (.slotAbandoned i reason k.desc.callId) s)
      ∧ (k.state = .playing → k.phase = some .message →
        RepetitionEnded k s (delivered (.streamDone i k.desc.callId) s)
          ∧ ∀ n, RepetitionEnded k s (delivered (.passDone i n) s)) := by
  refine ⟨?_, fun playing message => ?_⟩
  · rw [delivered_of ((deliver_abandoned_call s.env s.svc own reason _).trans
      (schedulerAbandoned_ends holds reason))]
    exact (CallOver.oweWalk (endCall_over s.env _ found)).ended rfl rfl rfl rfl
  · have done := schedulerMessageDone_ends (env := s.env) holds playing message
    have streamDone := (deliver_done_call s.env s.svc own k.desc.callId).trans
      ((schedulerStreamDone_owes holds).trans (congrArg Machine.oweWalk done))
    have passDone (n : Nat) := (deliver_pass_call s.env s.svc own n).trans done
    refine ⟨?_, fun n => ?_⟩
    · rw [delivered_of streamDone]
      exact (RepetitionOver.oweWalk (endRepetition_over s.env found)).ended rfl rfl rfl rfl
    · rw [delivered_of (passDone n)]
      exact (endRepetition_over s.env found).ended rfl rfl rfl rfl

section claims

variable {d : ChannelId} {k : ActiveClip} (active : (look s.svc.channels d).active = some k)
  (rank : Nat) (z : ZoneId)
include active

/-- R117: a clip that speaks on after its claim was pushed is suspended and its slot paused. -/
theorem pushed_suspends (speaking : k.state = .speaking) (goes : k.finishing = false)
    (stays : k.standing = true ∨ (look s.control.cfg.channels d).resumeLimit ≠ 0) :
    let pushed := delivered (.claimPushed ⟨rank, .clip d⟩ z) s
    let sl := look s.svc.slots k.slot
    (look pushed.svc.channels d).active = some
        { k with
          state := .suspended
          resumeLeft := if k.standing then k.resumeLeft
            else some ((look s.control.cfg.channels d).resumeLimit * 1000) }
      ∧ (sl.state = .playing →
          pushed.svc.slots = put s.svc.slots k.slot { sl with state := .paused })
      ∧ (sl.state = .starved → pushed.svc.slots = put s.svc.slots k.slot
          { sl with state := .paused, starve := none })
      ∧ pushed.svc.zones = s.svc.zones ∧ pushed.svc.calls = s.svc.calls
      ∧ pushed.svc.free = s.svc.free ∧ pushed.svc.link = s.svc.link := by
  intro pushed sl
  have eq : pushed.svc = _ := clipPushed_suspends (env := s.env) active speaking goes stays
  obtain ⟨new, paused, -⟩ := pauseSlot_keeps s.env k.slot s.svc
  rw [eq]
  refine ⟨active_setActive .., fun playing => ?_, fun starved => ?_, ?_⟩
  · exact congrArg Services.slots (pauseSlot_playing s.env playing)
  · exact congrArg Services.slots (pauseSlot_starved s.env starved)
  · rw [paused]
    exact ⟨rfl, rfl, rfl, rfl⟩

/-- R117: a clip whose claim is active again. -/
theorem restored_speaks (suspended : k.state = .suspended) :
    let restored := delivered (.claimRestored ⟨rank, .clip d⟩ z) s
    let sl := look s.svc.slots k.slot
    (look restored.svc.channels d).active = some { k with state := .speaking, resumeLeft := none }
      ∧ (sl.state = .paused → 0 < sl.ahead →
          restored.svc.slots = put s.svc.slots k.slot { sl with state := .playing })
      ∧ (sl.state = .paused → sl.ahead = 0 → 0 < sl.toReceive →
          restored.svc.slots = put s.svc.slots k.slot
            { sl with state := .starved, starve := some 500 })
      ∧ restored.svc.zones = s.svc.zones ∧ restored.svc.calls = s.svc.calls
      ∧ restored.svc.free = s.svc.free := by
  intro restored sl
  have eq : restored.svc = _ := clipRestored_speaks (env := s.env) active suspended
  have same := onPool_resumeSlot s.env k.slot
    (setActive d { k with state := .speaking, resumeLeft := none } s.svc)
  have free := resumeSlot_free s.env k.slot
    (setActive d { k with state := .speaking, resumeLeft := none } s.svc)
  rw [eq]
  refine ⟨?_, fun paused ahead => ?_, fun paused empty more => ?_, same.zones, same.calls, free⟩
  · rw [same.channels]
    exact active_setActive ..
  · rw [resumeSlot_ahead s.env (sv := setActive d _ s.svc) paused ahead, putSlot_slots]
    rfl
  · rw [resumeSlot_starves s.env (sv := setActive d _ s.svc) paused empty more, putSlot_slots]
    rfl

end claims

end reports

/-- R176: what the end of the silence timer does. -/
theorem silenceTimer_ends {s : State} (h : Still s) (out : s.svc.link.silenceLeft = some 0) :
    let lost := allSlots.filter (fun i =>
      (look s.svc.slots i).state != .idle && decide (0 < (look s.svc.slots i).toReceive))
    ∃ u : State, exec .silenceTimerExpiry s = .next u.settled
      ∧ u.svc.link.standalone = true ∧ u.svc.link.silenceLeft = none
      ∧ u.svc.link.pendingKinds = s.svc.link.pendingKinds ||| 0x0400
      ∧ (∀ i, look u.svc.slots i = if i ∈ lost then Slot.idle else look s.svc.slots i)
      ∧ u.svc.free = s.svc.free + (lost.map (fun i => (look s.svc.slots i).held.length)).sum
      ∧ u.svc.reports = lost.filterMap (fun i =>
          (look s.svc.slots i).owner.map (fun o => .slotAbandoned i .hostLost o))
      ∧ u.svc.zones = s.svc.zones ∧ u.svc.channels = s.svc.channels ∧ u.svc.calls = s.svc.calls
      ∧ u.svc.houses = s.svc.houses ∧ u.control = s.control ∧ u.cue = s.cue ∧ u.sup = s.sup := by
  intro lost
  obtain ⟨link, set, standalone, stopped, kinds⟩ := standaloneSet_eq s
  have abandoned : Abandoned .hostLost lost { s.svc with link := link } (silenced s) := by
    have all := abandonWhere_abandoned .hostLost (fun sl => decide (0 < sl.toReceive)) (standaloneSet s)
    rw [set] at all
    rw [silenced, set]
    exact all
  have work := silenceExpired_runsOut out
  generalize silenced s = u at abandoned work
  obtain ⟨slots, free, reports, rest⟩ := abandoned
  have sent : s.svc.reports = [] := h.reports
  rw [sent, List.nil_append] at reports
  have port : u.link = link := (congrArg Services.link rest :)
  exact ⟨{ s with svc := u }, event_of_work h work, (congrArg LinkPort.standalone port).trans standalone,
    (congrArg LinkPort.silenceLeft port).trans stopped,
    (congrArg LinkPort.pendingKinds port).trans kinds, slots, free, reports,
    (congrArg Services.zones rest :), (congrArg Services.channels rest :),
    (congrArg Services.calls rest :), (congrArg Services.houses rest :), rfl, rfl, rfl⟩

/-- Settles O9: the silence timer, the settling, and each report at the block that takes it. -/
theorem silenceTimerSetsStandalone : Obligations.SilenceTimerSetsStandalone := by
  unfold Obligations.SilenceTimerSetsStandalone
  refine ⟨fun s h => ⟨fun runs => event_eq_of_work h (silenceExpired_other runs),
    silenceTimer_ends h⟩, fun s => rfl, fun n env sv => ⟨settleWith_rest, settleWith_walk n env,
    fun r rest => settleWith_report n env⟩, fun s => ?_⟩
  intro after
  refine ⟨fun i d k reason own active slot => ?clip, fun i k reason own holds found slot => ?call,
    fun i d own => ⟨fun head other => ?head, fun k active slot waits => ?filled⟩,
    fun i k own holds => ?prefill, fun d k rank z active => ?claims, fun d rank z => rfl,
    fun id rank z => ?callClaims⟩
  case clip =>
    have ends := clipReports_end s own active slot reason
    cases reason <;> exact ends
  case call =>
    have ends := callReports_end s own holds found reason
    cases reason <;> exact ends
  case head =>
    exact delivered_of ((deliver_prefill_channel s.env s.svc own).trans (enginePrefill_head head other))
  case filled =>
    subst slot
    have eq := deliver_prefill_channel s.env s.svc own
    obtain ⟨st, filled, gap, goes⟩ := enginePrefill_goesOn (env := s.env) active waits
    rw [← eq] at filled
    exact ⟨st, filled, gap, goes⟩
  case prefill =>
    exact delivered_of ((deliver_prefill_call s.env s.svc own).trans (schedulerPrefill_fills holds))
  case claims =>
    intro pushed restored lost limit sl
    refine ⟨fun silent => delivered_of (clipPushed_silent active silent), fun speaking finishing => ?_,
      fun speaking goes queued none_ => ?_, pushed_suspends s active rank z,
      fun other => delivered_of (clipRestored_other active other), restored_speaks s active rank z,
      fun ends => ?_, fun speaking suspended => delivered_of (clipLost_other active speaking suspended)⟩
    · have eq : pushed = _ := delivered_of (clipPushed_finishing active speaking finishing)
      rw [eq]
      exact endClip_clipEnded active
    · have eq : pushed = _ := delivered_of (clipPushed_ends active speaking goes queued none_)
      rw [eq]
      exact clipEnded_suspended d k .resumeLimit s
    · have eq : lost = _ := delivered_of (clipLost_ends active ends)
      rw [eq]
      exact endClip_clipEnded active
  case callClaims =>
    intro without
    exact ⟨delivered_of (callLosesZone_eq id z s.svc), delivered_of (callLosesZone_eq id z s.svc), rfl⟩

end Sys2Proof.Proofs.HostSilence
end

section
/-! PROOFS. The console's result lines (R183, R184). -/

namespace Sys2Proof.Proofs.ConsoleRows

open Sys2Proof Sys2Proof.Machine Sys2Proof.Laws Sys2Proof.Proofs.Cues Sys2Proof.Proofs.Link
  Sys2Proof.Proofs.Passes Sys2Proof.Proofs.Tests Sys2Proof.Proofs.VisitAnswers

/-! ## A console row (R182, R183, R185) -/

theorem show_lineTaken (lines : List (List TextField)) (s : State) :
    (lineTaken s).show lines = shown lines s := rfl

/-- The work of a console row. -/
def rowWork (c : ConsoleCommand) (s : State) : State :=
  if s.console.state = .editing then endLine (some c) s else s

theorem commandRow_eq (c : ConsoleCommand) (s : State) : commandRow c s = event (rowWork c) s := rfl

section row

variable {c : ConsoleCommand} {s : State}

theorem rowWork_other (h : s.console.state ≠ .editing) : rowWork c s = s := if_neg h

theorem rowWork_editing (h : s.console.state = .editing) :
    rowWork c s = if c.legal then runCommand c (lineTaken s) else shown [[.text "?"]] s := if_pos h

theorem commandRow_other (still : Still s) (h : s.console.state ≠ .editing) :
    commandRow c s = .next s := event_eq_of_work still (rowWork_other h)

theorem rowWork_legal (h : s.console.state = .editing) (legal : c.legal = true) :
    rowWork c s = runCommand c (lineTaken s) := (rowWork_editing h).trans (if_pos legal)

theorem commandRow_malformed (still : Still s) (h : s.console.state = .editing)
    (bad : c.legal = false) : commandRow c s = .next (shown [[.text "?"]] s) :=
  event_eq_of_work still ((rowWork_editing h).trans (if_neg (by simp [bad])))

theorem commandRow_shows {lines : List (List TextField)} (still : Still s)
    (h : s.console.state = .editing) (legal : c.legal = true)
    (run : runCommand c (lineTaken s) = (lineTaken s).show lines) :
    commandRow c s = .next (shown lines s) :=
  event_eq_of_work still ((rowWork_legal h legal).trans run)

theorem commandRow_runs {u : State} (still : Still s) (h : s.console.state = .editing)
    (legal : c.legal = true) (run : runCommand c (lineTaken s) = u) :
    commandRow c s = .next u.settled :=
  event_of_work still ((rowWork_legal h legal).trans run)

end row

theorem argLegal_iff (n : Nat) : argLegal n = true ↔ n ≤ 65535 := decide_eq_true_iff

theorem argLegal_false {n : Nat} (h : 65535 < n) : argLegal n = false :=
  decide_eq_false (Nat.not_le.2 h)

theorem argLegal_of_lt {n k : Nat} (h : n < k) (small : k ≤ 65536) : argLegal n = true :=
  (argLegal_iff n).2 (by omega)

/-! ## Words and numbers (R184, log 40) -/

theorem houseText_named (st : HouseState) : TextField.text (houseText st)
    = named [(.opened, "OPEN"), (.sealed, "SEALED"), (.admitting, "ADMITTING"), (.closing, "CLOSING")]
        st := by cases st <;> rfl

theorem kindText_named (k : ZoneKind) : TextField.text (kindText k)
    = named [(.unused, "UNUSED"), (.hallLoop, "HALL-LOOP"), (.foyerLoop, "FOYER-LOOP"),
        (.foyerSpeaker, "FOYER-SPEAKER"), (.lobby, "LOBBY"), (.description, "DESCRIPTION")] k := by
  cases k <;> rfl

theorem driveText_named (d : DriveState) : TextField.text (driveText d)
    = named [(.unknown, "UNKNOWN"), (.good, "GOOD"), (.degraded, "DEGRADED"), (.failed, "FAILED")] d := by
  cases d <;> rfl

theorem moduleText_named (m : ModuleState) : TextField.text (moduleText m)
    = named [(.unknown, "UNKNOWN"), (.absent, "ABSENT"), (.notReady, "NOT-READY"), (.good, "GOOD"),
        (.warn, "WARN"), (.fault, "FAULT")] m := by cases m <;> rfl

theorem foyerHomeText_named (h : FoyerHome) : TextField.text (foyerHomeText h)
    = named [(.aux, "AUX"), (.silence, "SILENCE")] h := by cases h <;> rfl

theorem orNone_map {α : Type} (f : α → TextField) (o : Option α) :
    orNone f o = (o.map f).getD (.text "none") := by cases o <;> rfl

theorem orNone_number {α : Type} (f : α → Int) (o : Option α) :
    orNone (fun x => .number (f x)) o = numberOrNone (o.map f) := by cases o <;> rfl

/-! ## The lines of a result (R23, R46, R184) -/

theorem statusLine_eq (s : State) (a : Aud) : statusLine s a = statusShown s a := by
  unfold statusLine statusShown houseSeconds
  dsimp only
  rw [houseText_named]
  cases (s.cue.get a).fire with
  | none => cases (s.svc.houses.get a).state <;> rfl
  | some f => cases (s.svc.houses.get a).state <;> rfl

theorem zoneLine_eq (s : State) (z : ZoneId) : zoneLine s.env s.svc z = zoneShown s z := by
  unfold zoneLine zoneShown effectiveAttenuation
  dsimp only
  rw [kindText_named, driveText_named]
  have auditorium := orNone_number (fun a => (audNumber a : Int)) (look s.env.cfg.zones z).auditorium
  refine congrArg₂ (fun x y => _ :: _ :: x :: y) auditorium ?_
  cases (look s.svc.zones z).backoff with
  | false => rfl
  | true => rfl

theorem claimFields_eq (c : Claim) : claimFields c = claimShown c := by
  unfold claimFields claimShown
  cases c.who with
  | test src => cases src <;> rfl
  | _ => rfl

theorem zoneClaimsLine_eq (s : State) (z : ZoneId) : zoneClaimsLine s.svc z = claimsShown s z := by
  have fields : claimFields = claimShown := funext claimFields_eq
  unfold zoneClaimsLine claimsShown
  dsimp only
  rw [fields, List.append_assoc _ (Option.toList _)]
  refine congrArg₂ (fun x y => x ++ _ ++ y) ?_ ?_
  · cases (look s.svc.zones z).active with
    | none => rfl
    | some c => rfl
  · cases (look s.svc.zones z).testLink with
    | none => cases (look s.svc.zones z).testConsole <;> rfl
    | some t => cases (look s.svc.zones z).testConsole <;> rfl

theorem zoneRestLine_eq (s : State) (z : ZoneId) : zoneRestLine s.env z = zoneRestShown s z := by
  unfold zoneRestLine zoneRestShown
  dsimp only
  rw [foyerHomeText_named]
  have cfg : s.env.cfg = s.control.cfg := rfl
  rw [cfg]
  cases (look s.control.cfg.zones z).modules with
  | nil => rfl
  | cons m rest => rfl

theorem wordFaultBits_eq (f : WordFaults) : wordFaultBits f = faultBits f := by
  unfold wordFaultBits faultBits
  cases f.overcurrent <;> cases f.openLoop <;> cases f.overtemp <;> cases f.supply <;>
    cases f.internal <;> rfl

theorem latchBits_eq (r : ModuleRecord) :
    latchBits r = faultBits r.latch + 32 * r.loopShort.toNat + 64 * r.loopOpen.toNat := by
  unfold latchBits
  rw [wordFaultBits_eq]
  cases r.loopShort <;> cases r.loopOpen <;> rfl

theorem moduleLines_eq (s : State) (m : ModuleId) : moduleLines s m = moduleShown s m := by
  unfold moduleLines moduleShown
  dsimp only
  rw [moduleText_named, latchBits_eq, wordFaultBits_eq, loopZoneOf_eq]
  generalize look s.sup.modules m = r
  have resistance : orNone numberField r.resistance = numberOrNone (r.resistance.map Int.ofNat) :=
    orNone_number Int.ofNat _
  have temperature : orNone TextField.number r.temperature = numberOrNone r.temperature := by
    cases r.temperature <;> rfl
  have loop (o : Option ZoneId) :
      orNone (fun z : ZoneId => numberField z.val) o = numberOrNone (o.map (fun z => (z.val : Int))) :=
    orNone_number _ o
  rw [resistance, temperature, loop, orNone_map]
  cases r.outputEnabled with
  | none => rfl
  | some b => cases b <;> rfl

/-! ## The rows that show and those that are refused (R183) -/

/-- Settles O53: each row is its line, `?`, RANGE, or what its command shows. -/
theorem consoleShowsResults : Obligations.ConsoleShowsResults := by
  unfold Obligations.ConsoleShowsResults
  intro n m s h
  simp only [List.forall_mem_cons, List.not_mem_nil, false_imp_iff, implies_true, and_true]
  refine ⟨fun other => ?other, fun editing => ⟨?status, fun long => ?long, ?zone, fun high fits => ?noZone,
    ?module_, fun bad fits => ?noModule, fun one two fits => ?noCue, fun bad fits fits' => ?noRead⟩⟩
  case other =>
    have row (c : ConsoleCommand) : commandRow c s = .next s := commandRow_other h other
    exact ⟨row _, row _, row _, row _, row _, row _, row _⟩
  case status =>
    refine commandRow_shows h editing rfl ?_
    exact congrArg₂ (fun x y => (lineTaken s).show [x, y]) (statusLine_eq ..) (statusLine_eq ..)
  case long =>
    have illegal := argLegal_false long
    have row (c : ConsoleCommand) (bad : c.legal = false) : commandRow c s = .next (shown [[.text "?"]] s) :=
      commandRow_malformed h editing bad
    exact ⟨row _ illegal, row _ illegal, row _ illegal, row _ illegal, row _ illegal,
      row _ (by simp [ConsoleCommand.legal, illegal])⟩
  case zone =>
    rintro z rfl
    refine commandRow_shows h editing (argLegal_of_lt z.isLt (by decide)) ?_
    have run : runCommand (.zone z.val) (lineTaken s) = (lineTaken s).show
        [zoneLine s.env s.svc z, zoneClaimsLine s.svc z, zoneRestLine s.env z] := by
      unfold runCommand runZone
      dsimp only
      rw [zoneOf_val]
      rfl
    rw [run, zoneLine_eq, zoneClaimsLine_eq, zoneRestLine_eq]
  case noZone =>
    have legal := (argLegal_iff n).2 fits
    refine ⟨commandRow_shows (c := .zone n) h editing legal ?_,
      commandRow_shows (c := .test n true) h editing legal ?_,
      commandRow_shows (c := .test n false) h editing legal ?_⟩
    · unfold runCommand runZone
      dsimp only
      rw [zoneOf_eq_none high]
      rfl
    · exact congrArg (showService (lineTaken s)) (startTest_range .console _ (.inl high))
    · exact congrArg (showService (lineTaken s)) (stopTest_range .console _ (.inl high))
  case module_ =>
    rintro k rfl
    refine commandRow_shows h editing ((argLegal_iff _).2 (by omega)) ?_
    have run : runCommand (.module_ (k.val + 1)) (lineTaken s)
        = (lineTaken s).show (moduleLines s k) := by
      unfold runCommand runModule
      dsimp only
      rw [moduleOf_number]
      rfl
    rw [run, moduleLines_eq]
  case noModule =>
    refine commandRow_shows h editing ((argLegal_iff n).2 fits) ?_
    unfold runCommand runModule
    dsimp only
    rw [moduleOf_eq_none bad]
    rfl
  case noCue =>
    refine commandRow_shows h editing ((argLegal_iff n).2 fits) ?_
    unfold runCommand runGo
    dsimp only
    rw [audOf_eq_none one two]
    rfl
  case noRead =>
    refine commandRow_shows h editing (by simp [ConsoleCommand.legal, argLegal_iff, fits, fits']) ?_
    unfold runCommand runRead
    dsimp only
    rw [passCheck_range _ _ bad]
    rfl

end Sys2Proof.Proofs.ConsoleRows
end

section
/-! PROOFS. What the console's commands do (R19, R20, R37, R38, R55), and the characters it sends. -/

namespace Sys2Proof.Proofs.ConsoleActs

open Sys2Proof Sys2Proof.Machine Sys2Proof.Laws Sys2Proof.Proofs.Cues Sys2Proof.Proofs.Link
  Sys2Proof.Proofs.Passes Sys2Proof.Proofs.BusEnds Sys2Proof.Proofs.Tests Sys2Proof.Proofs.Advances
  Sys2Proof.Proofs.CueLine Sys2Proof.Proofs.ConsoleRows

/-! ## `t n 1` and `t n 0` (R19, R20) -/

theorem replaceTest_others {z y : ZoneId} (other : y ≠ z) (src : TestSource) (sv : Services) :
    look (replaceTest z src sv).zones y = look sv.zones y := by
  unfold replaceTest
  dsimp only
  split
  · exact zone_putZone other _ _
  · split
    · exact zone_putZone other _ _
    · exact (zone_loseClaim other _ _).trans (zone_putZone other _ _)

/-- R19: a start concerns its zone alone. -/
theorem startTest_others (env : Env) (src : TestSource) {z y : ZoneId} (other : y ≠ z) (sv : Services) :
    look (startTest env src z.val sv).2.zones y = look sv.zones y := by
  unfold startTest
  rw [zoneOf_val]
  dsimp only
  split_ifs
  · rfl
  · exact zone_putZone other _ _
  · exact (zone_grant other _ _ _).trans (zone_putZone other _ _)
  · rfl
  · exact (zone_putZone other _ _).trans (replaceTest_others other src sv)

section tests

variable {z : ZoneId} {s : State} (h : Still s) (editing : s.console.state = .editing)
  (used : (look s.control.cfg.zones z).kind ≠ .unused)
include h editing used

theorem consoleTestStop_idle (idle : (look s.svc.zones z).testConsole = none) :
    exec (.consoleTestStop z.val) s = .next (shown [[.text "STATE"]] s) :=
  commandRow_shows (c := .test z.val false) h editing (argLegal_of_lt z.isLt (by decide))
    (congrArg (showService (lineTaken s)) (stopTest_state .console _ used idle))

theorem consoleTestStop_stops (runs : (look s.svc.zones z).testConsole.isSome) :
    ∃ u : State, exec (.consoleTestStop z.val) s = .next u.settled
      ∧ u.console = (shown [[.text "OK"]] s).console ∧ (look u.svc.zones z).testConsole = none
      ∧ (look u.svc.zones z).carries (.test .console) = false
      ∧ (∀ y, y ≠ z → look u.svc.zones y = look s.svc.zones y) ∧ u.svc.slots = s.svc.slots
      ∧ u.control = s.control ∧ u.cue = s.cue ∧ u.sup = s.sup := by
  obtain ⟨timer, carries, -, others⟩ := endTest_ends s.env .console z s.svc
  exact ⟨_, commandRow_runs (c := .test z.val false) h editing (argLegal_of_lt z.isLt (by decide))
      (congrArg (showService (lineTaken s)) (stopTest_ok .console s.svc used runs)),
    rfl, timer, carries, others, (onRouter_endTest ..).slots, rfl, rfl, rfl⟩

theorem consoleTestStart_busy (run : s.control.running = true)
    (busy : (look s.svc.zones z).active ≠ none)
    (other : (look s.svc.zones z).carries (.test .console) = false) :
    exec (.consoleTestStart z.val) s = .next (shown [[.text "STATE"]] s) :=
  commandRow_shows (c := .test z.val true) h editing (argLegal_of_lt z.isLt (by decide))
    (congrArg (showService (lineTaken s)) (startTest_state .console _ used run busy other))

theorem consoleTestStart_starts (may : s.control.running = true → (look s.svc.zones z).active = none
      ∨ (look s.svc.zones z).carries (.test .console) = true) :
    ∃ u : State, exec (.consoleTestStart z.val) s = .next u.settled
      ∧ u.console = (shown [[.text "OK"]] s).console
      ∧ (look u.svc.zones z).active.map (·.who) = some (.test .console)
      ∧ (look u.svc.zones z).testConsole = some 600000
      ∧ (∀ y, y ≠ z → look u.svc.zones y = look s.svc.zones y) ∧ u.svc.slots = s.svc.slots
      ∧ u.control = s.control ∧ u.cue = s.cue ∧ u.sup = s.sup := by
  obtain ⟨u, eq, started⟩ := startTest_starts (env := s.env) .console s.svc used may
  have others (y : ZoneId) (ne : y ≠ z) : look u.zones y = look s.svc.zones y := by
    have same := startTest_others s.env .console ne s.svc
    rwa [eq] at same
  exact ⟨_, commandRow_runs (c := .test z.val true) h editing (argLegal_of_lt z.isLt (by decide))
      (congrArg (showService (lineTaken s)) eq),
    rfl, started.active, started.timer, others, started.router.slots, rfl, rfl, rfl⟩

end tests

/-! ## `g a` (R55) -/

theorem sameFollower_lineTaken (a : Aud) (s : State) : SameFollower a s (lineTaken s) :=
  ⟨rfl, rfl, rfl, rfl, rfl, rfl, fun _ _ => rfl, ⟨_, rfl, rfl⟩, rfl, rfl, rfl, rfl, rfl⟩

theorem firedFields_silent {a : Aud} {s : State} (h : firedBy (s.cue.get a) = none) (u : State) :
    firedFields s u a = [.number 0] := by
  unfold firedFields
  rw [h]

theorem firedFields_entry {a : Aud} {s u : State} {e : CueEntry} {f : FireRecord}
    (h : firedBy (s.cue.get a) = some e) (hf : (u.cue.get a).fire = some f) :
    firedFields s u a = .number f.number :: f.outcomes.map (fun o => outcomeText o.2) := by
  unfold firedFields
  rw [h, hf]

theorem firedFields_of_same {a : Aud} {s t : State} (h : SameFollower a s t) (u : State) :
    firedFields t u a = firedFields s u a := by
  unfold Machine.firedFields
  rw [h.firedBy]

theorem answerAdvance_console (p n : Nat) (outs : List ActionOutcome) (s : State) :
    answerAdvance .console p n outs s
      = s.show [[.text "OK", .number p, .number n] ++ outs.map (fun o => outcomeText o.2)] := rfl

/-- R55: what the console shows of an advance that it asked for. -/
theorem takeAdvance_shows (a : Aud) (s : State) : (takeAdvance a .console s).console
    = s.console.answer [[.text "OK", .number (advanceTo (s.cue.get a).position)]
        ++ firedFields s (takeAdvance a .console s) a] := by
  cases h : firedBy (s.cue.get a) with
  | none =>
    rw [firedFields_silent h, takeAdvance_silent h, answerAdvance_console]
    rfl
  | some e =>
    have taken_ := (takeAdvance_entry (asker := .console) h).trans (answerAdvance_console ..)
    have fire := congrArg CueFollower.fire (entryFired_self a .console e s)
    rw [taken_, firedFields_entry (u := (entryFired a .console e s).show _) h fire]
    rfl

section soft

variable {a : Aud} {s : State} (h : Still s) (editing : s.console.state = .editing)
include h editing

omit h editing in
theorem audNumber_legal (a : Aud) : (ConsoleCommand.go (audNumber a)).legal = true := by
  cases a <;> rfl

omit h editing in
theorem runGo_config (config : s.control.running = false) :
    runCommand (.go (audNumber a)) (lineTaken s) = (lineTaken s).showStatus .state := by
  have config' : (lineTaken s).control.running = false := config
  unfold runCommand runGo
  dsimp only
  rw [audOf_audNumber]
  exact if_neg (by simp [config'])

omit h editing in
theorem runGo_run (run : s.control.running = true) :
    runCommand (.go (audNumber a)) (lineTaken s)
      = arriveCue a (.advance .console) (lineTaken s) := by
  unfold runCommand runGo
  dsimp only
  rw [audOf_audNumber]
  exact if_pos run

theorem softCue_advances (run : s.control.running = true) (idle : (s.cue.get a).firing = none)
    (empty : (s.cue.get a).waiting = []) :
    ∃ u : State, exec (.softCue (audNumber a)) s = .next u.settled ∧ Advanced a .console s u
      ∧ u.console = (shown [[.text "OK", .number (advanceTo (s.cue.get a).position)]
          ++ firedFields s u a] s).console := by
  have same := sameFollower_lineTaken a s
  have shows := takeAdvance_shows a (lineTaken s)
  rw [firedFields_of_same same, same.position] at shows
  exact ⟨takeAdvance a .console (lineTaken s),
    commandRow_runs h editing (audNumber_legal a) ((runGo_run run).trans (arriveCue_free _ idle empty)),
    advanced_of_before (takeAdvance_advanced .console idle) same, shows⟩

theorem softCue_full (run : s.control.running = true)
    (busy : (s.cue.get a).firing.isSome ∨ (s.cue.get a).waiting ≠ [])
    (full : 8 ≤ (s.cue.get a).waiting.length) :
    exec (.softCue (audNumber a)) s = .next (shown [[.text "FULL"]] s) :=
  commandRow_shows h editing (audNumber_legal a) ((runGo_run run).trans (arriveCue_full _ busy full))

theorem softCue_waits (run : s.control.running = true)
    (busy : (s.cue.get a).firing.isSome ∨ (s.cue.get a).waiting ≠ [])
    (room : (s.cue.get a).waiting.length < 8) :
    exec (.softCue (audNumber a)) s = .next { lineTaken s with
      cue := s.cue.set a
        { s.cue.get a with waiting := (s.cue.get a).waiting ++ [.advance .console] } } :=
  event_eq_of_work h ((rowWork_legal editing (audNumber_legal a)).trans
    ((runGo_run run).trans (arriveCue_waits _ busy room)))

end soft

/-! ## `r m w` (R37, R38) -/

/-- The console's pass-through that is in flight. -/
def consolePass (k : ModuleId) (w : Nat) : PassThrough :=
  { asker := .console, module_ := k, word := w, value := none }

section read

variable {k : ModuleId} {m : Nat} {s : State}

theorem read_legal (k : ModuleId) (low : m ≤ 15) :
    (ConsoleCommand.read (k.val + 1) m).legal = true := by
  simp only [ConsoleCommand.legal, Bool.and_eq_true, argLegal_iff]
  omega

theorem consoleAmpRead_busy (h : Still s) (editing : s.console.state = .editing) (low : m ≤ 15)
    (busy : s.sup.pass.isSome) :
    exec (.consoleAmpRead (k.val + 1) m) s = .next (shown [[.text "BUSY"]] s) := by
  refine commandRow_shows h editing (read_legal k low) ?_
  unfold runCommand runRead
  dsimp only
  rw [passCheck_busy (lineTaken s) k false low busy]
  rfl

theorem runRead_begins (low : m ≤ 15) (free : s.sup.pass = none) :
    runCommand (.read (k.val + 1) m) (lineTaken s) = beginPass (consolePass k m) (lineTaken s) := by
  have allowed : passCheck (lineTaken s) (k.val + 1) m false = .ok k :=
    passCheck_free (lineTaken s) k false low free
  unfold runCommand runRead
  dsimp only
  rw [allowed]
  rfl

theorem consoleAmpRead_waits (h : Still s) (editing : s.console.state = .editing) (low : m ≤ 15)
    (free : s.sup.pass = none) (flight : s.sup.bus.isSome) :
    exec (.consoleAmpRead (k.val + 1) m) s
      = .next { lineTaken s with sup := { s.sup with pass := some (consolePass k m) } } :=
  event_eq_of_work h ((rowWork_legal editing (read_legal k low)).trans
    ((runRead_begins low free).trans (beginPass_waits (s := lineTaken s) _ flight)))

theorem consoleAmpRead_granted (h : Still s) (editing : s.console.state = .editing) (low : m ≤ 15)
    (free : s.sup.pass = none) (idle : s.sup.bus = none) (queue : s.sup.protective = []) :
    exec (.consoleAmpRead (k.val + 1) m) s
      = .next { lineTaken s with sup := { s.sup with
          pass := some (consolePass k m)
          bus := some { user := .passThrough, module_ := k, word := m, value := none } } } :=
  event_eq_of_work h ((rowWork_legal editing (read_legal k low)).trans ((runRead_begins low free).trans
    (beginPass_granted (s := lineTaken s) _ idle queue (read_not_barred _ _ _ _))))

/-! ## The end of the console's pass-through (R38) -/

theorem passEnd_console_noAnswer {w : Nat} (h : s.sup.pass = some (consolePass k w)) :
    passEnd none (offBus s) = resultShown [.text "NO-ANSWER"] (passOver s) := by
  have pass : (offBus s).sup.pass = some (consolePass k w) := h
  unfold passEnd
  rw [pass]
  rfl

theorem passEnd_console_read {w : Nat} (v : Word16) (h : s.sup.pass = some (consolePass k w)) :
    passEnd (some v) (offBus s) = resultShown [.text "OK", .hex v]
      (if w = 3 then carryFaults k v (passOver s) else passOver s) := by
  have pass : (offBus s).sup.pass = some (consolePass k w) := h
  unfold passEnd
  rw [pass]
  rfl

theorem grantBus_resultShown (fields : List TextField) {t : State} (idle : t.sup.bus = none)
    (free : t.sup.pass = none) :
    grantBus (resultShown fields t) = { resultShown fields t with sup := nextOnBus t.sup } :=
  grantBus_next (resultShown fields t) idle (.inl free)

theorem consolePass_ends (h : Still s) (v : Word16) (w : Nat)
    (flight : s.sup.bus = some { user := .passThrough, module_ := k, word := w, value := none })
    (pass : s.sup.pass = some (consolePass k w)) :
    let r := look s.sup.modules k
    exec .busAnswerTimeout s = .next { resultShown [.text "NO-ANSWER"] s with
      sup := nextOnBus { s.sup with bus := none, pass := none } }
    ∧ (w ≠ 3 → exec (.busTransactionEnd v) s = .next { resultShown [.text "OK", .hex v] s with
        sup := nextOnBus { s.sup with bus := none, pass := none } })
    ∧ (w = 3 → exec (.busTransactionEnd v) s = .next { resultShown [.text "OK", .hex v] s with
        sup := nextOnBus { s.sup with
          bus := none, pass := none
          modules := put s.sup.modules k
            { r with
              latch := r.latch.union (wordFaults v)
              carried := r.carried.union (wordFaults v) } } }) := by
  intro r
  refine ⟨?_, fun other => ?_, fun three => ?_⟩
  · refine event_eq_of_work h ((busEnd_pass none flight).trans ?_)
    rw [passEnd_console_noAnswer pass]
    exact grantBus_resultShown _ (t := passOver s) rfl rfl
  · refine event_eq_of_work h ((busEnd_pass (some v) flight).trans ?_)
    rw [passEnd_console_read v pass, if_neg other]
    exact grantBus_resultShown _ (t := passOver s) rfl rfl
  · refine event_eq_of_work h ((busEnd_pass (some v) flight).trans ?_)
    rw [passEnd_console_read v pass, if_pos three]
    exact grantBus_resultShown _ (t := carryFaults k v (passOver s)) rfl rfl

end read

/-! ## Characters (R181, R184, log 40) -/

/-- A digit of a number base up to 16. -/
def digitByte (x : Nat) : Byte := BitVec.ofNat 8 ("0123456789ABCDEF".toList.getD x '?').toNat

theorem digitChar_byte {n : Nat} (h : n < 10) : BitVec.ofNat 8 n.digitChar.toNat = digitByte n := by
  have each : ∀ m : Fin 10, BitVec.ofNat 8 m.val.digitChar.toNat = digitByte m.val := by decide
  exact each ⟨n, h⟩

theorem hexDigit_eq {n : Nat} (h : n < 16) : hexDigit n = digitByte n := by
  have each : ∀ m : Fin 16, hexDigit m.val = digitByte m.val := by decide
  exact each ⟨n, h⟩

theorem number_chars (n : Nat) : (TextField.number n).chars
    = (Nat.toDigits 10 n).map (fun c => BitVec.ofNat 8 c.toNat) := by
  have positive : ¬ (n : Int) < 0 := by omega
  show decimalOf n = _
  unfold decimalOf
  exact if_neg positive

theorem number_chars_digit {n : Nat} (h : n < 10) : (TextField.number n).chars = [digitByte n] := by
  rw [number_chars, Nat.toDigits_of_lt_base h, List.map_singleton, digitChar_byte h]

theorem number_chars_more {n : Nat} (h : 10 ≤ n) : (TextField.number n).chars
    = (TextField.number (n / 10 : Nat)).chars ++ [digitByte (n % 10)] := by
  rw [number_chars, number_chars, Nat.toDigits_of_base_le (by decide) h, List.map_append,
    List.map_singleton, digitChar_byte (Nat.mod_lt n (by decide))]

theorem number_chars_neg {n : Nat} (h : n ≠ 0) :
    (TextField.number (-n)).chars = 0x2D :: (TextField.number n).chars := by
  have negative : (-(n : Int)) < 0 := by omega
  rw [number_chars]
  show decimalOf (-n) = _
  unfold decimalOf
  rw [Int.natAbs_neg, Int.natAbs_natCast]
  exact if_pos negative

theorem hex_chars (w : Word16) : (TextField.hex w).chars
    = [0x30, 0x78, digitByte (w.toNat / 4096), digitByte (w.toNat / 256 % 16),
        digitByte (w.toNat / 16 % 16), digitByte (w.toNat % 16)] := by
  have top : w.toNat / 4096 < 16 := by have := w.isLt; omega
  show hexOf w = _
  unfold hexOf
  rw [Nat.mod_eq_of_lt top, hexDigit_eq top, hexDigit_eq (Nat.mod_lt _ (by decide)),
    hexDigit_eq (Nat.mod_lt _ (by decide)), hexDigit_eq (Nat.mod_lt _ (by decide))]

/-- Settles O54: each command, the end of a pass-through, and the characters of each text. -/
theorem consoleCommandsAct : Obligations.ConsoleCommandsAct := by
  unfold Obligations.ConsoleCommandsAct
  refine ⟨fun n m s h editing => ⟨?tests, ?unused, ?soft, ?read⟩,
    fun v k w s h flight pass => consolePass_ends h v w flight pass, fun c n w f g more k => ?chars⟩
  case tests =>
    rintro z rfl used
    exact ⟨consoleTestStop_idle h editing used, consoleTestStop_stops h editing used,
      consoleTestStart_busy h editing used, consoleTestStart_starts h editing used⟩
  case unused =>
    rintro z rfl unused
    have legal := argLegal_of_lt z.isLt (by decide : 20 ≤ 65536)
    exact ⟨commandRow_shows (c := .test z.val true) h editing legal
        (congrArg (showService (lineTaken s)) (startTest_range .console _ (.inr ⟨z, rfl, unused⟩))),
      commandRow_shows (c := .test z.val false) h editing legal
        (congrArg (showService (lineTaken s)) (stopTest_range .console _ (.inr ⟨z, rfl, unused⟩)))⟩
  case soft =>
    rintro a rfl
    exact ⟨fun config => commandRow_shows h editing (audNumber_legal a) (runGo_config config),
      softCue_advances h editing, softCue_full h editing, softCue_waits h editing⟩
  case read =>
    rintro k rfl low
    exact ⟨consoleAmpRead_busy h editing low, consoleAmpRead_waits h editing low,
      consoleAmpRead_granted h editing low⟩
  case chars =>
    intro digit
    exact ⟨rfl, rfl, rfl, rfl, rfl, rfl, rfl, List.append_assoc .., number_chars_digit,
      number_chars_more, number_chars_neg, hex_chars w, List.flatMap_def ..⟩

end Sys2Proof.Proofs.ConsoleActs
end

section
/-! PROOFS. The characters the console takes (R181, R182) and the parse of a line (R183). -/

namespace Sys2Proof.Proofs.ConsoleLines

open Sys2Proof Sys2Proof.Machine Sys2Proof.Laws Sys2Proof.Proofs.Cues Sys2Proof.Proofs.Link
  Sys2Proof.Proofs.ConsoleRows

/-! ## The words of a line (R183) -/

theorem splitOn_separator (rest : List Byte) :
    ((0x20 : Byte) :: rest).splitOn 0x20 = [] :: rest.splitOn 0x20 := by
  simp [List.splitOn, List.splitOnP_cons_eq_if_modifyHead]

theorem splitOn_letter {c : Byte} (h : c ≠ 0x20) (rest : List Byte) :
    (c :: rest).splitOn 0x20 = (rest.splitOn 0x20).modifyHead (c :: ·) := by
  rw [List.splitOn, List.splitOnP_cons_eq_if_modifyHead]
  exact if_neg (by simpa using h)

/-- The word being read goes in front of the first of the words that follow. -/
theorem wordsOf_eq (line word : List Byte) : wordsOf line word
    = ((line.splitOn 0x20).modifyHead (word.reverse ++ ·)).filter (fun w => !w.isEmpty) := by
  induction line generalizing word with
  | nil =>
    unfold wordsOf
    cases word with
    | nil => rfl
    | cons c rest => simp [List.splitOn]
  | cons c rest ih =>
    unfold wordsOf
    by_cases space : c = 0x20
    · subst space
      have next_ : wordsOf rest [] = (rest.splitOn 0x20).filter (fun w => !w.isEmpty) := by
        rw [ih]
        cases rest.splitOn 0x20 <;> rfl
      rw [if_pos rfl, splitOn_separator, next_]
      cases word with
      | nil => rfl
      | cons c rest => simp
    · rw [if_neg space, splitOn_letter space, ih, List.modifyHead_modifyHead]
      congr 2
      funext l
      simp

theorem wordsOf_nil (line : List Byte) :
    wordsOf line [] = (line.splitOn 0x20).filter (fun w => !w.isEmpty) := by
  rw [wordsOf_eq]
  cases line.splitOn 0x20 <;> rfl

/-! ## The arguments of a line (R183) -/

theorem foldl_digits (word : List Byte) :
    word.foldl (fun acc c => acc * 10 + (c.toNat - 0x30)) 0
      = Nat.ofDigits 10 (word.reverse.map (fun c => c.toNat - 0x30)) := by
  rw [Nat.ofDigits_eq_foldr, List.foldr_map, List.foldl_eq_foldr_reverse]
  simp only [Nat.cast_id, Nat.mul_comm, Nat.add_comm]

theorem isDigit_iff (c : Byte) : isDigit c = true ↔ 0x30 ≤ c.toNat ∧ c.toNat ≤ 0x39 := by
  simp [isDigit]

theorem argOf_iff (word : List Byte) (n : Nat) : argOf word = some n ↔ Written word n := by
  unfold argOf
  dsimp only
  rw [foldl_digits]
  split
  next fits =>
    simp only [Bool.and_eq_true, List.all_eq_true, isDigit_iff, between_iff, argLegal_iff] at fits
    obtain ⟨⟨digits, low, high⟩, limit⟩ := fits
    refine ⟨fun h => ?_, fun h => congrArg some h.value.symm⟩
    obtain rfl := Option.some.inj h
    exact ⟨digits, ⟨low, high⟩, rfl, limit⟩
  next bad =>
    refine ⟨fun h => (nomatch h), fun h => absurd ?_ bad⟩
    simp only [Bool.and_eq_true, List.all_eq_true, isDigit_iff, between_iff, argLegal_iff]
    exact ⟨⟨h.digits, h.count⟩, h.value ▸ h.limit⟩

theorem argsOf_iff (words : List (List Byte)) (ns : List Nat) :
    argsOf words = some ns ↔ List.Forall₂ Written words ns := by
  induction words generalizing ns with
  | nil => simp [argsOf, eq_comm]
  | cons w rest ih =>
    have one := argOf_iff w
    unfold argsOf
    cases first : argOf w with
    | none =>
      refine ⟨fun h => (nomatch h), fun h => ?_⟩
      obtain ⟨n, _, written, -, -⟩ := List.forall₂_cons_left_iff.1 h
      rw [(one n).2 written] at first
      cases first
    | some n =>
      have written := (one n).1 first
      cases others : argsOf rest with
      | none =>
        refine ⟨fun h => (nomatch h), fun h => ?_⟩
        obtain ⟨_, l, -, more, -⟩ := List.forall₂_cons_left_iff.1 h
        rw [(ih l).2 more] at others
        cases others
      | some l =>
        refine ⟨fun h => ?_, fun h => ?_⟩
        · obtain rfl := Option.some.inj h
          exact .cons written ((ih l).1 others)
        · obtain ⟨m, l', written', more, rfl⟩ := List.forall₂_cons_left_iff.1 h
          obtain rfl := Option.some.inj (((one m).2 written').symm.trans first)
          obtain rfl := Option.some.inj (((ih l').2 more).symm.trans others)
          rfl

/-! ## The command of a line (R183) -/

theorem spelled_of {line : List Byte} {words : List (List Byte)} {letter : Byte}
    {found cmd : ConsoleCommand} (split_ : wordsOf line [] = [letter] :: words)
    (name : letter.toNat = (spelling found).1.toNat) (values : argsOf words = some (spelling found).2)
    (h : some found = some cmd) :
    ∃ args, wordsOf line [] = [(spelling cmd).1] :: args ∧ argsOf args = some (spelling cmd).2 := by
  obtain rfl := Option.some.inj h
  exact ⟨words, by rw [split_, BitVec.eq_of_toNat_eq name], values⟩

theorem parseLine_spelled {line : List Byte} {cmd : ConsoleCommand} (h : parseLine line = some cmd) :
    ∃ args, wordsOf line [] = [(spelling cmd).1] :: args ∧ argsOf args = some (spelling cmd).2 := by
  unfold parseLine at h
  split at h
  next letter words split_ =>
    split at h
    next name values => exact spelled_of (found := .status) split_ name values h
    next n name values => exact spelled_of (found := .zone n) split_ name values h
    next n name values => exact spelled_of (found := .module_ n) split_ name values h
    next n name values => exact spelled_of (found := .test n true) split_ name values h
    next n name values => exact spelled_of (found := .test n false) split_ name values h
    next n name values => exact spelled_of (found := .go n) split_ name values h
    next m w name values => exact spelled_of (found := .read m w) split_ name values h
    · exact (nomatch h)
  · exact (nomatch h)

theorem parseLine_of_spelling {line : List Byte} {cmd : ConsoleCommand} {args : List (List Byte)}
    (words : wordsOf line [] = [(spelling cmd).1] :: args)
    (values : argsOf args = some (spelling cmd).2) : parseLine line = some cmd := by
  unfold parseLine
  rw [words]
  dsimp only
  rw [values]
  cases cmd with
  | test n start => cases start <;> rfl
  | _ => rfl

theorem parseLine_iff (line : List Byte) (cmd : ConsoleCommand) :
    parseLine line = some cmd ↔ Spells line cmd := by
  unfold Spells
  rw [← wordsOf_nil]
  simp only [← argsOf_iff]
  exact ⟨parseLine_spelled, fun ⟨args, words, values⟩ => parseLine_of_spelling words values⟩

/-! ## Characters (R181, R182) -/

/-- The state with the receive line at the stop level. -/
def atStop (s : State) : State := { s with pins := { s.pins with consoleStop := true } }

theorem consoleCharacter_whole (c : Byte) (s : State) :
    consoleCharacter c false s = takeCharacter c false (atStop s) := rfl

section character

variable {c : Byte} {s : State}

theorem takeCharacter_silent (f : Bool) (h : s.console.state = .silent) :
    takeCharacter c f s = { s with console := { s.console with idle := 0 } } := by
  unfold takeCharacter
  rw [h]
  rfl

/-- R181, R182: a character with a framing error is ignored once the console is not SILENT. -/
theorem takeCharacter_framing (h : s.console.state ≠ .silent) : takeCharacter c true s = s := by
  unfold takeCharacter
  cases state : s.console.state with
  | silent => exact absurd state h
  | _ => rfl

theorem takeCharacter_waking (h : s.console.state = .waking) : takeCharacter c false s
    = { s with console := { s.console with
        state := .editing, line := [], sent := s.console.sent ++ [.banner, .prompt] } } := by
  unfold takeCharacter
  rw [h]
  rfl

theorem takeCharacter_executing (h : s.console.state = .executing) : takeCharacter c false s = s := by
  unfold takeCharacter
  rw [h]

theorem takeCharacter_comment (h : s.console.state = .comment) : takeCharacter c false s
    = if c = 0x0D ∨ c = 0x1B ∨ c = 0x7F then
        { s with console := { s.console with state := .editing, sent := s.console.sent ++ [.prompt] } }
      else s := by
  unfold takeCharacter
  rw [h]
  dsimp only
  rw [if_neg Bool.false_ne_true, State.updConsole, commentCharacter]
  split <;> rfl

theorem takeCharacter_editing (h : s.console.state = .editing) :
    takeCharacter c false s = editCharacter c s := by
  unfold takeCharacter
  rw [h]
  rfl

end character

section edit

variable {c : Byte} {s : State}

theorem editCharacter_comment (hc : c = 0x23) (h : s.console.line = []) : editCharacter c s
    = { s with console := { s.console with state := .comment } } := by
  have printable : 0x20 ≤ c.toNat ∧ c.toNat ≤ 0x7E := by
    rw [hc]
    decide
  unfold editCharacter
  dsimp only
  rw [if_pos printable, if_pos ⟨h, hc⟩]

theorem editCharacter_printable (printable : 0x20 ≤ c.toNat ∧ c.toNat ≤ 0x7E)
    (h : ¬ (s.console.line = [] ∧ c = 0x23)) : editCharacter c s
      = if s.console.line.length < 40 then
          { s with console := { s.console with
              line := s.console.line ++ [c], sent := s.console.sent ++ [.echo c] } }
        else s := by
  unfold editCharacter
  dsimp only
  rw [if_pos printable, if_neg h]
  rfl

theorem editCharacter_ignored (control : c.toNat < 0x20 ∨ 0x7F < c.toNat) (bs : c ≠ 0x08)
    (cr : c ≠ 0x0D) (esc : c ≠ 0x1B) : editCharacter c s = s := by
  have plain : ¬ (0x20 ≤ c.toNat ∧ c.toNat ≤ 0x7E) := by omega
  have keeps : ¬ (c = 0x1B ∨ c = 0x7F) := by
    rintro (is | rfl)
    · exact esc is
    · simp at control
  unfold editCharacter
  dsimp only
  rw [if_neg plain, if_neg bs, if_neg keeps, if_neg cr]

theorem editCharacter_backspace (hc : c = 0x08) : editCharacter c s
    = if s.console.line = [] then s
      else { s with console := { s.console with
        line := s.console.line.dropLast, sent := s.console.sent ++ [.rubOut] } } := by
  have plain : ¬ (0x20 ≤ c.toNat ∧ c.toNat ≤ 0x7E) := by
    rw [hc]
    decide
  unfold editCharacter
  dsimp only
  rw [if_neg plain, if_pos hc]
  rfl

/-- R182: ESC and DEL drop the line. -/
theorem editCharacter_drop (hc : c = 0x1B ∨ c = 0x7F) : editCharacter c s
    = if s.console.line = [] then s
      else { s with console := { s.console with
        line := [], sent := s.console.sent ++ [.dollar, .lineEnd, .prompt] } } := by
  have plain : ¬ (0x20 ≤ c.toNat ∧ c.toNat ≤ 0x7E) := by rcases hc with rfl | rfl <;> decide
  have bs : c ≠ 0x08 := by rcases hc with rfl | rfl <;> decide
  unfold editCharacter
  dsimp only
  rw [if_neg plain, if_neg bs, if_pos hc]
  rfl

theorem editCharacter_return (hc : c = 0x0D) : editCharacter c s
    = if s.console.line = [] then
        { s with console := { s.console with sent := s.console.sent ++ [.lineEnd, .prompt] } }
      else endLine (parseLine s.console.line) s := by
  have plain : ¬ (0x20 ≤ c.toNat ∧ c.toNat ≤ 0x7E) := by
    rw [hc]
    decide
  have bs : c ≠ 0x08 := by
    rw [hc]
    decide
  have keeps : ¬ (c = 0x1B ∨ c = 0x7F) := by
    rw [hc]
    decide
  unfold editCharacter
  dsimp only
  rw [if_neg plain, if_neg bs, if_neg keeps, if_pos hc]
  rfl

theorem exec_rowOf (cmd : ConsoleCommand) (s : State) : exec (rowOf cmd) s = commandRow cmd s := by
  cases cmd with
  | test n start => cases start <;> rfl
  | _ => rfl

end edit

/-! ## A character in each state of the console (R181, R182) -/

section exec

variable {s u : State} {c : Byte} (h : Still s)
include h

theorem exec_whole (work : takeCharacter c false (atStop s) = u)
    (reports : u.svc.reports = s.svc.reports := by rfl)
    (walk : u.svc.walkDue = s.svc.walkDue := by rfl) :
    exec (.consoleCharacter c false) s = .next u :=
  event_eq_of_work h ((consoleCharacter_whole c s).trans work) reports walk

theorem still_atStop : Still (atStop s) := ⟨h.up, h.reports, h.walk⟩

theorem exec_edited (editing : s.console.state = .editing) (work : editCharacter c (atStop s) = u)
    (reports : u.svc.reports = s.svc.reports := by rfl)
    (walk : u.svc.walkDue = s.svc.walkDue := by rfl) :
    exec (.consoleCharacter c false) s = .next u :=
  exec_whole h ((takeCharacter_editing (s := atStop s) editing).trans work) reports walk

/-- R183, R185: the carriage return runs the row that its line spells. -/
theorem exec_return (editing : s.console.state = .editing) (some_ : s.console.line ≠ [])
    {cmd : ConsoleCommand} (spells : parseLine s.console.line = some cmd) :
    exec (.consoleCharacter 0x0D false) s = exec (rowOf cmd) (atStop s) := by
  have returns : editCharacter 0x0D (atStop s) = endLine (some cmd) (atStop s) := by
    rw [editCharacter_return rfl, ← spells]
    exact if_neg some_
  have row : rowWork cmd (atStop s) = endLine (some cmd) (atStop s) := if_pos editing
  have line := event_of_work (w := consoleCharacter 0x0D false) h ((consoleCharacter_whole 0x0D s).trans
    ((takeCharacter_editing (s := atStop s) editing).trans returns))
  exact line.trans ((exec_rowOf cmd _).trans (event_of_work (still_atStop h) row)).symm

end exec

/-- Settles O55: the states of the console, the line it edits, and the parse. -/
theorem consoleTakesCharacters : Obligations.ConsoleTakesCharacters := by
  unfold Obligations.ConsoleTakesCharacters
  refine ⟨fun c s h => ?_, parseLine_iff⟩
  intro k at_ x
  refine ⟨fun silent => event_eq_of_work h (if_pos silent), fun other => ⟨event_eq_of_work h (if_neg other),
    event_eq_of_work h (takeCharacter_framing (s := lineAfter c true s) other)⟩, fun silent f =>
    event_eq_of_work h (takeCharacter_silent (s := lineAfter c f s) f silent), fun waking =>
    exec_whole h (takeCharacter_waking (s := atStop s) waking), fun executing =>
    exec_whole h (takeCharacter_executing (s := atStop s) executing), fun comment => ?comment,
    fun editing => ⟨fun empty => exec_edited h editing (editCharacter_comment (s := atStop s) rfl empty),
      fun low high plain => ?printable, fun control bs cr esc => exec_edited h editing
        (editCharacter_ignored control bs cr esc), fun empty => ?empty, fun some_ => ?line⟩⟩
  case comment =>
    have work := takeCharacter_comment (c := c) (s := atStop s) comment
    by_cases ends : c = 0x0D ∨ c = 0x1B ∨ c = 0x7F
    · rw [if_pos ends] at work ⊢
      exact exec_whole h work
    · rw [if_neg ends] at work ⊢
      exact exec_whole h work
  case printable =>
    have work := editCharacter_printable (s := atStop s) ⟨low, high⟩ plain
    by_cases room : k.line.length < 40
    · rw [if_pos room]
      exact exec_edited h editing (work.trans (if_pos room))
    · rw [if_neg room]
      exact exec_edited h editing (work.trans (if_neg room))
  case empty =>
    exact ⟨exec_edited h editing ((editCharacter_backspace rfl).trans (if_pos empty)),
      exec_edited h editing ((editCharacter_drop (.inl rfl)).trans (if_pos empty)),
      exec_edited h editing ((editCharacter_drop (.inr rfl)).trans (if_pos empty)),
      exec_edited h editing ((editCharacter_return rfl).trans (if_pos empty))⟩
  case line =>
    refine ⟨exec_edited h editing ((editCharacter_backspace rfl).trans (if_neg some_)),
      fun drops => exec_edited h editing ((editCharacter_drop drops).trans (if_neg some_)),
      fun bad => exec_edited h editing ((editCharacter_return rfl).trans ((if_neg some_).trans ?_)),
      fun cmd spells => exec_return h editing some_ spells⟩
    have none_ : parseLine (atStop s).console.line = none := bad
    rw [none_]
    rfl

end Sys2Proof.Proofs.ConsoleLines
end

section
/-! PROOFS. A record's bytes read back as the record (R173, R186, spec/11 section 11.1). -/

namespace Sys2Proof.Proofs.RecordForms

open Sys2Proof Sys2Proof.Machine Sys2Proof.Laws Sys2Proof.Proofs.Link Sys2Proof.Proofs.Images
  Sys2Proof.Proofs.Records Sys2Proof.Proofs.SettingsOps

/-! ## Masks (spec/00) -/

/-- The bits that a mask of a width sets. -/
def maskBits (width : Nat) (ns : List Nat) : List Nat :=
  (List.range width).filter (fun n => ns.contains n)

theorem maskBits_sorted (width : Nat) (ns : List Nat) : (maskBits width ns).SortedLT :=
  (List.pairwise_lt_range.filter _).sortedLT

theorem maskOf_eq_sum (width : Nat) (ns : List Nat) :
    maskOf width ns = ((maskBits width ns).map (fun n => 2 ^ n)).sum := by
  rw [List.sum_eq_foldl, List.foldl_map]
  rfl

theorem testBit_maskOf (width n : Nat) (ns : List Nat) :
    (maskOf width ns).testBit n = true ↔ n < width ∧ n ∈ ns := by
  rw [maskOf_eq_sum, ← Nat.mem_bitIndices, Nat.bitIndices_sum_map_two_pow (maskBits_sorted width ns)]
  simp [maskBits]

theorem maskOf_lt {width bound : Nat} {ns : List Nat} (small : ∀ n ∈ ns, n < bound) :
    maskOf width ns < 2 ^ bound := by
  refine Nat.lt_pow_two_of_testBit _ (fun i past => ?_)
  rw [Bool.eq_false_iff, ne_eq, testBit_maskOf]
  exact fun ⟨_, listed⟩ => absurd (small i listed) (by omega)

/-- A rising list is what filtering all values by membership gives. -/
theorem filter_eq_of_rising {k : Nat} {ms : List (Fin k)} (rising : ms.Pairwise (· < ·))
    {keep : Fin k → Bool} (same : ∀ m, keep m = true ↔ m ∈ ms) :
    (List.finRange k).filter keep = ms :=
  List.SortedLT.eq_of_mem_iff ((List.pairwise_lt_finRange k).filter _).sortedLT rising.sortedLT
    (fun m => by simp [same])

theorem modulesOfMask_maskOf {ms : List ModuleId} (rising : ms.Pairwise (· < ·)) :
    modulesOfMask (maskOf 16 (ms.map (·.val + 1))) = some ms := by
  have bound : maskOf 16 (ms.map (·.val + 1)) < 2 ^ 13 :=
    maskOf_lt (fun n listed => by
      obtain ⟨m, -, rfl⟩ := List.mem_map.1 listed
      have := m.isLt
      omega)
  have clear : (!(maskOf 16 (ms.map (·.val + 1))).testBit 0) = true := by
    rw [Bool.not_eq_true', Bool.eq_false_iff, ne_eq, testBit_maskOf]
    simp
  have same (m : ModuleId) : (maskOf 16 (ms.map (·.val + 1))).testBit (m.val + 1) = true ↔ m ∈ ms := by
    have inside : m.val + 1 < 16 := by omega
    rw [testBit_maskOf]
    simp [inside, Fin.val_inj]
  unfold modulesOfMask
  rw [if_pos ⟨bound, clear⟩]
  exact congrArg some (filter_eq_of_rising rising same)

theorem zonesOfMask_maskOf {zs : List ZoneId} (rising : zs.Pairwise (· < ·)) :
    zonesOfMask (maskOf 32 (zs.map (·.val))) = some zs := by
  have bound : maskOf 32 (zs.map (·.val)) < 2 ^ 20 :=
    maskOf_lt (fun n listed => by
      obtain ⟨z, -, rfl⟩ := List.mem_map.1 listed
      exact z.isLt)
  have same (z : ZoneId) : (maskOf 32 (zs.map (·.val))).testBit z.val = true ↔ z ∈ zs := by
    have inside : z.val < 32 := by omega
    rw [testBit_maskOf]
    simp [inside, Fin.val_inj]
  unfold zonesOfMask
  rw [if_pos bound]
  exact congrArg some (filter_eq_of_rising rising same)

theorem maskOf_fits (k : Nat) (ns : List Nat) : maskOf (8 * k) ns < 256 ^ k := by
  rw [show 256 = 2 ^ 8 from rfl, ← pow_mul]
  refine Nat.lt_pow_two_of_testBit _ (fun i past => ?_)
  rw [Bool.eq_false_iff, ne_eq, testBit_maskOf]
  omega

/-! ## Fields (R173) -/

/-- A number's byte. -/
abbrev byteOf (n : Nat) : Byte := BitVec.ofNat 8 n

theorem toNat_byteOf {n : Nat} (small : n < 256) : (byteOf n).toNat = n :=
  Nat.mod_eq_of_lt small

/-- What a may-be-none field of one byte holds: its presence and its value. -/
theorem mayBe_reads {α : Type} (o : Option α) {code : α → Nat} {read : Nat → Option α}
    (back : ∀ x, read (code x) = some x) (small : ∀ x, code x < 256) :
    ∃ present value : Byte, mayBe 1 (o.map (fun x => u8 (code x))) = [present, value]
      ∧ ∀ (bytes : List Byte) (i : Nat), byteAt bytes i = present.toNat →
        byteAt bytes (i + 1) = value.toNat → mayBeAt bytes i read = some o := by
  cases o with
  | none =>
    refine ⟨0, 0, rfl, fun bytes i first _ => ?_⟩
    unfold mayBeAt
    rw [first]
    rfl
  | some x =>
    refine ⟨1, byteOf (code x), rfl, fun bytes i first second => ?_⟩
    unfold mayBeAt
    rw [first, second, toNat_byteOf (small x), back x]
    rfl

theorem audField_reads (a : Option Aud) :
    ∃ present value : Byte, audField a = [present, value]
      ∧ ∀ (bytes : List Byte) (i : Nat), byteAt bytes i = present.toNat →
        byteAt bytes (i + 1) = value.toNat → mayBeAt bytes i audOf = some a :=
  mayBe_reads a (fun x => by cases x <;> rfl) (fun x => by cases x <;> decide)

theorem kindOfCode_byteOf (k : ZoneKind) : kindOfCode (byteOf (kindCode k)).toNat = some k := by
  cases k <;> rfl

theorem homeOfCode_byteOf (h : FoyerHome) : homeOfCode (byteOf (homeCode h)).toNat = some h := by
  cases h <;> rfl

theorem sensorOfCode_byteOf (p : SensorPolarity) :
    sensorOfCode (byteOf (sensorCode p)).toNat = some p := by
  cases p <;> rfl

theorem polarityOfCode_byteOf (p : CuePolarity) :
    polarityOfCode (byteOf (polarityCode p)).toNat = some p := by
  cases p <;> rfl

/-- The byte of a field named yes or no. -/
def yesNoByte (b : Bool) : Byte := if b then 0 else 1

theorem yesNoOf_yesNoByte (b : Bool) : yesNoOf (yesNoByte b).toNat = some b := by
  cases b <;> rfl

theorem leNat_u16 {n : Nat} (fits : n ≤ 65535) : leNat [byteOf n, byteOf (n / 256)] = n :=
  leNat_leBytes (k := 2) (by omega)

theorem word_u16 (w : Word16) : BitVec.ofNat 16 (leNat [byteOf w.toNat, byteOf (w.toNat / 256)]) = w := by
  have fits : w.toNat < 2 ^ 16 := w.isLt
  rw [leNat_u16 (by omega)]
  exact BitVec.ofNat_toNat .. |>.trans (BitVec.setWidth_eq w)

theorem toInt_ofInt_byte {n : Int} (low : -70 ≤ n) (high : n ≤ -10) :
    (BitVec.ofInt 8 n).toInt = n :=
  BitVec.toInt_ofInt_eq_self (by decide) (by omega) (by omega)

/-! ## Each record's bytes -/

theorem decodeZone_of {b : List Byte} {c : ZoneConfig} (kind : kindOfCode (byteAt b 0) = some c.kind)
    (aud : mayBeAt b 1 audOf = some c.auditorium)
    (modules : modulesOfMask (numAt b 3 2) = some c.modules) (low : numAt b 5 2 = c.windowLow)
    (high : numAt b 7 2 = c.windowHigh) (home : homeOfCode (byteAt b 9) = some c.foyerHome)
    (flagged : yesNoOf (byteAt b 10) = some c.flagged) (level : byteAt b 11 = c.level)
    (mute : yesNoOf (byteAt b 12) = some c.mute) : decodeZone b = some c := by
  unfold decodeZone
  rw [kind, aud, modules, home, flagged, mute, low, high, level]
  rfl

theorem decodeZone_encodeZone {c : ZoneConfig} (legal : recordLegal (.zone c) = true)
    (rising : c.modules.Pairwise (· < ·)) : decodeZone (encodeZone c) = some c := by
  obtain ⟨present, value, field, aud⟩ := audField_reads c.auditorium
  simp only [recordLegal, Bool.and_eq_true, decide_eq_true_eq] at legal
  obtain ⟨⟨⟨-, windows⟩, top⟩, level⟩ := legal
  have modules := modulesOfMask_maskOf rising
  rw [← leNat_leBytes (maskOf_fits 2 (c.modules.map (·.val + 1)))] at modules
  unfold encodeZone moduleMask
  rw [field]
  generalize maskOf 16 (c.modules.map (·.val + 1)) = mask at modules ⊢
  exact decodeZone_of (kindOfCode_byteOf _) (aud _ 1 rfl rfl) modules (leNat_u16 (by omega))
    (leNat_u16 (by omega)) (homeOfCode_byteOf _) (yesNoOf_yesNoByte _) (toNat_byteOf (by omega))
    (yesNoOf_yesNoByte _)

theorem decodeEntrance_of {b : List Byte} {c : EntranceConfig}
    (aud : mayBeAt b 0 audOf = some c.auditorium) (admission : yesNoOf (byteAt b 2) = some c.admission)
    (adjacent : zonesOfMask (numAt b 3 4) = some c.adjacent)
    (polarity : sensorOfCode (byteAt b 7) = some c.polarity) : decodeEntrance b = some c := by
  unfold decodeEntrance
  rw [aud, admission, adjacent, polarity]
  rfl

theorem decodeEntrance_encodeEntrance {c : EntranceConfig} (rising : c.adjacent.Pairwise (· < ·)) :
    decodeEntrance (encodeEntrance c) = some c := by
  obtain ⟨present, value, field, aud⟩ := audField_reads c.auditorium
  have adjacent := zonesOfMask_maskOf rising
  rw [← leNat_leBytes (maskOf_fits 4 (c.adjacent.map (·.val)))] at adjacent
  unfold encodeEntrance zoneMask
  rw [field]
  generalize maskOf 32 (c.adjacent.map (·.val)) = mask at adjacent ⊢
  exact decodeEntrance_of (aud _ 0 rfl rfl) (yesNoOf_yesNoByte _) adjacent (sensorOfCode_byteOf _)

theorem decodeChannel_of {b : List Byte} {c : ChannelConfig}
    (aud : mayBeAt b 0 audOf = some c.auditorium) (zone : mayBeAt b 2 zoneOf = some c.zone)
    (live : mayBeAt b 4 liveOfCode = some c.liveInput) (duck : byteAt b 6 = c.duck)
    (limit : byteAt b 7 = c.resumeLimit) : decodeChannel b = some c := by
  unfold decodeChannel
  rw [aud, zone, live, duck, limit]
  rfl

theorem decodeChannel_encodeChannel {c : ChannelConfig} (legal : recordLegal (.channel c) = true) :
    decodeChannel (encodeChannel c) = some c := by
  obtain ⟨_, _, field, aud⟩ := audField_reads c.auditorium
  obtain ⟨_, _, zoneField, zone⟩ := mayBe_reads c.zone zoneOf_val (fun z => by omega)
  obtain ⟨_, _, liveField, live⟩ := mayBe_reads c.liveInput (code := liveCode) (read := liveOfCode)
    (fun x => by cases x <;> rfl) (fun x => by cases x <;> decide)
  simp only [recordLegal, Bool.and_eq_true, decide_eq_true_eq] at legal
  obtain ⟨duck, limit⟩ := legal
  unfold encodeChannel
  rw [field, zoneField, liveField]
  exact decodeChannel_of (aud _ 0 rfl rfl) (zone _ 2 rfl rfl) (live _ 4 rfl rfl)
    (toNat_byteOf (by omega)) (toNat_byteOf (by omega))

theorem decodeAuditorium_of {b : List Byte} {c : AuditoriumConfig}
    (polarity : polarityOfCode (byteAt b 0) = some c.cuePolarity) (lockout : numAt b 1 2 = c.lockout)
    (quiet : signedAt b 3 = c.quietThreshold) (sound : signedAt b 4 = c.soundThreshold)
    (opening : numAt b 5 2 = c.openTime) (window : numAt b 7 2 = c.windowDefault)
    (grace : byteAt b 9 = c.grace) (duck : byteAt b 10 = c.relayDuck) :
    decodeAuditorium b = some c := by
  unfold decodeAuditorium
  rw [polarity, lockout, quiet, sound, opening, window, grace, duck]
  rfl

theorem decodeAuditorium_encodeAuditorium {c : AuditoriumConfig}
    (legal : recordLegal (.auditorium c) = true) : decodeAuditorium (encodeAuditorium c) = some c := by
  simp only [recordLegal, Bool.and_eq_true, decide_eq_true_eq, betweenInt, between] at legal
  obtain ⟨⟨⟨⟨⟨⟨⟨lockout, quiet⟩, sound⟩, opening⟩, -⟩, window⟩, grace⟩, duck⟩ := legal
  exact decodeAuditorium_of (polarityOfCode_byteOf _) (leNat_u16 (by omega))
    (toInt_ofInt_byte (by omega) (by omega)) (toInt_ofInt_byte (by omega) (by omega))
    (leNat_u16 (by omega)) (leNat_u16 (by omega)) (toNat_byteOf (by omega)) (toNat_byteOf (by omega))

theorem decodeSupervision_of {b : List Byte} {c : SupervisionConfig} (enables : wordAt b 0 = c.enables)
    (gap : numAt b 2 2 = c.gap) (trips : byteAt b 4 = c.tripLimit) (warn : byteAt b 5 = c.warnTemp)
    (trip : byteAt b 6 = c.tripTemp) : decodeSupervision b = c := by
  unfold decodeSupervision
  rw [enables, gap, trips, warn, trip]

theorem decodeSupervision_encodeSupervision {c : SupervisionConfig}
    (legal : recordLegal (.supervision c) = true) : decodeSupervision (encodeSupervision c) = c := by
  simp only [recordLegal, Bool.and_eq_true, decide_eq_true_eq, between] at legal
  obtain ⟨⟨⟨⟨⟨⟨-, gap⟩, -⟩, trips⟩, warn⟩, trip⟩, -⟩ := legal
  exact decodeSupervision_of (word_u16 _) (leNat_u16 (by omega)) (toNat_byteOf (by omega))
    (toNat_byteOf (by omega)) (toNat_byteOf (by omega))

theorem decodeLink_of {b : List Byte} {c : LinkConfig} (silence : byteAt b 0 = c.silence)
    (enables : wordAt b 1 = c.enables) : decodeLink b = c := by
  unfold decodeLink
  rw [silence, enables]

theorem decodeLink_encodeLink {c : LinkConfig} (legal : recordLegal (.link c) = true) :
    decodeLink (encodeLink c) = c := by
  simp only [recordLegal, Bool.and_eq_true, decide_eq_true_eq] at legal
  obtain ⟨silence, -⟩ := legal
  exact decodeLink_of (toNat_byteOf (by omega)) (word_u16 _)

/-! ## The record of an index -/

/-- Which record's reader an index names. -/
theorem decodeRecord_of {i : Nat} {r : ConfigRecord} (taken : Takes i r) (legal : recordLegal r = true)
    (rising : ascending r) : decodeRecord i (encodeRecord r) = some r := by
  have long := recordLength_encodeRecord taken
  unfold decodeRecord
  rw [if_neg (not_not_intro long)]
  cases taken with
  | zone z c =>
    rw [if_pos z.isLt]
    exact congrArg (Option.map ConfigRecord.zone) (decodeZone_encodeZone legal rising)
  | entrance e c =>
    have inside := e.isLt
    rw [if_neg (by omega), if_pos (by omega)]
    exact congrArg (Option.map ConfigRecord.entrance) (decodeEntrance_encodeEntrance rising)
  | channel d c =>
    have inside := d.isLt
    rw [if_neg (by omega), if_neg (by omega), if_pos (by omega)]
    exact congrArg (Option.map ConfigRecord.channel) (decodeChannel_encodeChannel legal)
  | auditorium a c =>
    have inside : 36 ≤ 35 + audNumber a ∧ 35 + audNumber a < 38 := by cases a <;> decide
    rw [if_neg (by omega), if_neg (by omega), if_neg (by omega), if_pos (by omega)]
    exact congrArg (Option.map ConfigRecord.auditorium) (decodeAuditorium_encodeAuditorium legal)
  | supervision c =>
    exact congrArg (some ∘ ConfigRecord.supervision) (decodeSupervision_encodeSupervision legal)
  | link c => exact congrArg (some ∘ ConfigRecord.link) (decodeLink_encodeLink legal)

/-- Settles O60, by the fields of each record. -/
theorem recordsReadBack : Obligations.RecordsReadBack :=
  fun _ _ takes legal rising => decodeRecord_of (takes_of_indexTakes takes) legal rising

end Sys2Proof.Proofs.RecordForms
end

section
/-! PROOFS. The teardown of the services at entry to CONFIG (R21, R99, R122, R137, R145, R188). -/

namespace Sys2Proof.Proofs.Teardowns

open Sys2Proof Sys2Proof.Machine Sys2Proof.Laws Sys2Proof.Proofs.Zones Sys2Proof.Proofs.Playout
  Sys2Proof.Proofs.ClipEnds Sys2Proof.Proofs.LiveKeys Sys2Proof.Proofs.Abandons

/-! ## Zones that carry tests only (R21) -/

/-- The claims of a zone, the active one first. -/
def claimsOf (r : ZoneRecord) : List Claim := r.active.toList ++ r.stack

/-- R21: no zone carries or stacks a claim that is not a test's. -/
def OnlyTests (sv : Services) : Prop := ∀ z, ∀ c ∈ claimsOf (look sv.zones z), c.who.isTest = true

theorem claimsOf_onlyTests (r : ZoneRecord) :
    claimsOf r.onlyTests = (claimsOf r).filter (fun c => c.who.isTest) := by
  unfold ZoneRecord.onlyTests
  split
  next none_ => exact none_.symm
  next some_ => exact some_.symm

theorem onlyTests_rest (r : ZoneRecord) :
    r.onlyTests = { r with active := r.onlyTests.active, stack := r.onlyTests.stack } := by
  unfold ZoneRecord.onlyTests
  split <;> rfl

theorem zone_routerEnterConfig (sv : Services) (z : ZoneId) :
    look (routerEnterConfig sv).zones z = (look sv.zones z).onlyTests :=
  look_map _ _ z

theorem onlyTests_routerEnterConfig (sv : Services) : OnlyTests (routerEnterConfig sv) := by
  intro z c mem
  rw [zone_routerEnterConfig, claimsOf_onlyTests] at mem
  exact (List.mem_filter.1 mem).2

section release

variable {sv : Services} {who : Claimant} (tests : OnlyTests sv) (other : who.isTest = false)
include tests other

theorem release_onlyTests (env : Env) (z : ZoneId) : release env who z sv = sv := by
  have differ (c : Claim) (mem : c ∈ claimsOf (look sv.zones z)) : (c.who != who) = true := by
    refine bne_iff_ne.2 (fun same => ?_)
    have test := tests z c mem
    rw [same, other] at test
    exact Bool.noConfusion test
  have idle : (look sv.zones z).carries who = false := by
    unfold ZoneRecord.carries
    split
    · rfl
    next c active =>
      exact beq_eq_false_iff_ne.2 (bne_iff_ne.1 (differ c (by simp [claimsOf, active])))
  have stack : (look sv.zones z).stack.filter (fun c => c.who != who) = (look sv.zones z).stack :=
    List.filter_eq_self.2 (fun c mem => differ c (List.mem_append_right _ mem))
  unfold release putZone
  dsimp only
  rw [idle, stack, if_neg Bool.false_ne_true, put_look]

/-- R9: where the zones carry tests only, no release of another changes anything. -/
theorem releaseAll_onlyTests (env : Env) : releaseAll env who sv = sv :=
  foldl_inv (· = sv) _ (fun _ z same => same ▸ release_onlyTests (same ▸ tests) other env z) _ _ rfl

end release

/-! ## Slots given up (R99) -/

/-- The blocks of a slot that is not IDLE. -/
def busyBlocks (sl : Slot) : Nat := if sl.state ≠ .idle then sl.held.length else 0

/-- The free blocks and those of the slots that are not IDLE. -/
def poolTotal (sv : Services) : Nat :=
  sv.free + (allSlots.map (fun i => busyBlocks (look sv.slots i))).sum

theorem sum_busyBlocks (sv : Services) :
    (allSlots.map (fun i => busyBlocks (look sv.slots i))).sum
      = ((allSlots.filter (fun i => (look sv.slots i).state != .idle)).map
          (fun i => (look sv.slots i).held.length)).sum := by
  induction allSlots with
  | nil => rfl
  | cons i l ih =>
    by_cases idle : (look sv.slots i).state = .idle
    · have own : busyBlocks (look sv.slots i) = 0 := if_neg (not_not_intro idle)
      rw [List.map_cons, List.sum_cons, own, ih, List.filter_cons_of_neg (by simpa using idle), Nat.zero_add]
    · have own : busyBlocks (look sv.slots i) = (look sv.slots i).held.length := if_pos idle
      rw [List.map_cons, List.sum_cons, own, ih, List.filter_cons_of_pos (by simpa using idle),
        List.map_cons, List.sum_cons]

/-- A sum over distinct things when one of them comes to nothing. -/
theorem sum_map_vanish {α : Type} [DecidableEq α] {l : List α} {i : α} {f g : α → Nat} (distinct : l.Nodup)
    (mem : i ∈ l) (gone : g i = 0) (same : ∀ j, j ≠ i → g j = f j) :
    (l.map f).sum = f i + (l.map g).sum := by
  rw [← List.sum_map_erase f mem, ← List.sum_map_erase g mem, gone, Nat.zero_add]
  refine congrArg (f i + ·.sum) (List.map_congr_left (fun j inRest => (same j ?_).symm))
  exact fun eq => (List.Nodup.not_mem_erase distinct) (eq ▸ inRest)

/-- R99: slots have been given up, their blocks free, and nothing else of the pool has changed. -/
structure GivenUp (sv u : Services) : Prop where
  slots : ∀ i, look u.slots i = look sv.slots i
    ∨ (look sv.slots i).state ≠ .idle ∧ look u.slots i = Slot.idle
  total : poolTotal u = poolTotal sv

theorem GivenUp.of_same {sv u : Services} (slots : u.slots = sv.slots) (free : u.free = sv.free) :
    GivenUp sv u :=
  ⟨fun i => .inl (by rw [slots]), by unfold poolTotal; rw [slots, free]⟩

theorem GivenUp.trans {a b c : Services} (h : GivenUp a b) (k : GivenUp b c) : GivenUp a c := by
  refine ⟨fun i => ?_, k.total.trans h.total⟩
  rcases k.slots i with same | ⟨busy, idle⟩
  · rw [same]
    exact h.slots i
  · rcases h.slots i with same | ⟨busy', -⟩
    · exact .inr ⟨same ▸ busy, idle⟩
    · exact .inr ⟨busy', idle⟩

theorem givenUp_put {sv : Services} {i : SlotId} (busy : (look sv.slots i).state ≠ .idle)
    {u : Services} (slots : u.slots = put sv.slots i Slot.idle)
    (free : u.free = sv.free + (look sv.slots i).held.length) : GivenUp sv u := by
  refine ⟨fun j => ?_, ?_⟩
  · rw [slots, look_put]
    split
    next same => exact .inr ⟨same ▸ busy, rfl⟩
    · exact .inl rfl
  · have vanish := sum_map_vanish (f := fun j => busyBlocks (look sv.slots j))
      (g := fun j => busyBlocks (look u.slots j)) allSlots_nodup (List.mem_finRange i)
      (by simp [slots, busyBlocks, Slot.idle]) (fun j ne => by simp [slots, look_put_of_ne _ (Ne.symm ne)])
    have own : busyBlocks (look sv.slots i) = (look sv.slots i).held.length := if_pos busy
    unfold poolTotal
    rw [free, vanish, own, Nat.add_assoc]

theorem givenUp_abandonOwned (i : SlotId) (tag : Nat) (sv : Services) :
    GivenUp sv (abandonOwned i tag sv) := by
  unfold abandonOwned
  split
  · by_cases idle : (look sv.slots i).state = .idle
    · have same : abandonSlot i sv = sv := if_pos idle
      rw [same]
      exact .of_same rfl rfl
    · rw [abandonSlot_eq idle]
      exact givenUp_put idle rfl rfl
  · exact .of_same rfl rfl

/-! ## What each turn of the teardown keeps -/

/-- What the teardown leaves as it is. -/
def settledView (sv : Services) :=
  (sv.zones, sv.override, sv.houses, sv.entrances, sv.callClock)

/-- R188: one part of the teardown. -/
structure Torn (sv u : Services) : Prop where
  view : settledView u = settledView sv
  pool : GivenUp sv u
  tx : ∀ x ∈ sv.link.tx, x ∈ u.link.tx

theorem Torn.refl (sv : Services) : Torn sv sv := ⟨rfl, .of_same rfl rfl, fun _ h => h⟩

theorem Torn.trans {a b c : Services} (h : Torn a b) (k : Torn b c) : Torn a c :=
  ⟨k.view.trans h.view, h.pool.trans k.pool, fun x mem => k.tx x (h.tx x mem)⟩

theorem Torn.zones {sv u : Services} (h : Torn sv u) : u.zones = sv.zones := congrArg (·.1) h.view

theorem Torn.callClock {sv u : Services} (h : Torn sv u) : u.callClock = sv.callClock :=
  congrArg (·.2.2.2.2) h.view

theorem OnlyTests.torn {sv u : Services} (tests : OnlyTests sv) (h : Torn sv u) : OnlyTests u := by
  unfold OnlyTests
  rw [h.zones]
  exact tests

theorem torn_raise (env : Env) (k : NoticeKind) (sv : Services) : Torn sv (raise env k sv) :=
  ⟨rfl, .of_same rfl rfl, fun _ mem => mem_raise_tx env k mem⟩

theorem abandonOwned_rest (i : SlotId) (tag : Nat) (sv : Services) :
    abandonOwned i tag sv = { sv with
      slots := (abandonOwned i tag sv).slots, free := (abandonOwned i tag sv).free } := by
  unfold abandonOwned abandonSlot
  dsimp only
  split
  · split <;> rfl
  · rfl

theorem torn_abandonOwned (i : SlotId) (tag : Nat) (sv : Services) : Torn sv (abandonOwned i tag sv) := by
  have pool := givenUp_abandonOwned i tag sv
  rw [abandonOwned_rest] at pool ⊢
  exact ⟨rfl, pool, fun _ mem => mem⟩

/-! ## The engine (R122) -/

theorem loadHeads_config {env : Env} (config : env.run = false) (sv : Services) : loadHeads env sv = sv := by
  have turn (sv : Services) (d : ChannelId) : loadHead env d sv = sv := by
    unfold loadHead
    dsimp only
    split
    · rw [config, if_neg Bool.false_ne_true]
    · rfl
  exact foldl_inv (· = sv) _ (fun _ d same => (turn _ d).trans same) _ _ rfl

/-- R109, R122: the channel after the teardown. -/
def tornChannel (env : Env) (d : ChannelId) (c : Channel) : Channel :=
  { c with
    active := none, queue := [], headSlot := none, headFilled := false, mode := .scripted
    liveFlag := false, liveClaim := .none
    lastOutcome := (c.active.map (fun k =>
      ({ clipId := k.desc.clipId, outcome := .config, clock := channelClock env d, standing := k.standing } :
        LastOutcome))).or c.lastOutcome }

/-- What the engine's teardown leaves as it is beside `settledView`. -/
def besideEngine (sv : Services) := (sv.calls, sv.finished, sv.chimes)

/-- R122: the teardown of channel `d`. -/
structure ChannelTorn (env : Env) (d : ChannelId) (sv u : Services) : Prop where
  torn : Torn sv u
  beside : besideEngine u = besideEngine sv
  channels : u.channels = put sv.channels d (tornChannel env d (look sv.channels d))

theorem channelTeardown_torn {env : Env} (config : env.run = false) {sv : Services} (tests : OnlyTests sv)
    (d : ChannelId) : ChannelTorn env d sv (channelTeardown env d sv) := by
  unfold channelTeardown endClip
  cases active : (look sv.channels d).active with
  | none =>
    refine ⟨⟨rfl, .of_same rfl rfl, fun _ mem => mem⟩, rfl, ?_⟩
    unfold putChannel tornChannel
    dsimp only
    rw [active]
    rfl
  | some k =>
    dsimp only
    rw [releaseAll_onlyTests tests rfl, loadHeads_config config]
    have slot := torn_abandonOwned k.slot k.desc.clipId sv
    rw [abandonOwned_rest] at slot ⊢
    generalize (abandonOwned k.slot k.desc.clipId sv).slots = slots at slot ⊢
    generalize (abandonOwned k.slot k.desc.clipId sv).free = free at slot ⊢
    refine ⟨slot.trans ⟨rfl, .of_same rfl rfl, fun _ mem => mem_raise_tx _ _ mem⟩, rfl, ?_⟩
    unfold tornChannel
    rw [active]
    simp [raise, putChannel]

/-- R122: the teardown of all channels. -/
structure EngineTorn (env : Env) (sv u : Services) : Prop where
  torn : Torn sv u
  beside : besideEngine u = besideEngine sv
  channels : ∀ d, look u.channels d = tornChannel env d (look sv.channels d)
  keys : u.keyA = LiveKey.fresh ∧ u.keyB = LiveKey.fresh

/-- The channels' teardown so far. -/
structure Tearing (sv u : Services) : Prop where
  torn : Torn sv u
  beside : besideEngine u = besideEngine sv

theorem engineTeardown_torn {env : Env} (config : env.run = false) {sv : Services} (tests : OnlyTests sv) :
    EngineTorn env sv (engineTeardown env sv) := by
  have turn (u : Services) (d : ChannelId) (so : Tearing sv u) :
      ChannelTorn env d u (channelTeardown env d u) :=
    channelTeardown_torn config (tests.torn so.torn) d
  have next (u : Services) (d : ChannelId) (so : Tearing sv u) : Tearing sv (channelTeardown env d u) :=
    ⟨so.torn.trans (turn u d so).torn, (turn u d so).beside.trans so.beside⟩
  have start : Tearing sv sv := ⟨.refl sv, rfl⟩
  have all := foldl_inv (Tearing sv) _ next allChannels sv start
  have channel (d : ChannelId) :
      look (allChannels.foldl (fun acc d => channelTeardown env d acc) sv).channels d
        = tornChannel env d (look sv.channels d) := by
    refine (foldl_visits (f := fun acc d => channelTeardown env d acc) (x := d)
      (before := fun u => Tearing sv u ∧ look u.channels d = look sv.channels d)
      (after := fun u => Tearing sv u ∧ look u.channels d = tornChannel env d (look sv.channels d))
      ?_ ?_ ?_ allChannels sv (List.nodup_finRange 4) (List.mem_finRange d) ⟨start, rfl⟩).2
    · rintro u e ne ⟨so, same⟩
      refine ⟨next u e so, ?_⟩
      rw [(turn u e so).channels, look_put_of_ne _ ne, same]
    · rintro u ⟨so, same⟩
      refine ⟨next u d so, ?_⟩
      rw [(turn u d so).channels, look_put_self, same]
    · rintro u e ne ⟨so, same⟩
      refine ⟨next u e so, ?_⟩
      rw [(turn u e so).channels, look_put_of_ne _ ne, same]
  unfold engineTeardown
  generalize allChannels.foldl (fun acc d => channelTeardown env d acc) sv = u at all channel ⊢
  exact ⟨all.torn.trans ⟨rfl, .of_same rfl rfl, fun _ mem => mem⟩, all.beside, channel, rfl, rfl⟩

/-! ## The scheduler (R137, R145) -/

/-- What the scheduler's teardown leaves as it is beside `settledView`. -/
def besideScheduler (sv : Services) := (sv.channels, sv.keyA, sv.keyB)

/-- R128: the call with an id has ended, if there is one. -/
structure CallTorn (id : Nat) (sv u : Services) : Prop where
  torn : Torn sv u
  beside : besideScheduler u = besideScheduler sv
  calls : u.calls = sv.calls.filter (fun c => c.desc.callId != id)
  finished : ∀ k, findCall id sv = some k →
    u.finished = appendFinished (finishedOf k sv.callClock .config) sv.finished

theorem onlyTests_stopChime {sv : Services} (tests : OnlyTests sv) (o : ChimeOwner) :
    OnlyTests (stopChime o sv) := tests

theorem torn_endedCall {sv mid : Services} (h : Torn sv mid) (env : Env) (calls : List Call)
    (finished : List FinishedRecord) :
    Torn sv (raise env .call { mid with calls := calls, finished := finished }) :=
  h.trans ⟨rfl, .of_same rfl rfl, fun _ mem => mem_raise_tx _ _ mem⟩

theorem torn_oweWalk {sv u : Services} (h : Torn sv u) : Torn sv (oweWalk u) :=
  h.trans ⟨rfl, .of_same rfl rfl, fun _ mem => mem⟩

theorem endCall_torn (env : Env) {sv : Services} (tests : OnlyTests sv) (id : Nat) :
    CallTorn id sv (endCall env id .config sv) := by
  unfold endCall
  cases found : findCall id sv with
  | none =>
    have others : sv.calls.filter (fun c => c.desc.callId != id) = sv.calls :=
      List.filter_eq_self.2 (fun c mem => by simpa using List.find?_eq_none.1 found c mem)
    exact ⟨.refl sv, rfl, others.symm, fun k some_ => by rw [found] at some_; cases some_⟩
  | some k =>
    dsimp only
    rw [releaseAll_onlyTests (onlyTests_stopChime tests _) rfl]
    have silenced : Torn sv (stopChime (.call id) sv) := ⟨rfl, .of_same rfl rfl, fun _ mem => mem⟩
    have ended (x : Call) (some_ : findCall id sv = some x) : k = x :=
      Option.some.inj (found.symm.trans some_)
    cases k.slot with
    | none =>
      dsimp only
      rw [if_neg (by decide)]
      exact ⟨torn_endedCall silenced env _ _, rfl, rfl, fun x some_ => by rw [← ended x some_]; rfl⟩
    | some i =>
      dsimp only
      rw [if_pos Option.isSome_some]
      have slot := silenced.trans (torn_abandonOwned i id (stopChime (.call id) sv))
      rw [abandonOwned_rest] at slot ⊢
      generalize (abandonOwned i id (stopChime (.call id) sv)).slots = slots at slot ⊢
      generalize (abandonOwned i id (stopChime (.call id) sv)).free = free at slot ⊢
      have owed := torn_oweWalk (torn_endedCall slot env
        (sv.calls.filter (fun c => c.desc.callId != id))
        (appendFinished (finishedOf k sv.callClock .config) sv.finished))
      exact ⟨owed, rfl, rfl, fun x some_ => by rw [← ended x some_]; rfl⟩

/-- R132: at most the last eight records. -/
def lastEight (l : List FinishedRecord) : List FinishedRecord := l.drop (l.length - 8)

theorem appendFinished_eq (r : FinishedRecord) {l : List FinishedRecord} (few : l.length ≤ 8) :
    appendFinished r l = lastEight (l ++ [r]) := by
  unfold appendFinished lastEight
  split
  next full =>
    have eight : l.length = 8 := by omega
    rw [List.length_append, eight, List.drop_append_of_le_length (by simp [eight])]
    rfl
  next room =>
    have none_ : (l ++ [r]).length - 8 = 0 := by
      rw [List.length_append, List.length_singleton]
      omega
    rw [none_, List.drop_zero]

theorem length_lastEight (l : List FinishedRecord) : (lastEight l).length ≤ 8 := by
  unfold lastEight
  rw [List.length_drop]
  omega

theorem lastEight_append (l m : List FinishedRecord) : lastEight (lastEight l ++ m) = lastEight (l ++ m) := by
  unfold lastEight
  rw [← List.drop_append_of_le_length (by omega), List.drop_drop, List.length_drop, List.length_append]
  congr 1
  omega

theorem lastEight_of_few {l : List FinishedRecord} (few : l.length ≤ 8) : lastEight l = l := by
  unfold lastEight
  rw [Nat.sub_eq_zero_of_le few, List.drop_zero]

/-- The record of a call that the entry to CONFIG ends. -/
def configRecord (clock : Nat) (k : Call) : FinishedRecord := finishedOf k clock .config

/-- The calls' teardown so far. -/
structure Ending (ids : List Nat) (sv u : Services) : Prop where
  torn : Torn sv u
  beside : besideScheduler u = besideScheduler sv
  calls : u.calls = sv.calls.filter (fun c => !ids.contains c.desc.callId)

theorem endCalls_ending (env : Env) (ids : List Nat) {sv : Services} (tests : OnlyTests sv) :
    Ending ids sv (ids.foldl (fun acc id => endCall env id .config acc) sv) := by
  induction ids generalizing sv with
  | nil => exact ⟨.refl sv, rfl, (List.filter_eq_self.2 (fun _ _ => rfl)).symm⟩
  | cons id rest ih =>
    have first := endCall_torn env tests id
    have later := ih (tests.torn first.torn)
    rw [List.foldl_cons]
    refine ⟨first.torn.trans later.torn, later.beside.trans first.beside, ?_⟩
    rw [later.calls, first.calls, List.filter_filter]
    refine List.filter_congr (fun c _ => ?_)
    rw [List.contains_cons, Bool.not_or, Bool.and_comm]
    rfl

/-- R132: the finished records of calls with ids of their own. -/
theorem endCalls_finished (env : Env) (ks : List Call) {sv : Services} (tests : OnlyTests sv)
    (distinct : (ks.map (·.desc.callId)).Nodup)
    (found : ∀ k ∈ ks, findCall k.desc.callId sv = some k) (few : sv.finished.length ≤ 8) :
    ((ks.map (·.desc.callId)).foldl (fun acc id => endCall env id .config acc) sv).finished
      = lastEight (sv.finished ++ ks.map (configRecord sv.callClock)) := by
  induction ks generalizing sv with
  | nil => simp [lastEight_of_few few]
  | cons k rest ih =>
    obtain ⟨fresh, distinct⟩ := List.nodup_cons.1 distinct
    have first := endCall_torn env tests k.desc.callId
    have finished := first.finished k (found k List.mem_cons_self)
    rw [appendFinished_eq _ few] at finished
    have still (x : Call) (mem : x ∈ rest) :
        findCall x.desc.callId (endCall env k.desc.callId .config sv) = some x := by
      have differ : x.desc.callId ≠ k.desc.callId :=
        fun same => fresh (List.mem_map.2 ⟨x, mem, same⟩)
      have before := found x (List.mem_cons_of_mem k mem)
      unfold findCall at before ⊢
      rw [first.calls, List.find?_filter]
      refine Eq.trans (List.find?_congr (fun c _ => ?_)) before
      by_cases same : c.desc.callId = x.desc.callId <;> simp [same, differ]
    rw [List.map_cons, List.foldl_cons, ih (tests.torn first.torn) distinct still
      (finished ▸ length_lastEight _), finished, first.torn.callClock, lastEight_append,
      List.append_assoc]
    rfl

/-- R137, R145: the teardown of the scheduler. -/
structure SchedulerTorn (sv u : Services) : Prop where
  torn : Torn sv u
  beside : besideScheduler u = besideScheduler sv
  calls : u.calls = []
  chimes : u.chimes = []
  finished : (sv.calls.map (·.desc.callId)).Nodup → sv.finished.length ≤ 8 →
    u.finished = lastEight (sv.finished ++ (queueOrder sv.calls).map (configRecord sv.callClock))

theorem findCall_of_mem {sv : Services} (distinct : (sv.calls.map (·.desc.callId)).Nodup) {k : Call}
    (mem : k ∈ sv.calls) : findCall k.desc.callId sv = some k := by
  obtain ⟨c, found⟩ : ∃ c, findCall k.desc.callId sv = some c :=
    Option.isSome_iff_exists.1 (List.find?_isSome.2 ⟨k, mem, beq_self_eq_true _⟩)
  rw [found, List.inj_on_of_nodup_map distinct (List.mem_of_find?_eq_some found) mem (findCall_id found)]

theorem schedulerTeardown_torn (env : Env) {sv : Services} (tests : OnlyTests sv) :
    SchedulerTorn sv (schedulerTeardown env sv) := by
  have order : (queueOrder sv.calls).Perm sv.calls := List.perm_insertionSort _ _
  have all := endCalls_ending env ((queueOrder sv.calls).map (fun k => k.desc.callId)) tests
  have finished (distinct : (sv.calls.map (·.desc.callId)).Nodup) (few : sv.finished.length ≤ 8) :=
    endCalls_finished env (queueOrder sv.calls) tests ((order.map _).nodup_iff.2 distinct)
      (fun k mem => findCall_of_mem distinct (order.mem_iff.1 mem)) few
  have calls := all.calls
  rw [List.filter_eq_nil_iff.2 (fun c mem => by
    simpa using ⟨c, order.mem_iff.2 mem, rfl⟩)] at calls
  unfold schedulerTeardown
  dsimp only
  generalize ((queueOrder sv.calls).map (fun k => k.desc.callId)).foldl
    (fun acc id => endCall env id .config acc) sv = u at all calls finished ⊢
  exact ⟨all.torn.trans ⟨rfl, .of_same rfl rfl, fun _ mem => mem⟩, all.beside, calls, rfl, finished⟩

/-! ## The services (R188) -/

/-- R21, R99, R122, R137, R145: the services after the entry to CONFIG. -/
structure ServicesTorn (env : Env) (sv u : Services) : Prop where
  view : settledView u = settledView sv
  slots : ∀ i, (look u.slots i).state = .idle
    ∧ ((look sv.slots i).state ≠ .idle → look u.slots i = Slot.idle)
  free : u.free = poolTotal sv
  tx : ∀ x ∈ sv.link.tx, x ∈ u.link.tx
  channels : ∀ d, look u.channels d = tornChannel env d (look sv.channels d)
  keys : u.keyA = LiveKey.fresh ∧ u.keyB = LiveKey.fresh
  calls : u.calls = []
  chimes : u.chimes = []
  finished : (sv.calls.map (·.desc.callId)).Nodup → sv.finished.length ≤ 8 →
    u.finished = lastEight (sv.finished ++ (queueOrder sv.calls).map (configRecord sv.callClock))

theorem meeting_all (sv : Services) :
    meeting (fun _ => true) allSlots sv = allSlots.filter (fun i => (look sv.slots i).state != .idle) :=
  List.filter_congr (fun _ _ => Bool.and_true _)

theorem mem_meeting_all {sv : Services} (i : SlotId) :
    i ∈ meeting (fun _ => true) allSlots sv ↔ (look sv.slots i).state ≠ .idle := by
  simp [meeting, allSlots]

theorem servicesTeardown_torn {env : Env} (config : env.run = false) {sv : Services} (tests : OnlyTests sv) :
    ServicesTorn env sv (servicesTeardown env sv) := by
  have engine := engineTeardown_torn config tests
  have scheduler := schedulerTeardown_torn env (tests.torn engine.torn)
  have pool := abandonWhere_abandoned .config (fun _ => true)
    (schedulerTeardown env (engineTeardown env sv))
  unfold servicesTeardown
  generalize schedulerTeardown env (engineTeardown env sv) = t at scheduler pool ⊢
  generalize engineTeardown env sv = e at engine scheduler
  generalize abandonWhere .config (fun _ => true) t = u at pool ⊢
  have torn := engine.torn.trans scheduler.torn
  have finished := scheduler.finished
  obtain ⟨calls, finishedE, -⟩ := Prod.mk.inj (engine.beside) |>.imp id Prod.mk.inj
  obtain ⟨channels, keyA, keyB⟩ := Prod.mk.inj (scheduler.beside) |>.imp id Prod.mk.inj
  rw [calls, finishedE, engine.torn.callClock] at finished
  have rest := pool.rest
  refine ⟨?_, fun i => ?_, ?_, ?_, ?_, ?_, ?_, ?_, ?_⟩
  · rw [rest]
    exact torn.view
  · have here := pool.slots i
    by_cases busy : (look t.slots i).state = .idle
    · rw [if_neg (by rw [mem_meeting_all]; exact not_not_intro busy)] at here
      refine ⟨by rw [here]; exact busy, fun was => ?_⟩
      rcases torn.pool.slots i with same | ⟨-, idle⟩
      · exact absurd (same ▸ busy) was
      · rw [here, idle]
    · rw [if_pos ((mem_meeting_all i).2 busy)] at here
      rw [here]
      exact ⟨rfl, fun _ => rfl⟩
  · have total := torn.pool.total
    unfold poolTotal at total
    rw [sum_busyBlocks t] at total
    rw [pool.free, poolTotal, ← total, meeting_all]
  · rw [rest]
    exact torn.tx
  · rw [rest]
    intro d
    rw [channels]
    exact engine.channels d
  · rw [rest]
    exact ⟨keyA.trans engine.keys.1, keyB.trans engine.keys.2⟩
  · rw [rest]
    exact scheduler.calls
  · rw [rest]
    exact scheduler.chimes
  · rw [rest]
    exact finished

end Sys2Proof.Proofs.Teardowns
end

section
/-! PROOFS. MODE CONFIG: its refusals and the teardown of all blocks (R68, R78, R188). -/

namespace Sys2Proof.Proofs.ConfigEntry

open Sys2Proof Sys2Proof.Machine Sys2Proof.Laws Sys2Proof.Proofs.Link Sys2Proof.Proofs.Passes
  Sys2Proof.Proofs.Zones Sys2Proof.Proofs.Teardowns

/-! ## The cue followers (R68) -/

/-- What answering at the link and at the console, and the cue followers' own work, leave. -/
structure Told (s u : State) : Prop where
  rest : u = { s with svc := { s.svc with link := u.svc.link }, console := u.console, cue := u.cue }
  tx : ∀ x ∈ s.svc.link.tx, x ∈ u.svc.link.tx

theorem Told.refl (s : State) : Told s s := ⟨rfl, fun _ mem => mem⟩

theorem Told.trans {a b c : State} (h : Told a b) (k : Told b c) : Told a c := by
  refine ⟨?_, fun x mem => k.tx x (h.tx x mem)⟩
  have last := k.rest
  rw [h.rest] at last
  exact last

theorem Told.control {s u : State} (h : Told s u) : u.control = s.control :=
  (congrArg State.control h.rest :)

theorem Told.sup {s u : State} (h : Told s u) : u.sup = s.sup := (congrArg State.sup h.rest :)

theorem Told.svc {s u : State} (h : Told s u) : u.svc = { s.svc with link := u.svc.link } :=
  (congrArg State.svc h.rest :)

theorem Told.updCue {s u : State} (h : Told s u) (a : Aud) (f : CueFollower → CueFollower) :
    Told s (u.updCue a f) :=
  h.trans ⟨rfl, fun _ mem => mem⟩

theorem told_refuseCue (w : WaitingCue) (st : Status) (s : State) :
    Told s (refuseCue w st s) ∧ (refuseCue w st s).cue = s.cue := by
  unfold refuseCue
  split
  · exact ⟨.refl s, rfl⟩
  · exact ⟨⟨rfl, fun _ mem => List.mem_append_left _ mem⟩, rfl⟩
  · exact ⟨⟨rfl, fun _ mem => mem⟩, rfl⟩
  · exact ⟨⟨rfl, fun _ mem => List.mem_append_left _ mem⟩, rfl⟩

theorem told_refuseCues (l : List WaitingCue) (st : Status) (s : State) :
    Told s (l.foldl (fun acc w => refuseCue w st acc) s)
      ∧ (l.foldl (fun acc w => refuseCue w st acc) s).cue = s.cue :=
  foldl_inv (fun u => Told s u ∧ u.cue = s.cue) _
    (fun u w so => ⟨so.1.trans (told_refuseCue w st u).1, (told_refuseCue w st u).2.trans so.2⟩) l s
    ⟨.refl s, rfl⟩

theorem told_answerAdvance (k : CueAsker) (p n : Nat) (o : List ActionOutcome) (s : State) :
    Told s (answerAdvance k p n o s) ∧ (answerAdvance k p n o s).cue = s.cue := by
  unfold answerAdvance
  split
  · exact ⟨.refl s, rfl⟩
  · exact ⟨⟨rfl, fun _ mem => List.mem_append_left _ mem⟩, rfl⟩
  · exact ⟨⟨rfl, fun _ mem => mem⟩, rfl⟩

/-- R68: what the teardown of a cue follower leaves and stops. -/
structure Stopped (c d : CueFollower) : Prop where
  clock : d.clock = c.clock
  position : d.position = c.position
  list : d.list = c.list
  log : d.log = c.log
  lockout : d.lockout = none
  waiting : d.waiting = []

/-- R68: the follower of an auditorium has been torn down. -/
structure CueTorn (a : Aud) (s u : State) : Prop where
  told : Told s u
  own : Stopped (s.cue.get a) (u.cue.get a)
  other : ∀ b, b ≠ a → u.cue.get b = s.cue.get b

theorem CueTorn.updTwo {a : Aud} {s u v : State} {f : CueFollower → CueFollower} (told : Told s u)
    (other : ∀ b, b ≠ a → u.cue.get b = s.cue.get b) (more : Told u v) (cue : v.cue = updTwo u.cue a f)
    (own : Stopped (s.cue.get a) (f (u.cue.get a))) : CueTorn a s v := by
  refine ⟨told.trans more, ?_, fun b ne => ?_⟩
  · rw [cue, get_updTwo_self]
    exact own
  · rw [cue, get_updTwo, if_neg (Ne.symm ne), other b ne]

/-- R58: the follower whose firing has ended. -/
def afterFiring (f : Firing) (c : CueFollower) : CueFollower :=
  { c with
    firing := none
    fire := some { number := f.number, clock := f.clock, origin := f.asker.origin, outcomes := f.outcomes } }

theorem finishFiring_torn {a : Aud} {s u : State} (h : CueTorn a s u) : CueTorn a s (finishFiring a u) := by
  unfold finishFiring
  dsimp only
  split
  · exact h
  next f firing =>
    have own := h.own
    have raised : Told u ((u.updCue a (afterFiring f)).serve (fun env sv => raise env .cue sv)) :=
      ⟨rfl, fun _ mem => mem_raise_tx _ _ mem⟩
    have answer := told_answerAdvance f.asker (u.cue.get a).position f.number f.outcomes
      ((u.updCue a (afterFiring f)).serve (fun env sv => raise env .cue sv))
    exact .updTwo (f := afterFiring f) h.told h.other (raised.trans answer.1) answer.2
      ⟨own.clock, own.position, own.list, own.log, own.lockout, own.waiting⟩

/-- R68: the follower that has stopped, its firing's other actions refused. -/
def stoppedFollower (c : CueFollower) : CueFollower :=
  { c with
    filter := .unsettled, sample := none, lockout := none, waiting := []
    firing := c.firing.map (fun f =>
      { f with outcomes := f.outcomes ++ f.rest.map (fun x => (x, Status.state)), rest := [] }) }

/-- R68: the teardown of the follower of an auditorium. -/
theorem cueTeardown_torn (a : Aud) (s : State) : CueTorn a s (cueTeardown a s) := by
  have refused := told_refuseCues (s.cue.get a).waiting .state (s.updCue a stoppedFollower)
  have stopped : CueTorn a s
      ((s.cue.get a).waiting.foldl (fun acc w => refuseCue w .state acc) (s.updCue a stoppedFollower)) :=
    .updTwo (f := stoppedFollower) (.refl s) (fun _ _ => rfl)
      (((Told.refl s).updCue a stoppedFollower).trans refused.1) refused.2 ⟨rfl, rfl, rfl, rfl, rfl, rfl⟩
  exact finishFiring_torn stopped

/-- R68: both followers have been torn down. -/
structure CuesTorn (s u : State) : Prop where
  told : Told s u
  own : ∀ a, Stopped (s.cue.get a) (u.cue.get a)

theorem cueTeardowns_torn (s : State) : CuesTorn s (cueTeardown .two (cueTeardown .one s)) := by
  have first := cueTeardown_torn .one s
  have second := cueTeardown_torn .two (cueTeardown .one s)
  refine ⟨first.told.trans second.told, fun a => ?_⟩
  cases a with
  | one =>
    rw [second.other .one (by decide)]
    exact first.own
  | two =>
    rw [← first.other .two (by decide)]
    exact second.own

/-! ## All blocks (R188) -/

theorem channelClock_congr {x y : Env} (cfg : x.cfg = y.cfg) (clock : x.clock = y.clock) (d : ChannelId) :
    channelClock x d = channelClock y d := by
  unfold channelClock
  rw [cfg, clock]

theorem tornChannel_congr {x y : Env} (cfg : x.cfg = y.cfg) (clock : x.clock = y.clock) (d : ChannelId)
    (c : Channel) : tornChannel x d c = tornChannel y d c := by
  unfold tornChannel
  rw [channelClock_congr cfg clock]

/-- R78: the detector of an auditorium at rest. -/
structure AtRest (q : QuietDetector) : Prop where
  state : q.state = .sound
  current : q.current = none

/-- R188: the part after the entry to CONFIG. -/
structure ConfigEntered (s u : State) : Prop where
  services : ServicesTorn s.env (routerEnterConfig s.svc) u.svc
  silence : u.svc.link.silenceLeft = none
  control : u.control = s.control
  sup : u.sup = s.sup
  quiet : ∀ a, AtRest (u.quiet.get a)
  cue : ∀ a, Stopped (s.cue.get a) (u.cue.get a)

theorem servicesTorn_congr {x y : Env} {sv u : Services} {link : LinkPort} (cfg : x.cfg = y.cfg)
    (clock : x.clock = y.clock) (h : ServicesTorn x { sv with link := link } u)
    (tx : ∀ t ∈ sv.link.tx, t ∈ link.tx) : ServicesTorn y sv u :=
  ⟨h.view, h.slots, h.free, fun t mem => h.tx t (tx t mem),
    fun d => (h.channels d).trans (tornChannel_congr cfg clock d _), h.keys, h.calls, h.chimes, h.finished⟩

/-- The silence timer is no part of what the teardown says. -/
theorem servicesTorn_stopSilence {env : Env} {sv u : Services} (h : ServicesTorn env sv u) :
    ServicesTorn env sv (u.setLink { u.link with silenceLeft := none }) :=
  ⟨h.view, h.slots, h.free, h.tx, h.channels, h.keys, h.calls, h.chimes, h.finished⟩

theorem clock_of_stopped {s t : State} (h : ∀ a, Stopped (s.cue.get a) (t.cue.get a)) :
    t.env.clock = s.env.clock := by
  have one := (h .one).clock
  have two := (h .two).clock
  unfold State.env
  exact congrArg₂ Two.mk one two

/-- R78, R188: the part with both detectors at rest. -/
def rested (s : State) : State := { s with quiet := ⟨s.quiet.one.rest, s.quiet.two.rest⟩ }

/-- R188: the services' teardown after the router's and the followers'. -/
theorem servicesTorn_afterCues {s t : State} (config : s.control.running = false)
    (cues : CuesTorn { s with svc := routerEnterConfig s.svc } t) :
    ServicesTorn s.env (routerEnterConfig s.svc) (servicesTeardown (rested t).env t.svc) := by
  have control := cues.told.control
  have svc := cues.told.svc
  have clock : (rested t).env.clock = s.env.clock := clock_of_stopped cues.own
  have cfg : (rested t).env.cfg = s.env.cfg := congrArg PartControl.cfg control
  have run : (rested t).env.run = false := (congrArg PartControl.running control).trans config
  have tests : OnlyTests { routerEnterConfig s.svc with link := t.svc.link } :=
    onlyTests_routerEnterConfig s.svc
  have torn := servicesTeardown_torn run tests
  have same : ({ routerEnterConfig s.svc with link := t.svc.link } : Services) = t.svc := svc.symm
  generalize (rested t).env = env at clock cfg torn ⊢
  have link : servicesTeardown env { routerEnterConfig s.svc with link := t.svc.link }
      = servicesTeardown env t.svc := congrArg _ same
  rw [link] at torn
  generalize servicesTeardown env t.svc = u at torn ⊢
  exact servicesTorn_congr cfg clock torn cues.told.tx

theorem blocksEnterConfig_entered {s : State} (config : s.control.running = false) :
    ConfigEntered s (blocksEnterConfig s) := by
  have cues := cueTeardowns_torn { s with svc := routerEnterConfig s.svc }
  have entered : blocksEnterConfig s
      = ((rested (cueTeardown .two (cueTeardown .one { s with svc := routerEnterConfig s.svc }))).serve
          servicesTeardown).updLink (fun l => { l with silenceLeft := none }) := rfl
  rw [entered]
  generalize cueTeardown .two (cueTeardown .one { s with svc := routerEnterConfig s.svc }) = t at cues ⊢
  have services := servicesTorn_afterCues config cues
  unfold State.serve
  have same : (rested t).svc = t.svc := rfl
  rw [same]
  generalize servicesTeardown (rested t).env t.svc = u at services ⊢
  exact ⟨servicesTorn_stopSilence services, rfl, cues.told.control, cues.told.sup,
    fun a => by cases a <;> exact ⟨rfl, rfl⟩, cues.own⟩

/-! ## MODE CONFIG (R188) -/

theorem housesOpen_iff (s : State) : housesOpen s = true ↔ ∀ a, (s.svc.houses.get a).state = .opened := by
  unfold housesOpen
  rw [Bool.and_eq_true, beq_iff_eq, beq_iff_eq]
  exact ⟨fun ⟨one, two⟩ a => by cases a; exacts [one, two], fun h => ⟨h .one, h .two⟩⟩

theorem workModeConfig_config (tag : Byte) {s : State} (config : s.control.running = false) :
    workModeConfig tag s = answered tag .mode .ok [] s := by
  unfold workModeConfig
  rw [config]
  rfl

theorem workModeConfig_houses (tag : Byte) {s : State} (run : s.control.running = true)
    (closed : ∃ a, (s.svc.houses.get a).state ≠ .opened) :
    workModeConfig tag s = answered tag .mode .state [] s := by
  obtain ⟨a, closed⟩ := closed
  have no : housesOpen s ≠ true := fun all => closed ((housesOpen_iff s).1 all a)
  unfold workModeConfig
  rw [run, if_neg (by decide), if_neg no]
  rfl

theorem workModeConfig_enters (tag : Byte) {s : State} (run : s.control.running = true)
    (closed : ∀ a, (s.svc.houses.get a).state = .opened) :
    workModeConfig tag s = blocksEnterConfig (answered tag .mode .ok [] (s.setRunning false)) := by
  unfold workModeConfig
  rw [run, if_neg (by decide), if_pos ((housesOpen_iff s).2 closed)]
  rfl

end Sys2Proof.Proofs.ConfigEntry
end

section
/-! PROOFS. The configurations that may run, and MODE CONFIG (R187, R188, R189). -/

namespace Sys2Proof.Proofs.Validity

open Sys2Proof Sys2Proof.Machine Sys2Proof.Laws Sys2Proof.Proofs.Link Sys2Proof.Proofs.Passes
  Sys2Proof.Proofs.Cues Sys2Proof.Proofs.Images Sys2Proof.Proofs.Zones Sys2Proof.Proofs.Teardowns Sys2Proof.Proofs.ConfigEntry

/-! ## Each record (R187) -/

theorem listedBelow_eq_false_iff (cfg : Configuration) (z : ZoneId) :
    listedBelow cfg z = false
      ↔ ∀ m ∈ (look cfg.zones z).modules, ∀ y : ZoneId, y < z → m ∉ (look cfg.zones y).modules := by
  simp [listedBelow, allZones]

theorem zonePasses_iff (cfg : Configuration) (z : ZoneId) : zonePasses cfg z = true ↔ ZoneValid cfg z := by
  have below := listedBelow_eq_false_iff cfg z
  unfold zonePasses ZoneValid
  dsimp only
  rw [Bool.and_eq_true, Bool.and_eq_true, Bool.not_eq_true', below]
  cases (look cfg.zones z).kind <;> simp [isLoopKind, Option.isSome_iff_ne_none] <;> tauto

theorem isFoyerKind_iff (k : ZoneKind) : isFoyerKind k = true ↔ k = .foyerLoop ∨ k = .foyerSpeaker := by
  cases k <;> simp [isFoyerKind]

theorem entrancePasses_iff (cfg : Configuration) (e : EntranceId) :
    entrancePasses cfg e = true ↔ EntranceValid cfg e := by
  unfold entrancePasses EntranceValid
  simp only [List.all_eq_true, isFoyerKind_iff]

theorem inService_iff (c : ChannelConfig) :
    inService c = true ↔ c.auditorium ≠ none ∧ c.zone ≠ none := by
  unfold inService
  rw [Bool.and_eq_true, Option.isSome_iff_ne_none, Option.isSome_iff_ne_none]

theorem sharedBelow_eq_false_iff (cfg : Configuration) (d : ChannelId) (z : ZoneId) :
    (!(allChannels.any (fun y => decide (y < d) && inService (look cfg.channels y)
        && (look cfg.channels y).zone == some z))) = true
      ↔ ∀ y : ChannelId, y < d →
          ¬ ((look cfg.channels y).auditorium ≠ none ∧ (look cfg.channels y).zone = some z) := by
  rw [Bool.not_eq_true', List.any_eq_false]
  simp only [Bool.and_eq_true, decide_eq_true_eq, inService_iff, beq_iff_eq]
  refine ⟨fun h y below ⟨aud, zone⟩ => h y (List.mem_finRange y) ⟨⟨below, aud, ?_⟩, zone⟩,
    fun h y _ ⟨⟨below, aud, _⟩, zone⟩ => h y below ⟨aud, zone⟩⟩
  rw [zone]
  exact Option.some_ne_none z

theorem channelPasses_iff (cfg : Configuration) (d : ChannelId) :
    channelPasses cfg d = true ↔ ChannelValid cfg d := by
  unfold channelPasses ChannelValid
  dsimp only
  cases zone : (look cfg.channels d).zone with
  | none => simp
  | some z =>
    dsimp only
    have shared := sharedBelow_eq_false_iff cfg d z
    cases aud : (look cfg.channels d).auditorium with
    | none =>
      have idle : inService (look cfg.channels d) = false := by simp [inService, aud]
      simp [idle]
    | some a =>
      have serves : inService (look cfg.channels d) = true := by simp [inService, aud, zone]
      rw [if_pos serves, Bool.and_eq_true, Bool.and_eq_true, shared, beq_iff_eq, beq_iff_eq, and_assoc]
      refine ⟨fun h a' z' ha hz => ?_, fun h => h a z rfl rfl⟩
      obtain rfl := Option.some.inj ha
      obtain rfl := Option.some.inj hz
      exact h

/-! ## The record of an index -/

theorem recordValid_zone (cfg : Configuration) (z : ZoneId) : RecordValid cfg z.val ↔ ZoneValid cfg z := by
  have inside := z.isLt
  refine ⟨fun h => h.1 z rfl, fun h => ⟨fun y eq => ?_, fun e eq => ?_, fun d eq => ?_⟩⟩
  · exact Fin.ext eq ▸ h
  · omega
  · omega

theorem recordValid_entrance (cfg : Configuration) (e : EntranceId) :
    RecordValid cfg (20 + e.val) ↔ EntranceValid cfg e := by
  have inside := e.isLt
  refine ⟨fun h => h.2.1 e rfl, fun h => ⟨fun z eq => ?_, fun y eq => ?_, fun d eq => ?_⟩⟩
  · omega
  · exact (Fin.ext (by omega) : e = y) ▸ h
  · omega

theorem recordValid_channel (cfg : Configuration) (d : ChannelId) :
    RecordValid cfg (32 + d.val) ↔ ChannelValid cfg d := by
  have inside := d.isLt
  refine ⟨fun h => h.2.2 d rfl, fun h => ⟨fun z eq => ?_, fun e eq => ?_, fun y eq => ?_⟩⟩
  · omega
  · omega
  · exact (Fin.ext (by omega) : d = y) ▸ h

theorem recordValid_other (cfg : Configuration) {i : Nat} (past : 36 ≤ i) : RecordValid cfg i :=
  ⟨fun _ _ => by omega, fun _ _ => by omega, fun _ _ => by omega⟩

/-! ## The first record that fails (R187) -/

/-- The least value that a search over all values finds. -/
theorem find?_finRange {n : Nat} {p : Fin n → Bool} {i : Fin n}
    (found : (List.finRange n).find? p = some i) : p i = true ∧ ∀ j < i, p j = false := by
  obtain ⟨holds, before, after, parts, none_⟩ := List.find?_eq_some_iff_append.1 found
  refine ⟨holds, fun j below => ?_⟩
  have rising := List.pairwise_lt_finRange n
  have listed := List.mem_finRange j
  rw [parts] at rising listed
  have above := (List.pairwise_append.1 rising).2.1
  rcases List.mem_append.1 listed with mem | mem
  · simpa using none_ j mem
  · rcases List.mem_cons.1 mem with rfl | mem
    · exact absurd below (lt_irrefl _)
    · exact absurd below (lt_asymm ((List.pairwise_cons.1 above).1 j mem))

theorem find?_finRange_none {n : Nat} {p : Fin n → Bool} (none_ : (List.finRange n).find? p = none)
    (j : Fin n) : p j = false := by
  simpa using List.find?_eq_none.1 none_ j (List.mem_finRange j)

/-- The valid records of a run of indices, from the record of each. -/
theorem recordValid_of_below {cfg : Configuration} {j : Nat}
    (zones : ∀ z : ZoneId, z.val = j → ZoneValid cfg z)
    (entrances : ∀ e : EntranceId, 20 + e.val = j → EntranceValid cfg e)
    (channels : ∀ d : ChannelId, 32 + d.val = j → ChannelValid cfg d) : RecordValid cfg j :=
  ⟨fun z eq => zones z eq.symm, fun e eq => entrances e eq.symm, fun d eq => channels d eq.symm⟩

/-- R187: the record at an index fails and none before it does. -/
structure FailsFirst (cfg : Configuration) (i : Nat) : Prop where
  inside : i < 40
  fails : ¬ RecordValid cfg i
  before : ∀ j, j < i → RecordValid cfg j

/-- R187: what the search for the first failure says. -/
def Judged (cfg : Configuration) : Option Nat → Prop
  | some i => FailsFirst cfg i
  | none => ∀ i, i < 40 → RecordValid cfg i

theorem firstFailure_judged (cfg : Configuration) : Judged cfg (firstFailure cfg) := by
  have zoneOk (z : ZoneId) (ok : (!zonePasses cfg z) = false) : ZoneValid cfg z :=
    (zonePasses_iff cfg z).1 (by simpa using ok)
  have entranceOk (e : EntranceId) (ok : (!entrancePasses cfg e) = false) : EntranceValid cfg e :=
    (entrancePasses_iff cfg e).1 (by simpa using ok)
  have channelOk (d : ChannelId) (ok : (!channelPasses cfg d) = false) : ChannelValid cfg d :=
    (channelPasses_iff cfg d).1 (by simpa using ok)
  unfold firstFailure
  split
  next z found =>
    obtain ⟨fails, before⟩ := find?_finRange found
    refine ⟨by omega, ?_, fun j below => ?_⟩
    · rw [recordValid_zone, ← zonePasses_iff]
      simpa using fails
    · exact recordValid_of_below (fun y eq => zoneOk y (before y (by omega))) (fun e eq => by omega)
        (fun d eq => by omega)
  next zones =>
    have zones' (z : ZoneId) : ZoneValid cfg z := zoneOk z (find?_finRange_none zones z)
    split
    next e found =>
      obtain ⟨fails, before⟩ := find?_finRange found
      refine ⟨by omega, ?_, fun j below => ?_⟩
      · rw [recordValid_entrance, ← entrancePasses_iff]
        simpa using fails
      · exact recordValid_of_below (fun z _ => zones' z) (fun y eq => entranceOk y (before y (by omega)))
          (fun d eq => by omega)
    next entrances =>
      have entrances' (e : EntranceId) : EntranceValid cfg e := entranceOk e (find?_finRange_none entrances e)
      split
      next d found =>
        obtain ⟨fails, before⟩ := find?_finRange found
        refine ⟨by omega, ?_, fun j below => ?_⟩
        · rw [recordValid_channel, ← channelPasses_iff]
          simpa using fails
        · exact recordValid_of_below (fun z _ => zones' z) (fun e _ => entrances' e)
            (fun y eq => channelOk y (before y (by omega)))
      next channels =>
        exact fun i _ => recordValid_of_below (fun z _ => zones' z) (fun e _ => entrances' e)
          (fun d _ => channelOk d (find?_finRange_none channels d))

theorem firstFailure_eq_some_iff (cfg : Configuration) (i : Nat) :
    firstFailure cfg = some i ↔ i < 40 ∧ ¬ RecordValid cfg i ∧ ∀ j, j < i → RecordValid cfg j := by
  have judged := firstFailure_judged cfg
  refine ⟨fun eq => ?_, fun ⟨inside, fails, before⟩ => ?_⟩
  · rw [eq] at judged
    exact ⟨judged.inside, judged.fails, judged.before⟩
  · cases found : firstFailure cfg with
    | none =>
      rw [found] at judged
      exact absurd (judged i inside) fails
    | some k =>
      rw [found] at judged
      rcases Nat.lt_trichotomy k i with less | rfl | more
      · exact absurd (before k less) judged.fails
      · rfl
      · exact absurd (judged.before i more) fails

theorem firstFailure_eq_none_iff (cfg : Configuration) :
    firstFailure cfg = none ↔ ∀ i, i < 40 → RecordValid cfg i := by
  have judged := firstFailure_judged cfg
  refine ⟨fun eq => ?_, fun all => ?_⟩
  · rw [eq] at judged
    exact judged
  · cases found : firstFailure cfg with
    | none => rfl
    | some k =>
      rw [found] at judged
      exact absurd (all k judged.inside) judged.fails

/-! ## Loads (R189) -/

/-- R189: a record as read passes. -/
def passes (p : Nat × Option ConfigRecord) : Prop := ∃ r, p.2 = some r ∧ recordLegal r = true

theorem passes_iff (p : Nat × Option ConfigRecord) : passes p ↔ readPasses p.2 = true :=
  (readPasses_iff p.2).symm

section load

variable {c : PartControl} (reads : ¬ readFails c) (mark : marked c) (long : rightLength c)
  (check : rightCheck c)
include reads mark long check

theorem readImage_range {before after : List (Nat × Option ConfigRecord)}
    {p : Nat × Option ConfigRecord}
    (eq : cutRecords 40 0 (c.memory.readAll areaStart areaLength) = before ++ p :: after)
    (passed : ∀ x ∈ before, passes x) (fails : ¬ passes p) : readImage c = (.range p.1, []) := by
  rw [readImage_records reads mark long check]
  exact judgeRecords_range eq (fun x mem => (passes_iff x).1 (passed x mem))
    (Bool.eq_false_iff.2 (mt (passes_iff p).2 fails))

theorem readImage_passed
    (passed : ∀ p ∈ cutRecords 40 0 (c.memory.readAll areaStart areaLength), passes p) :
    (readImage c).1 = .loaded := by
  rw [readImage_records reads mark long check,
    judgeRecords_passed (fun x mem => (passes_iff x).1 (passed x mem))]

end load

theorem recordLength_of_inside {i : Nat} (inside : i < 40) :
    recordLength i = some ((recordLength i).getD 0) := by
  unfold recordLength
  split_ifs
  · rfl
  · rfl
  · rfl
  · rfl
  · rfl
  · rfl
  · omega

/-! ## MODE CONFIG (R188) -/

theorem lastOutcome_tornChannel (env : Env) (d : ChannelId) {c : Channel} {k : ActiveClip}
    (active : c.active = some k) :
    (tornChannel env d c).lastOutcome = some
      { clipId := k.desc.clipId, outcome := .config, clock := channelClock env d, standing := k.standing } := by
  unfold tornChannel
  rw [active]
  rfl

theorem lastOutcome_tornChannel_idle (env : Env) (d : ChannelId) {c : Channel} (idle : c.active = none) :
    (tornChannel env d c).lastOutcome = c.lastOutcome := by
  unfold tornChannel
  rw [idle]
  rfl

/-- Settles O14, from the teardown of the services and of the followers, the first failure of a
configuration and the judgement of an image. -/
theorem modeConfigTearsDown : Obligations.ModeConfigTearsDown := by
  refine ⟨fun tag s ready => ⟨fun config => ?_, fun run closed => ?_, fun run opened => ?_⟩,
    fun cfg => ⟨firstFailure_eq_some_iff cfg, firstFailure_eq_none_iff cfg⟩, fun c => ?_⟩
  · exact request_eq_of_work ready (workModeConfig_config tag (s := taken tag .mode s) config)
  · exact request_eq_of_work ready (workModeConfig_houses tag (s := taken tag .mode s) run closed)
  · have entered := blocksEnterConfig_entered
      (s := answered tag .mode .ok [] ((taken tag .mode s).setRunning false)) rfl
    have work := workModeConfig_enters tag (s := taken tag .mode s) run opened
    generalize blocksEnterConfig (answered tag .mode .ok [] ((taken tag .mode s).setRunning false)) = u
      at entered work
    obtain ⟨⟨view, slots, free, tx, channels, keys, calls, chimes, finished⟩, silence, control, sup, quiet,
      cue⟩ := entered
    obtain ⟨zones, rest⟩ := Prod.mk.inj view
    obtain ⟨override, rest⟩ := Prod.mk.inj rest
    obtain ⟨houses, rest⟩ := Prod.mk.inj rest
    obtain ⟨entrances, callClock⟩ := Prod.mk.inj rest
    have zone (z : ZoneId) : look u.svc.zones z = (look s.svc.zones z).onlyTests := by
      rw [zones]
      exact zone_routerEnterConfig s.svc z
    refine ⟨u, request_of_work ready work, control, tx _ (reply_mem ..), fun z => ?_,
      fun i => (slots i).1, fun i => (slots i).2, free.trans (congrArg (s.svc.free + ·) (sum_busyBlocks s.svc)),
      chimes, fun d => ?_, congrArg LiveKey.filter keys.1, congrArg LiveKey.filter keys.2, calls, finished,
      houses, entrances, override, callClock, silence, sup, fun a => ?_⟩
    · rw [zone]
      exact ⟨claimsOf_onlyTests _, onlyTests_rest _⟩
    · rw [channels d]
      refine ⟨rfl, rfl, rfl, rfl, rfl, rfl, ?_⟩
      cases active : (look s.svc.channels d).active with
      | none => exact lastOutcome_tornChannel_idle _ d active
      | some k => exact lastOutcome_tornChannel _ d active
    · obtain ⟨-, position, list, log, lockout, waiting⟩ := cue a
      exact ⟨(quiet a).state, (quiet a).current, lockout, waiting, position, list, log⟩
  · refine ⟨readImage_memory, readImage_marker, readImage_length, readImage_crc,
      fun reads mark long check => ⟨fun before p after => readImage_range reads mark long check,
        fun passed => ?_⟩⟩
    have loaded := readImage_passed reads mark long check passed
    obtain ⟨count, records⟩ := readImage_loaded loaded
    refine ⟨(readImage c).2, Prod.ext loaded rfl, count, fun i r at_ => ?_⟩
    obtain ⟨inside, decoded, legal⟩ := records i r at_
    exact ⟨legal, _, _, recordLength_of_inside inside, rfl, decoded⟩

end Sys2Proof.Proofs.Validity
end

section
/-! PROOFS. The commands that come due in a millisecond: what puts each into the queue (R16, R20, R27, R50,
R51, R72, R92, R95, R102, R115, R117, R131, R136, R137, R139, R143, R149, R155, R157, R166, R175, R181). -/

namespace Sys2Proof.Proofs.Due

open Sys2Proof Sys2Proof.Machine Sys2Proof.Laws

theorem mem_dueIf (x c : Instr) (b : Bool) : x ∈ dueIf b c ↔ b = true ∧ x = c := by
  cases b <;> simp [dueIf]

/-! ## The conditions by name -/

/-- R166: the oldest byte of the frame under way has its age. -/
def frameLate (l : LinkPort) : Prop := ∃ k rest, l.buffer = k :: rest ∧ frameTime ≤ k.age

theorem mem_frameDue (x : Instr) (l : LinkPort) : x ∈ frameDue l ↔ frameLate l ∧ x = .frameTimeout := by
  unfold frameDue frameLate
  rw [mem_dueIf]
  cases l.buffer with
  | nil => simp
  | cons k rest => simp

/-- R27: the gap of the poll machine is over. -/
def gapOver (s : State) : Prop := ∃ e, s.sup.poll = .gap e ∧ s.control.cfg.supervision.gap ≤ e

theorem mem_portsDue (x : Instr) (s : State) : x ∈ portsDue s ↔
    ranOut s.svc.link.silenceLeft = true ∧ x = .silenceTimerExpiry
      ∨ (s.console.state = .silent ∧ consoleWait ≤ s.console.idle) ∧ x = .consoleIdleExpiry
      ∨ gapOver s ∧ x = .pollGapExpiry := by
  unfold portsDue gapOver
  rw [List.mem_append, List.mem_append, mem_dueIf, mem_dueIf, mem_dueIf, or_assoc]
  cases s.sup.poll <;> simp

theorem mem_zoneDue (x : Instr) (sv : Services) (z : ZoneId) : x ∈ zoneDue sv z ↔
    ∃ src, ranOut ((look sv.zones z).testLeft src) = true ∧ x = .testLimitExpiry z src := by
  unfold zoneDue
  rw [List.mem_append, mem_dueIf, mem_dueIf]
  refine ⟨fun h => h.elim (fun h => ⟨.link, h⟩) (fun h => ⟨.console, h⟩), fun ⟨src, h⟩ => ?_⟩
  cases src
  · exact .inl h
  · exact .inr h

theorem mem_audDue (x : Instr) (s : State) (a : Aud) : x ∈ audDue s a ↔
    ranOut (s.cue.get a).lockout = true ∧ x = .lockoutExpiry a
      ∨ ranOut (s.quiet.get a).openLeft = true ∧ x = .openTimerExpiry a
      ∨ ranOut (s.svc.houses.get a).windowLeft = true ∧ x = .windowExpiry a
      ∨ ranOut (s.svc.houses.get a).graceLeft = true ∧ x = .graceExpiry a := by
  simp only [audDue, List.mem_append, mem_dueIf, or_assoc]

theorem mem_slotDue (x : Instr) (sv : Services) (i : SlotId) : x ∈ slotDue sv i ↔
    ((look sv.slots i).state = .playing ∧ (look sv.slots i).fillNow ≤ (look sv.slots i).offset)
        ∧ x = .blockPlayed i
      ∨ ranOut (look sv.slots i).starve = true ∧ x = .starveTimerExpiry i := by
  simp only [slotDue, List.mem_append, mem_dueIf, Bool.and_eq_true, decide_eq_true_eq]

/-- R115: the show clock has passed the latest start of a waiting clip. -/
def latestOver (s : State) (d : ChannelId) : Prop :=
  ∃ a k, (look s.control.cfg.channels d).auditorium = some a ∧ (look s.svc.channels d).active = some k
    ∧ k.state.waits = true ∧ k.desc.latestStart ≠ 0 ∧ k.desc.latestStart < (s.cue.get a).clock

theorem latestDue_iff (s : State) (d : ChannelId) : latestDue s d = true ↔ latestOver s d := by
  unfold latestDue latestOver
  cases (look s.control.cfg.channels d).auditorium with
  | none => simp
  | some a =>
    cases (look s.svc.channels d).active with
    | none => simp
    | some k => simp [and_assoc]

/-- R117: the resume-limit timer of the active clip. -/
def resumeOver (s : State) (d : ChannelId) : Prop :=
  ∃ k, (look s.svc.channels d).active = some k ∧ ranOut k.resumeLeft = true

theorem mem_channelDue (x : Instr) (s : State) (d : ChannelId) : x ∈ channelDue s d ↔
    latestOver s d ∧ x = .latestStartPassed d ∨ resumeOver s d ∧ x = .resumeLimitExpiry d := by
  unfold channelDue resumeOver
  rw [List.mem_append, mem_dueIf, mem_dueIf, latestDue_iff]
  cases (look s.svc.channels d).active <;> simp

theorem mem_callDue (x : Instr) (k : Call) : x ∈ callDue k ↔
    ranOut k.expiryLeft = true ∧ x = .callExpiry k.desc.callId
      ∨ ranOut k.spacingLeft = true ∧ x = .spacingExpiry k.desc.callId
      ∨ ranOut k.breakLeft = true ∧ x = .breakExpiry k.desc.callId
      ∨ ranOut k.micLeft = true ∧ x = .micTimerExpiry k.desc.callId := by
  simp only [callDue, List.mem_append, mem_dueIf, or_assoc]

theorem mem_chimeDue (x : Instr) (c : RunningChime) :
    x ∈ chimeDue c ↔ c.left = 0 ∧ x = .chimeEnd c.owner := by
  simp only [chimeDue, mem_dueIf, decide_eq_true_eq]

/-! ## The lines -/

/-- R50: the level of the cue line is the active one. -/
def cueActive (s : State) (a : Aud) : Bool :=
  s.pins.cue.get a == activeLevel (s.control.cfg.auditoria.get a).cuePolarity

theorem mem_cueLineDue (x : Instr) (s : State) (a : Aud) : x ∈ cueLineDue s a ↔
    (s.cue.get a).sample = some (s.pins.cue.get a)
      ∧ ((s.cue.get a).filter = .unsettled ∧ x = .cueLineSettled a (cueActive s a)
        ∨ ((s.cue.get a).filter = .released ∧ cueActive s a = true) ∧ x = .cuePress a
        ∨ ((s.cue.get a).filter = .pressed ∧ cueActive s a = false) ∧ x = .cueLineRelease a) := by
  unfold cueLineDue agree
  dsimp only
  rw [← cueActive]
  by_cases same : (s.cue.get a).sample = some (s.pins.cue.get a)
  · rw [if_pos (by simpa using same)]
    cases (s.cue.get a).filter <;> cases cueActive s a <;> simp [same]
  · rw [if_neg (by simpa using same)]
    simp [same]

theorem mem_liveKeyDue (x : Instr) (key : LiveInput) (k : LiveKey) (level : Bool) :
    x ∈ liveKeyDue key k level ↔ k.sample = some level
      ∧ ((k.filter ≠ .pressed ∧ level = false) ∧ x = .liveKeyPress key
        ∨ (k.filter = .pressed ∧ level = true) ∧ x = .liveKeyRelease key
        ∨ (k.filter = .unsettled ∧ level = true) ∧ x = .liveKeySettled key) := by
  unfold liveKeyDue agree
  by_cases same : k.sample = some level
  · rw [if_pos (by simpa using same)]
    cases k.filter <;> cases level <;> simp [same]
  · rw [if_neg (by simpa using same)]
    simp [same]

/-- R102: the level of a live key's line. -/
def keyLine (s : State) : LiveInput → Bool
  | .liveA => s.pins.keyA
  | .liveB => s.pins.keyB

/-- R149: the sensor's line is at its open level. -/
def sensorOpen (s : State) (e : EntranceId) : Bool :=
  look s.pins.sensors e == sensorLevel (look s.control.cfg.entrances e).polarity true

theorem mem_sensorDue (x : Instr) (s : State) (e : EntranceId) : x ∈ sensorDue s e ↔
    ((look s.svc.entrances e).sample = some (look s.pins.sensors e)
        ∧ (look s.svc.entrances e).sensed ≠ sensedOf (sensorOpen s e))
      ∧ x = .entranceSensorEvent e (sensorOpen s e) := by
  unfold sensorDue agree
  dsimp only
  rw [← sensorOpen, mem_dueIf, Bool.and_eq_true, beq_iff_eq, bne_iff_ne]

theorem mem_ovrDue (x : Instr) (s : State) : x ∈ ovrDue s ↔
    s.ovrSample = some s.pins.ovr
      ∧ (s.pins.ovr = true ∧ s.svc.override = false ∧ x = .overrideAsserted
        ∨ s.pins.ovr = false ∧ s.svc.override = true ∧ x = .overrideReleased) := by
  unfold ovrDue agree
  cases s.pins.ovr <;> cases s.svc.override <;> simp

/-! ## All of them -/

/-- The lines sampled every millisecond, when they are. -/
theorem mem_fastLinesDue (x : Instr) (s : State) : x ∈ fastLinesDue s ↔ s.control.running = true
    ∧ ((∃ a, x ∈ cueLineDue s a)
      ∨ x ∈ liveKeyDue .liveA s.svc.keyA s.pins.keyA ∨ x ∈ liveKeyDue .liveB s.svc.keyB s.pins.keyB) := by
  unfold fastLinesDue
  cases s.control.running with
  | false => simp
  | true =>
    have auds : (∃ a, x ∈ cueLineDue s a) ↔ x ∈ cueLineDue s .one ∨ x ∈ cueLineDue s .two :=
      ⟨fun ⟨a, h⟩ => by cases a; exacts [.inl h, .inr h], fun h => h.elim (⟨_, ·⟩) (⟨_, ·⟩)⟩
    simp only [if_true, List.mem_append, or_assoc, auds, true_and]

/-- The lines sampled every 10 ms, when they are. -/
theorem mem_slowLinesDue (x : Instr) (s : State) :
    x ∈ slowLinesDue s ↔ s.phase = 0 ∧ (x ∈ ovrDue s ∨ ∃ e, x ∈ sensorDue s e) := by
  unfold slowLinesDue
  by_cases first : s.phase = 0
  · simp [first, allEntrances]
  · simp [first]

theorem mem_timersDue (x : Instr) (s : State) : x ∈ timersDue s ↔
    x ∈ portsDue s ∨ (∃ z, x ∈ zoneDue s.svc z) ∨ (∃ a, x ∈ audDue s a) ∨ (∃ i, x ∈ slotDue s.svc i)
      ∨ (∃ d, x ∈ channelDue s d) ∨ (∃ k ∈ s.svc.calls, x ∈ callDue k)
      ∨ ∃ c ∈ s.svc.chimes, x ∈ chimeDue c := by
  have auds : (∃ a, x ∈ audDue s a) ↔ x ∈ audDue s .one ∨ x ∈ audDue s .two :=
    ⟨fun ⟨a, h⟩ => by cases a; exacts [.inl h, .inr h], fun h => h.elim (⟨_, ·⟩) (⟨_, ·⟩)⟩
  simp only [timersDue, List.mem_append, List.mem_flatMap, or_assoc, auds, allZones, allSlots, allChannels,
    List.mem_finRange, true_and]

/-- What comes due in a millisecond, each command with its condition. -/
inductive Comes (s : State) : Instr → Prop
  | silence (h : ranOut s.svc.link.silenceLeft = true) : Comes s .silenceTimerExpiry
  | console (silent : s.console.state = .silent) (h : consoleWait ≤ s.console.idle) :
    Comes s .consoleIdleExpiry
  | gap (h : gapOver s) : Comes s .pollGapExpiry
  | test (z : ZoneId) (src : TestSource) (h : ranOut ((look s.svc.zones z).testLeft src) = true) :
    Comes s (.testLimitExpiry z src)
  | lockout (a : Aud) (h : ranOut (s.cue.get a).lockout = true) : Comes s (.lockoutExpiry a)
  | opening (a : Aud) (h : ranOut (s.quiet.get a).openLeft = true) : Comes s (.openTimerExpiry a)
  | window (a : Aud) (h : ranOut (s.svc.houses.get a).windowLeft = true) : Comes s (.windowExpiry a)
  | grace (a : Aud) (h : ranOut (s.svc.houses.get a).graceLeft = true) : Comes s (.graceExpiry a)
  | block (i : SlotId) (playing : (look s.svc.slots i).state = .playing)
    (h : (look s.svc.slots i).fillNow ≤ (look s.svc.slots i).offset) : Comes s (.blockPlayed i)
  | starve (i : SlotId) (h : ranOut (look s.svc.slots i).starve = true) : Comes s (.starveTimerExpiry i)
  | latest (d : ChannelId) (h : latestOver s d) : Comes s (.latestStartPassed d)
  | resume (d : ChannelId) (h : resumeOver s d) : Comes s (.resumeLimitExpiry d)
  | callExpiry (k : Call) (mem : k ∈ s.svc.calls) (h : ranOut k.expiryLeft = true) :
    Comes s (.callExpiry k.desc.callId)
  | spacing (k : Call) (mem : k ∈ s.svc.calls) (h : ranOut k.spacingLeft = true) :
    Comes s (.spacingExpiry k.desc.callId)
  | break_ (k : Call) (mem : k ∈ s.svc.calls) (h : ranOut k.breakLeft = true) :
    Comes s (.breakExpiry k.desc.callId)
  | mic (k : Call) (mem : k ∈ s.svc.calls) (h : ranOut k.micLeft = true) :
    Comes s (.micTimerExpiry k.desc.callId)
  | chime (c : RunningChime) (mem : c ∈ s.svc.chimes) (h : c.left = 0) : Comes s (.chimeEnd c.owner)
  | cueSettled (a : Aud) (run : s.control.running = true)
    (sample : (s.cue.get a).sample = some (s.pins.cue.get a)) (h : (s.cue.get a).filter = .unsettled) :
    Comes s (.cueLineSettled a (cueActive s a))
  | cuePress (a : Aud) (run : s.control.running = true)
    (sample : (s.cue.get a).sample = some (s.pins.cue.get a)) (h : (s.cue.get a).filter = .released)
    (active : cueActive s a = true) : Comes s (.cuePress a)
  | cueRelease (a : Aud) (run : s.control.running = true)
    (sample : (s.cue.get a).sample = some (s.pins.cue.get a)) (h : (s.cue.get a).filter = .pressed)
    (active : cueActive s a = false) : Comes s (.cueLineRelease a)
  | keyPress (key : LiveInput) (run : s.control.running = true)
    (sample : (liveKeyOf s.svc key).sample = some (keyLine s key))
    (h : (liveKeyOf s.svc key).filter ≠ .pressed) (level : keyLine s key = false) :
    Comes s (.liveKeyPress key)
  | keyRelease (key : LiveInput) (run : s.control.running = true)
    (sample : (liveKeyOf s.svc key).sample = some (keyLine s key))
    (h : (liveKeyOf s.svc key).filter = .pressed) (level : keyLine s key = true) :
    Comes s (.liveKeyRelease key)
  | keySettled (key : LiveInput) (run : s.control.running = true)
    (sample : (liveKeyOf s.svc key).sample = some (keyLine s key))
    (h : (liveKeyOf s.svc key).filter = .unsettled) (level : keyLine s key = true) :
    Comes s (.liveKeySettled key)
  | asserted (first : s.phase = 0) (sample : s.ovrSample = some true) (line : s.pins.ovr = true)
    (h : s.svc.override = false) : Comes s .overrideAsserted
  | released (first : s.phase = 0) (sample : s.ovrSample = some false) (line : s.pins.ovr = false)
    (h : s.svc.override = true) : Comes s .overrideReleased
  | sensor (e : EntranceId) (first : s.phase = 0)
    (sample : (look s.svc.entrances e).sample = some (look s.pins.sensors e))
    (h : (look s.svc.entrances e).sensed ≠ sensedOf (sensorOpen s e)) :
    Comes s (.entranceSensorEvent e (sensorOpen s e))
  | frame (h : frameLate s.svc.link) : Comes s .frameTimeout

section comes

variable {x : Instr} {s : State}

theorem comes_of_timersDue (h : x ∈ timersDue s) : Comes s x := by
  rw [mem_timersDue] at h
  rcases h with h | ⟨z, h⟩ | ⟨a, h⟩ | ⟨i, h⟩ | ⟨d, h⟩ | ⟨k, mem, h⟩ | ⟨c, mem, h⟩
  · rw [mem_portsDue] at h
    rcases h with ⟨h, rfl⟩ | ⟨⟨silent, h⟩, rfl⟩ | ⟨h, rfl⟩
    exacts [.silence h, .console silent h, .gap h]
  · obtain ⟨src, out, rfl⟩ := (mem_zoneDue x s.svc z).1 h
    exact .test z src out
  · rw [mem_audDue] at h
    rcases h with ⟨h, rfl⟩ | ⟨h, rfl⟩ | ⟨h, rfl⟩ | ⟨h, rfl⟩
    exacts [.lockout a h, .opening a h, .window a h, .grace a h]
  · rw [mem_slotDue] at h
    rcases h with ⟨⟨playing, h⟩, rfl⟩ | ⟨h, rfl⟩
    exacts [.block i playing h, .starve i h]
  · rw [mem_channelDue] at h
    rcases h with ⟨h, rfl⟩ | ⟨h, rfl⟩
    exacts [.latest d h, .resume d h]
  · rw [mem_callDue] at h
    rcases h with ⟨h, rfl⟩ | ⟨h, rfl⟩ | ⟨h, rfl⟩ | ⟨h, rfl⟩
    exacts [.callExpiry k mem h, .spacing k mem h, .break_ k mem h, .mic k mem h]
  · obtain ⟨ended, rfl⟩ := (mem_chimeDue x c).1 h
    exact .chime c mem ended

theorem comes_of_liveKeyDue (run : s.control.running = true) (key : LiveInput)
    (h : x ∈ liveKeyDue key (liveKeyOf s.svc key) (keyLine s key)) : Comes s x := by
  rw [mem_liveKeyDue] at h
  rcases h with ⟨sample, ⟨⟨h, level⟩, rfl⟩ | ⟨⟨h, level⟩, rfl⟩ | ⟨⟨h, level⟩, rfl⟩⟩
  exacts [.keyPress key run sample h level, .keyRelease key run sample h level,
    .keySettled key run sample h level]

theorem comes_of_fastLinesDue (h : x ∈ fastLinesDue s) : Comes s x := by
  rw [mem_fastLinesDue] at h
  obtain ⟨run, ⟨a, h⟩ | h | h⟩ := h
  · rw [mem_cueLineDue] at h
    rcases h with ⟨sample, ⟨h, rfl⟩ | ⟨⟨h, active⟩, rfl⟩ | ⟨⟨h, active⟩, rfl⟩⟩
    exacts [.cueSettled a run sample h, .cuePress a run sample h active,
      .cueRelease a run sample h active]
  · exact comes_of_liveKeyDue run .liveA h
  · exact comes_of_liveKeyDue run .liveB h

theorem comes_of_slowLinesDue (h : x ∈ slowLinesDue s) : Comes s x := by
  rw [mem_slowLinesDue] at h
  obtain ⟨first, h | ⟨e, h⟩⟩ := h
  · rw [mem_ovrDue] at h
    rcases h with ⟨sample, ⟨line, h, rfl⟩ | ⟨line, h, rfl⟩⟩
    exacts [.asserted first (line ▸ sample) line h, .released first (line ▸ sample) line h]
  · obtain ⟨⟨sample, differs⟩, rfl⟩ := (mem_sensorDue x s e).1 h
    exact .sensor e first sample differs

theorem mem_dueNow (x : Instr) (s : State) : x ∈ dueNow s ↔
    x ∈ timersDue s ∨ x ∈ fastLinesDue s ∨ x ∈ slowLinesDue s ∨ x ∈ frameDue s.svc.link := by
  simp only [dueNow, List.mem_append, or_assoc]

theorem comes_of_mem (h : x ∈ dueNow s) : Comes s x := by
  rw [mem_dueNow] at h
  rcases h with h | h | h | h
  · exact comes_of_timersDue h
  · exact comes_of_fastLinesDue h
  · exact comes_of_slowLinesDue h
  · obtain ⟨late, rfl⟩ := (mem_frameDue x _).1 h
    exact .frame late

end comes

section places

variable {x : Instr} {s : State}

theorem mem_of_timer (h : x ∈ timersDue s) : x ∈ dueNow s := (mem_dueNow x s).2 (.inl h)

theorem mem_of_port (h : x ∈ portsDue s) : x ∈ dueNow s :=
  mem_of_timer ((mem_timersDue x s).2 (.inl h))

theorem mem_of_aud {a : Aud} (h : x ∈ audDue s a) : x ∈ dueNow s :=
  mem_of_timer ((mem_timersDue x s).2 (.inr (.inr (.inl ⟨a, h⟩))))

theorem mem_of_slot {i : SlotId} (h : x ∈ slotDue s.svc i) : x ∈ dueNow s :=
  mem_of_timer ((mem_timersDue x s).2 (.inr (.inr (.inr (.inl ⟨i, h⟩)))))

theorem mem_of_channel {d : ChannelId} (h : x ∈ channelDue s d) : x ∈ dueNow s :=
  mem_of_timer ((mem_timersDue x s).2 (.inr (.inr (.inr (.inr (.inl ⟨d, h⟩))))))

theorem mem_of_call {k : Call} (mem : k ∈ s.svc.calls) (h : x ∈ callDue k) : x ∈ dueNow s :=
  mem_of_timer ((mem_timersDue x s).2 (.inr (.inr (.inr (.inr (.inr (.inl ⟨k, mem, h⟩)))))))

theorem mem_of_chime {c : RunningChime} (mem : c ∈ s.svc.chimes) (h : x ∈ chimeDue c) : x ∈ dueNow s :=
  mem_of_timer ((mem_timersDue x s).2 (.inr (.inr (.inr (.inr (.inr (.inr ⟨c, mem, h⟩)))))))

theorem mem_of_cueLine {a : Aud} (run : s.control.running = true) (h : x ∈ cueLineDue s a) :
    x ∈ dueNow s :=
  (mem_dueNow x s).2 (.inr (.inl ((mem_fastLinesDue x s).2 ⟨run, .inl ⟨a, h⟩⟩)))

theorem mem_of_liveKey {key : LiveInput} (run : s.control.running = true)
    (h : x ∈ liveKeyDue key (liveKeyOf s.svc key) (keyLine s key)) : x ∈ dueNow s := by
  refine (mem_dueNow x s).2 (.inr (.inl ((mem_fastLinesDue x s).2 ⟨run, .inr ?_⟩)))
  cases key
  · exact .inl h
  · exact .inr h

theorem mem_of_ovr (first : s.phase = 0) (h : x ∈ ovrDue s) : x ∈ dueNow s :=
  (mem_dueNow x s).2 (.inr (.inr (.inl ((mem_slowLinesDue x s).2 ⟨first, .inl h⟩))))

theorem mem_of_sensor {e : EntranceId} (first : s.phase = 0) (h : x ∈ sensorDue s e) : x ∈ dueNow s :=
  (mem_dueNow x s).2 (.inr (.inr (.inl ((mem_slowLinesDue x s).2 ⟨first, .inr ⟨e, h⟩⟩))))

end places

theorem mem_of_comes {x : Instr} {s : State} (h : Comes s x) : x ∈ dueNow s := by
  cases h with
  | silence h => exact mem_of_port ((mem_portsDue _ _).2 (.inl ⟨h, rfl⟩))
  | console silent h => exact mem_of_port ((mem_portsDue _ _).2 (.inr (.inl ⟨⟨silent, h⟩, rfl⟩)))
  | gap h => exact mem_of_port ((mem_portsDue _ _).2 (.inr (.inr ⟨h, rfl⟩)))
  | test z src h =>
    exact mem_of_timer ((mem_timersDue _ s).2 (.inr (.inl ⟨z, (mem_zoneDue _ _ z).2 ⟨src, h, rfl⟩⟩)))
  | lockout a h => exact mem_of_aud ((mem_audDue _ _ a).2 (.inl ⟨h, rfl⟩))
  | opening a h => exact mem_of_aud ((mem_audDue _ _ a).2 (.inr (.inl ⟨h, rfl⟩)))
  | window a h => exact mem_of_aud ((mem_audDue _ _ a).2 (.inr (.inr (.inl ⟨h, rfl⟩))))
  | grace a h => exact mem_of_aud ((mem_audDue _ _ a).2 (.inr (.inr (.inr ⟨h, rfl⟩))))
  | block i playing h => exact mem_of_slot ((mem_slotDue _ _ i).2 (.inl ⟨⟨playing, h⟩, rfl⟩))
  | starve i h => exact mem_of_slot ((mem_slotDue _ _ i).2 (.inr ⟨h, rfl⟩))
  | latest d h => exact mem_of_channel ((mem_channelDue _ _ d).2 (.inl ⟨h, rfl⟩))
  | resume d h => exact mem_of_channel ((mem_channelDue _ _ d).2 (.inr ⟨h, rfl⟩))
  | callExpiry k mem h => exact mem_of_call mem ((mem_callDue _ k).2 (.inl ⟨h, rfl⟩))
  | spacing k mem h => exact mem_of_call mem ((mem_callDue _ k).2 (.inr (.inl ⟨h, rfl⟩)))
  | break_ k mem h => exact mem_of_call mem ((mem_callDue _ k).2 (.inr (.inr (.inl ⟨h, rfl⟩))))
  | mic k mem h => exact mem_of_call mem ((mem_callDue _ k).2 (.inr (.inr (.inr ⟨h, rfl⟩))))
  | chime c mem h => exact mem_of_chime mem ((mem_chimeDue _ c).2 ⟨h, rfl⟩)
  | cueSettled a run sample h =>
    exact mem_of_cueLine run ((mem_cueLineDue _ _ a).2 ⟨sample, .inl ⟨h, rfl⟩⟩)
  | cuePress a run sample h active =>
    exact mem_of_cueLine run ((mem_cueLineDue _ _ a).2 ⟨sample, .inr (.inl ⟨⟨h, active⟩, rfl⟩)⟩)
  | cueRelease a run sample h active =>
    exact mem_of_cueLine run ((mem_cueLineDue _ _ a).2 ⟨sample, .inr (.inr ⟨⟨h, active⟩, rfl⟩)⟩)
  | keyPress key run sample h level =>
    exact mem_of_liveKey run ((mem_liveKeyDue ..).2 ⟨sample, .inl ⟨⟨h, level⟩, rfl⟩⟩)
  | keyRelease key run sample h level =>
    exact mem_of_liveKey run ((mem_liveKeyDue ..).2 ⟨sample, .inr (.inl ⟨⟨h, level⟩, rfl⟩)⟩)
  | keySettled key run sample h level =>
    exact mem_of_liveKey run ((mem_liveKeyDue ..).2 ⟨sample, .inr (.inr ⟨⟨h, level⟩, rfl⟩)⟩)
  | asserted first sample line h =>
    exact mem_of_ovr first ((mem_ovrDue _ s).2 ⟨line ▸ sample, .inl ⟨line, h, rfl⟩⟩)
  | released first sample line h =>
    exact mem_of_ovr first ((mem_ovrDue _ s).2 ⟨line ▸ sample, .inr ⟨line, h, rfl⟩⟩)
  | sensor e first sample h => exact mem_of_sensor first ((mem_sensorDue _ s e).2 ⟨⟨sample, h⟩, rfl⟩)
  | frame h => exact (mem_dueNow _ s).2 (.inr (.inr (.inr ((mem_frameDue _ _).2 ⟨h, rfl⟩))))

theorem mem_dueNow_iff (x : Instr) (s : State) : x ∈ dueNow s ↔ Comes s x := ⟨comes_of_mem, mem_of_comes⟩

end Sys2Proof.Proofs.Due
end

section
/-! PROOFS. A millisecond of the part's own time (R16, R48, R125, R149). -/

namespace Sys2Proof.Proofs.Millisecond

open Sys2Proof Sys2Proof.Machine Sys2Proof.Laws Sys2Proof.Proofs.Due

/-! ## The step -/

theorem resumeFiring_idle {a : Aud} {s : State} (firing : (s.cue.get a).firing = none)
    (waiting : (s.cue.get a).waiting = []) : resumeFiring a s = s := by
  have rest : fireRest a s = s := by
    unfold fireRest
    rw [firing]
  unfold resumeFiring drainCues
  rw [rest]
  dsimp only
  rw [firing, waiting]

theorem finishWork_idle {s : State} (still : Still s)
    (idle : ∀ a, (s.cue.get a).firing = none ∧ (s.cue.get a).waiting = []) : finishWork s = s := by
  unfold finishWork
  rw [resumeFiring_idle (idle .one).1 (idle .one).2, resumeFiring_idle (idle .two).1 (idle .two).2,
    settled_rest s still.reports still.walk]

/-- The part after a millisecond without work left. -/
def later (s : State) : State :=
  { nextPhase (sampleSlow (sampleFast s.count)) with pending := dueNow s.count }

theorem pending_sampled (s : State) :
    (nextPhase (sampleSlow (sampleFast s))).pending = s.pending := by
  unfold nextPhase sampleSlow sampleFast
  dsimp only
  split_ifs <;> rfl

theorem step_later {s : State} (empty : s.pending = []) (still : Still s)
    (idle : ∀ a, (s.cue.get a).firing = none ∧ (s.cue.get a).waiting = []) :
    step s = .next (later s) := by
  have queue : (nextPhase (sampleSlow (sampleFast s.count))).pending = [] :=
    (pending_sampled s.count).trans empty
  unfold step tick
  rw [empty]
  dsimp only
  rw [if_neg (by simp [still.up]), finishWork_idle still idle, queue, List.nil_append]
  rfl

/-! ## What a millisecond leaves -/

/-- What taking the samples leaves. -/
def unsampled (s : State) :=
  (s.control, s.pins, s.svc.link, s.svc.free, s.svc.finished, s.svc.callClock, s.cue.one.clock, s.cue.two.clock)

theorem unsampled_sampled (s : State) :
    unsampled (nextPhase (sampleSlow (sampleFast s))) = unsampled s := by
  have slow (s : State) : unsampled (sampleSlow s) = unsampled s := by
    unfold sampleSlow
    split <;> rfl
  have fast (s : State) : unsampled (sampleFast s) = unsampled s := by
    unfold sampleFast
    split <;> rfl
  exact (slow _).trans (fast s)

/-- What a millisecond leaves, and what it counts. -/
structure Counted (s t : State) : Prop where
  control : t.control = s.control
  pins : t.pins = s.pins
  link : t.svc.link = s.svc.link.tick
  free : t.svc.free = s.svc.free
  finished : t.svc.finished = s.svc.finished
  callClock : t.svc.callClock = holdAt clockLimit s.svc.callClock
  clock : ∀ a, (t.cue.get a).clock = (s.cue.get a).tick.clock

theorem later_counted (s : State) : Counted s (later s) := by
  have same := unsampled_sampled s.count
  obtain ⟨control, rest⟩ := Prod.mk.inj same
  obtain ⟨pins, rest⟩ := Prod.mk.inj rest
  obtain ⟨link, rest⟩ := Prod.mk.inj rest
  obtain ⟨free, rest⟩ := Prod.mk.inj rest
  obtain ⟨finished, rest⟩ := Prod.mk.inj rest
  obtain ⟨callClock, rest⟩ := Prod.mk.inj rest
  obtain ⟨one, two⟩ := Prod.mk.inj rest
  refine ⟨control, pins, link, free, finished, callClock, fun a => ?_⟩
  cases a
  · exact one
  · exact two

theorem tick_clock (c : CueFollower) : c.tick.clock
    = if c.running = true ∧ c.clock < clockLimit then c.clock + 1 else c.clock := by
  unfold CueFollower.tick holdAt
  dsimp only
  cases c.running <;> simp

/-! ## The samples -/

/-- What the samples of the lines of every millisecond leave. -/
def slowView (s : State) := (s.phase, s.pins, s.ovrSample)

theorem slowView_sampleFast (s : State) : slowView (sampleFast s) = slowView s := by
  unfold sampleFast
  split <;> rfl

theorem phase_sampleSlow (s : State) : (sampleSlow s).phase = s.phase := by
  unfold sampleSlow
  split <;> rfl

theorem phase_later (s : State) : (later s).phase = (s.phase + 1) % 10 := by
  have same : (sampleSlow (sampleFast s.count)).phase = s.phase :=
    (phase_sampleSlow _).trans (congrArg (·.1) (slowView_sampleFast s.count))
  exact congrArg (fun n => (n + 1) % 10) same

theorem ovrSample_sampleSlow (s : State) :
    (sampleSlow s).ovrSample = if s.phase = 0 then some s.pins.ovr else s.ovrSample := by
  unfold sampleSlow
  split <;> rfl

theorem ovrSample_later (s : State) :
    (later s).ovrSample = if s.phase = 0 then some s.pins.ovr else s.ovrSample := by
  obtain ⟨phase, rest⟩ := Prod.mk.inj (slowView_sampleFast s.count)
  obtain ⟨pins, sample⟩ := Prod.mk.inj rest
  have here := ovrSample_sampleSlow (sampleFast s.count)
  rw [phase, pins, sample] at here
  exact here

theorem cue_sampleSlow (s : State) : (sampleSlow s).cue = s.cue := by
  unfold sampleSlow
  split <;> rfl

theorem get_tick (s : State) (a : Aud) : s.count.cue.get a = (s.cue.get a).tick := by
  cases a <;> rfl

theorem sample_sampleFast (s : State) (a : Aud) :
    ((sampleFast s).cue.get a).sample
      = if s.control.running = true then some (s.pins.cue.get a) else (s.cue.get a).sample := by
  unfold sampleFast
  split
  · cases a <;> rfl
  · rfl

theorem sample_later (s : State) (a : Aud) :
    ((later s).cue.get a).sample
      = if s.control.running = true then some (s.pins.cue.get a) else (s.cue.get a).sample := by
  have slow : (later s).cue = (sampleFast s.count).cue := cue_sampleSlow _
  have unticked : (s.count.cue.get a).sample = (s.cue.get a).sample := by
    rw [get_tick]
    rfl
  rw [slow, sample_sampleFast, unticked]
  rfl

/-! ## What comes due (log 3) -/

/-- A timer that runs out in this millisecond. -/
def runsOut (left : Option Nat) : Prop := ∃ n, left = some n ∧ n ≤ 1

theorem ranOut_tickTimer (left : Option Nat) : ranOut (tickTimer left) = true ↔ runsOut left := by
  cases left with
  | none => simp [ranOut, tickTimer, runsOut]
  | some n =>
    simp only [ranOut, tickTimer, runsOut, Option.map_some, beq_iff_eq, Option.some.injEq, exists_eq_left']
    omega

section due

variable (s : State)

theorem due_iff (x : Instr) : x ∈ (later s).pending ↔ Comes s.count x := mem_dueNow_iff x s.count

theorem due_silence : .silenceTimerExpiry ∈ (later s).pending ↔ runsOut s.svc.link.silenceLeft := by
  rw [due_iff, ← ranOut_tickTimer]
  exact ⟨fun | .silence h => h, fun h => .silence h⟩

theorem due_frame : .frameTimeout ∈ (later s).pending
    ↔ ∃ k rest, s.svc.link.buffer = k :: rest ∧ 19 ≤ k.age := by
  have late : frameLate s.count.svc.link ↔ ∃ k rest, s.svc.link.buffer = k :: rest ∧ 19 ≤ k.age := by
    have aged : s.count.svc.link.buffer = s.svc.link.buffer.map (fun k => { k with age := k.age + 1 }) := rfl
    unfold frameLate frameTime
    rw [aged]
    cases s.svc.link.buffer with
    | nil => simp
    | cons k rest =>
      simp only [List.map_cons, List.cons.injEq]
      refine ⟨fun ⟨_, _, ⟨same, _⟩, old⟩ => ⟨k, rest, ⟨rfl, rfl⟩, by subst same; dsimp only at old; omega⟩,
        fun ⟨_, _, ⟨same, _⟩, old⟩ => ⟨_, _, ⟨rfl, rfl⟩, by subst same; dsimp only; omega⟩⟩
  rw [due_iff, ← late]
  exact ⟨fun | .frame h => h, .frame⟩

theorem due_console : .consoleIdleExpiry ∈ (later s).pending
    ↔ s.console.state = .silent ∧ s.pins.consoleStop = true ∧ 9 ≤ s.console.idle := by
  have waits : s.count.console.state = .silent ∧ consoleWait ≤ s.count.console.idle
      ↔ s.console.state = .silent ∧ s.pins.consoleStop = true ∧ 9 ≤ s.console.idle := by
    have ticked : s.count.console = s.console.tick s.pins.consoleStop := rfl
    unfold consoleWait
    rw [ticked, Console.tick]
    by_cases silent : s.console.state = .silent
    · rw [if_pos silent]
      cases s.pins.consoleStop <;> simp [silent]
    · rw [if_neg silent]
      simp [silent]
  rw [due_iff, ← waits]
  exact ⟨fun | .console silent h => ⟨silent, h⟩, fun ⟨silent, h⟩ => .console silent h⟩

theorem due_gap : .pollGapExpiry ∈ (later s).pending
    ↔ ∃ e, s.sup.poll = .gap e ∧ s.control.cfg.supervision.gap ≤ e + 1 := by
  have ended : gapOver s.count ↔ ∃ e, s.sup.poll = .gap e ∧ s.control.cfg.supervision.gap ≤ e + 1 := by
    have ticked : s.count.sup.poll = s.sup.poll.tick := rfl
    have cfg : s.count.control = s.control := rfl
    unfold gapOver
    rw [ticked, cfg]
    cases s.sup.poll <;> simp [PollState.tick]
  rw [due_iff, ← ended]
  exact ⟨fun | .gap h => h, .gap⟩

theorem due_test (z : ZoneId) (src : TestSource) : .testLimitExpiry z src ∈ (later s).pending
    ↔ runsOut ((look s.svc.zones z).testLeft src) := by
  have ticked : (look s.count.svc.zones z).testLeft src = tickTimer ((look s.svc.zones z).testLeft src) := by
    have zone : look s.count.svc.zones z = (look s.svc.zones z).tick := look_map _ _ z
    rw [zone]
    cases src <;> rfl
  rw [due_iff, ← ranOut_tickTimer, ← ticked]
  exact ⟨fun | .test _ _ h => h, .test z src⟩

theorem due_lockout (a : Aud) : .lockoutExpiry a ∈ (later s).pending ↔ runsOut (s.cue.get a).lockout := by
  have ticked : (s.count.cue.get a).lockout = tickTimer (s.cue.get a).lockout := by
    rw [get_tick]
    rfl
  rw [due_iff, ← ranOut_tickTimer, ← ticked]
  exact ⟨fun | .lockout _ h => h, .lockout a⟩

theorem due_opening (a : Aud) : .openTimerExpiry a ∈ (later s).pending ↔ runsOut (s.quiet.get a).openLeft := by
  have ticked : (s.count.quiet.get a).openLeft = tickTimer (s.quiet.get a).openLeft := by cases a <;> rfl
  rw [due_iff, ← ranOut_tickTimer, ← ticked]
  exact ⟨fun | .opening _ h => h, .opening a⟩

theorem due_window (a : Aud) :
    .windowExpiry a ∈ (later s).pending ↔ runsOut (s.svc.houses.get a).windowLeft := by
  have ticked : (s.count.svc.houses.get a).windowLeft = tickTimer (s.svc.houses.get a).windowLeft := by
    cases a <;> rfl
  rw [due_iff, ← ranOut_tickTimer, ← ticked]
  exact ⟨fun | .window _ h => h, .window a⟩

theorem due_grace (a : Aud) :
    .graceExpiry a ∈ (later s).pending ↔ runsOut (s.svc.houses.get a).graceLeft := by
  have ticked : (s.count.svc.houses.get a).graceLeft = tickTimer (s.svc.houses.get a).graceLeft := by
    cases a <;> rfl
  rw [due_iff, ← ranOut_tickTimer, ← ticked]
  exact ⟨fun | .grace _ h => h, .grace a⟩

theorem slot_tick (i : SlotId) : look s.count.svc.slots i = (look s.svc.slots i).tick := look_map _ _ i

theorem due_block (i : SlotId) : .blockPlayed i ∈ (later s).pending
    ↔ (look s.svc.slots i).state = .playing
      ∧ (look s.svc.slots i).fillNow ≤ (look s.svc.slots i).offset + 16 := by
  have played : (look s.count.svc.slots i).state = .playing
      ∧ (look s.count.svc.slots i).fillNow ≤ (look s.count.svc.slots i).offset
      ↔ (look s.svc.slots i).state = .playing
        ∧ (look s.svc.slots i).fillNow ≤ (look s.svc.slots i).offset + 16 := by
    have fill : (look s.svc.slots i).tick.fillNow = (look s.svc.slots i).fillNow := rfl
    rw [slot_tick, fill]
    unfold Slot.tick
    refine and_congr_right (fun playing => ?_)
    dsimp only at playing ⊢
    rw [if_pos playing]
  rw [due_iff, ← played]
  exact ⟨fun | .block _ playing h => ⟨playing, h⟩, fun ⟨playing, h⟩ => .block i playing h⟩

theorem due_starve (i : SlotId) :
    .starveTimerExpiry i ∈ (later s).pending ↔ runsOut (look s.svc.slots i).starve := by
  have ticked : (look s.count.svc.slots i).starve = tickTimer (look s.svc.slots i).starve := by
    rw [slot_tick]
    rfl
  rw [due_iff, ← ranOut_tickTimer, ← ticked]
  exact ⟨fun | .starve _ h => h, .starve i⟩

theorem active_tick (d : ChannelId) : (look s.count.svc.channels d).active
    = (look s.svc.channels d).active.map (fun k => { k with resumeLeft := tickTimer k.resumeLeft }) := by
  have ticked : look s.count.svc.channels d = (look s.svc.channels d).tick := look_map _ _ d
  rw [ticked]
  rfl

theorem due_resume (d : ChannelId) : .resumeLimitExpiry d ∈ (later s).pending
    ↔ ∃ k, (look s.svc.channels d).active = some k ∧ runsOut k.resumeLeft := by
  have ended : resumeOver s.count d ↔ ∃ k, (look s.svc.channels d).active = some k ∧ runsOut k.resumeLeft := by
    unfold resumeOver
    rw [active_tick]
    cases (look s.svc.channels d).active with
    | none => simp
    | some k => simp [ranOut_tickTimer]
  rw [due_iff, ← ended]
  exact ⟨fun | .resume _ h => h, .resume d⟩

theorem clock_later (a : Aud) : ((later s).cue.get a).clock = (s.count.cue.get a).clock := by
  rw [(later_counted s).clock, get_tick]

theorem due_latest (d : ChannelId) : .latestStartPassed d ∈ (later s).pending
    ↔ ∃ a k, (look s.control.cfg.channels d).auditorium = some a
      ∧ (look s.svc.channels d).active = some k ∧ k.state.waits = true
      ∧ k.desc.latestStart ≠ 0 ∧ k.desc.latestStart < ((later s).cue.get a).clock := by
  have passed : latestOver s.count d ↔ ∃ a k, (look s.control.cfg.channels d).auditorium = some a
      ∧ (look s.svc.channels d).active = some k ∧ k.state.waits = true
      ∧ k.desc.latestStart ≠ 0 ∧ k.desc.latestStart < ((later s).cue.get a).clock := by
    have cfg : s.count.control = s.control := rfl
    unfold latestOver
    rw [active_tick, cfg]
    simp only [clock_later]
    cases (look s.svc.channels d).active with
    | none => simp
    | some k => simp
  rw [due_iff, ← passed]
  exact ⟨fun | .latest _ h => h, .latest d⟩

/-- The timers of the calls, one of them by its reader. -/
theorem call_tick {left : Call → Option Nat} (reads : ∀ k, left k.tick = tickTimer (left k)) (id : Nat) :
    (∃ k ∈ s.count.svc.calls, k.desc.callId = id ∧ ranOut (left k) = true)
      ↔ ∃ k ∈ s.svc.calls, k.desc.callId = id ∧ runsOut (left k) := by
  have ticked : s.count.svc.calls = s.svc.calls.map Call.tick := rfl
  rw [ticked]
  simp only [List.mem_map, exists_exists_and_eq_and, reads, ranOut_tickTimer]
  rfl

theorem due_callExpiry (id : Nat) : .callExpiry id ∈ (later s).pending
    ↔ ∃ k ∈ s.svc.calls, k.desc.callId = id ∧ runsOut k.expiryLeft := by
  rw [due_iff, ← call_tick s (left := Call.expiryLeft) (fun _ => rfl)]
  exact ⟨fun | .callExpiry k mem h => ⟨k, mem, rfl, h⟩, fun ⟨k, mem, same, h⟩ => same ▸ .callExpiry k mem h⟩

theorem due_spacing (id : Nat) : .spacingExpiry id ∈ (later s).pending
    ↔ ∃ k ∈ s.svc.calls, k.desc.callId = id ∧ runsOut k.spacingLeft := by
  rw [due_iff, ← call_tick s (left := Call.spacingLeft) (fun _ => rfl)]
  exact ⟨fun | .spacing k mem h => ⟨k, mem, rfl, h⟩, fun ⟨k, mem, same, h⟩ => same ▸ .spacing k mem h⟩

theorem due_break (id : Nat) : .breakExpiry id ∈ (later s).pending
    ↔ ∃ k ∈ s.svc.calls, k.desc.callId = id ∧ runsOut k.breakLeft := by
  rw [due_iff, ← call_tick s (left := Call.breakLeft) (fun _ => rfl)]
  exact ⟨fun | .break_ k mem h => ⟨k, mem, rfl, h⟩, fun ⟨k, mem, same, h⟩ => same ▸ .break_ k mem h⟩

theorem due_mic (id : Nat) : .micTimerExpiry id ∈ (later s).pending
    ↔ ∃ k ∈ s.svc.calls, k.desc.callId = id ∧ runsOut k.micLeft := by
  rw [due_iff, ← call_tick s (left := Call.micLeft) (fun _ => rfl)]
  exact ⟨fun | .mic k mem h => ⟨k, mem, rfl, h⟩, fun ⟨k, mem, same, h⟩ => same ▸ .mic k mem h⟩

theorem due_chime (o : ChimeOwner) : .chimeEnd o ∈ (later s).pending
    ↔ ∃ c ∈ s.svc.chimes, c.owner = o ∧ c.left ≤ 1 := by
  have sounded : (∃ c ∈ s.count.svc.chimes, c.owner = o ∧ c.left = 0)
      ↔ ∃ c ∈ s.svc.chimes, c.owner = o ∧ c.left ≤ 1 := by
    have ticked : s.count.svc.chimes = s.svc.chimes.map RunningChime.tick := rfl
    rw [ticked]
    simp only [List.mem_map, exists_exists_and_eq_and, RunningChime.tick, Nat.sub_eq_zero_iff_le]
  rw [due_iff, ← sounded]
  exact ⟨fun | .chime c mem h => ⟨c, mem, rfl, h⟩, fun ⟨c, mem, same, h⟩ => same ▸ .chime c mem h⟩

/-! ## The lines that come due -/

/-- R50: the cue line is at its active level. -/
def lineActive (s : State) (a : Aud) : Prop :=
  s.pins.cue.get a = ((s.control.cfg.auditoria.get a).cuePolarity == .activeHigh)

theorem cueActive_iff (a : Aud) : cueActive s.count a = true ↔ lineActive s a := by
  have level : activeLevel (s.control.cfg.auditoria.get a).cuePolarity
      = ((s.control.cfg.auditoria.get a).cuePolarity == .activeHigh) := by
    cases (s.control.cfg.auditoria.get a).cuePolarity <;> rfl
  unfold lineActive
  rw [← level]
  exact beq_iff_eq

/-- R50: the cue line is sampled, and its last sample was at the same level. -/
def cueAgrees (s : State) (a : Aud) : Prop :=
  s.control.running = true ∧ (s.cue.get a).sample = some (s.pins.cue.get a)

theorem cueAgrees_iff (a : Aud) : cueAgrees s a
    ↔ s.count.control.running = true ∧ (s.count.cue.get a).sample = some (s.count.pins.cue.get a) := by
  rw [get_tick]
  rfl

theorem filter_tick (a : Aud) : (s.count.cue.get a).filter = (s.cue.get a).filter := by
  rw [get_tick]
  rfl

theorem due_cuePress (a : Aud) : .cuePress a ∈ (later s).pending
    ↔ cueAgrees s a ∧ (s.cue.get a).filter = .released ∧ lineActive s a := by
  rw [due_iff, cueAgrees_iff, ← filter_tick, ← cueActive_iff]
  exact ⟨fun | .cuePress _ run sample h active => ⟨⟨run, sample⟩, h, active⟩,
    fun ⟨⟨run, sample⟩, h, active⟩ => .cuePress a run sample h active⟩

theorem due_cueRelease (a : Aud) : .cueLineRelease a ∈ (later s).pending
    ↔ cueAgrees s a ∧ (s.cue.get a).filter = .pressed ∧ ¬ lineActive s a := by
  rw [due_iff, cueAgrees_iff, ← filter_tick, ← cueActive_iff, Bool.not_eq_true]
  exact ⟨fun | .cueRelease _ run sample h active => ⟨⟨run, sample⟩, h, active⟩,
    fun ⟨⟨run, sample⟩, h, active⟩ => .cueRelease a run sample h active⟩

theorem due_cueSettled (a : Aud) (b : Bool) : .cueLineSettled a b ∈ (later s).pending
    ↔ cueAgrees s a ∧ (s.cue.get a).filter = .unsettled ∧ (b = true ↔ lineActive s a) := by
  rw [due_iff, cueAgrees_iff, ← filter_tick, ← cueActive_iff, ← Bool.eq_iff_iff]
  exact ⟨fun | .cueSettled _ run sample h => ⟨⟨run, sample⟩, h, rfl⟩,
    fun ⟨⟨run, sample⟩, h, same⟩ => same ▸ .cueSettled a run sample h⟩

/-- R102: the key's line is sampled, and its last sample was at the same level. -/
def keyAgrees (s : State) (key : LiveInput) : Prop :=
  s.control.running = true ∧ (liveKeyOf s.svc key).sample = some (keyLine s key)

theorem liveKeyOf_tick (key : LiveInput) : liveKeyOf s.count.svc key = liveKeyOf s.svc key := by
  cases key <;> rfl

theorem keyLine_tick (key : LiveInput) : keyLine s.count key = keyLine s key := by
  cases key <;> rfl

theorem keyAgrees_iff (key : LiveInput) : keyAgrees s key ↔ s.count.control.running = true
    ∧ (liveKeyOf s.count.svc key).sample = some (keyLine s.count key) := by
  rw [liveKeyOf_tick, keyLine_tick]
  rfl

theorem due_keyPress (key : LiveInput) : .liveKeyPress key ∈ (later s).pending
    ↔ keyAgrees s key ∧ (liveKeyOf s.svc key).filter ≠ .pressed ∧ keyLine s key = false := by
  rw [due_iff, keyAgrees_iff, ← liveKeyOf_tick, ← keyLine_tick]
  exact ⟨fun | .keyPress _ run sample h level => ⟨⟨run, sample⟩, h, level⟩,
    fun ⟨⟨run, sample⟩, h, level⟩ => .keyPress key run sample h level⟩

theorem due_keyRelease (key : LiveInput) : .liveKeyRelease key ∈ (later s).pending
    ↔ keyAgrees s key ∧ (liveKeyOf s.svc key).filter = .pressed ∧ keyLine s key = true := by
  rw [due_iff, keyAgrees_iff, ← liveKeyOf_tick, ← keyLine_tick]
  exact ⟨fun | .keyRelease _ run sample h level => ⟨⟨run, sample⟩, h, level⟩,
    fun ⟨⟨run, sample⟩, h, level⟩ => .keyRelease key run sample h level⟩

theorem due_keySettled (key : LiveInput) : .liveKeySettled key ∈ (later s).pending
    ↔ keyAgrees s key ∧ (liveKeyOf s.svc key).filter = .unsettled ∧ keyLine s key = true := by
  rw [due_iff, keyAgrees_iff, ← liveKeyOf_tick, ← keyLine_tick]
  exact ⟨fun | .keySettled _ run sample h level => ⟨⟨run, sample⟩, h, level⟩,
    fun ⟨⟨run, sample⟩, h, level⟩ => .keySettled key run sample h level⟩

theorem due_asserted : .overrideAsserted ∈ (later s).pending
    ↔ s.phase = 0 ∧ s.ovrSample = some true ∧ s.pins.ovr = true ∧ s.svc.override = false := by
  rw [due_iff]
  exact ⟨fun | .asserted first sample line h => ⟨first, sample, line, h⟩,
    fun ⟨first, sample, line, h⟩ => .asserted first sample line h⟩

theorem due_released : .overrideReleased ∈ (later s).pending
    ↔ s.phase = 0 ∧ s.ovrSample = some false ∧ s.pins.ovr = false ∧ s.svc.override = true := by
  rw [due_iff]
  exact ⟨fun | .released first sample line h => ⟨first, sample, line, h⟩,
    fun ⟨first, sample, line, h⟩ => .released first sample line h⟩

theorem sensorOpen_eq_iff (e : EntranceId) (o : Bool) : sensorOpen s e = o
    ↔ look s.pins.sensors e = if (look s.control.cfg.entrances e).polarity = .openHigh then o else !o := by
  unfold sensorOpen
  cases (look s.control.cfg.entrances e).polarity <;> cases look s.pins.sensors e <;> cases o <;> decide

theorem due_sensor (e : EntranceId) (o : Bool) : .entranceSensorEvent e o ∈ (later s).pending
    ↔ s.phase = 0 ∧ (look s.svc.entrances e).sample = some (look s.pins.sensors e)
      ∧ (look s.svc.entrances e).sensed ≠ sensedOf o ∧ sensorOpen s e = o := by
  rw [due_iff]
  exact ⟨fun | .sensor _ first sample h => ⟨first, sample, h, rfl⟩,
    fun ⟨first, sample, h, same⟩ => by subst same; exact .sensor e first sample h⟩

end due

/-- Settles O2, from what each command that comes due waits for. -/
theorem emptyQueueCountsTime : Obligations.EmptyQueueCountsTime := by
  refine ⟨fun s empty still idle => ?_, fun s empty still idle => ?_⟩
  · obtain ⟨control, pins, link, free, finished, callClock, clock⟩ := later_counted s
    refine ⟨later s, step_later empty still idle, callClock, fun a => (clock a).trans (tick_clock _), control,
      free, pins, ?_, ?_, finished⟩
    · rw [link]
      rfl
    · rw [link]
      rfl
  · refine ⟨later s, step_later empty still idle, due_silence s, due_frame s, due_console s, due_gap s,
      fun z src => due_test s z src, fun a => ⟨due_lockout s a, due_opening s a, due_window s a, due_grace s a⟩,
      fun i => ⟨due_block s i, due_starve s i⟩, fun d => ⟨due_resume s d, due_latest s d⟩,
      fun id => ⟨due_callExpiry s id, due_spacing s id, due_break s id, due_mic s id⟩, due_chime s,
      fun a => ⟨due_cuePress s a, due_cueRelease s a, due_cueSettled s a, sample_later s a⟩, fun key => ?_,
      due_asserted s, due_released s, fun e o => ?_, ovrSample_later s, phase_later s⟩
    · cases key with
      | liveA => exact ⟨due_keyPress s .liveA, due_keyRelease s .liveA, due_keySettled s .liveA⟩
      | liveB => exact ⟨due_keyPress s .liveB, due_keyRelease s .liveB, due_keySettled s .liveB⟩
    · rw [← sensorOpen_eq_iff]
      exact due_sensor s e o

end Sys2Proof.Proofs.Millisecond
end

section
/-! PROOFS. The receiver: what it drops, keeps and takes (R166, R167, R168). -/

namespace Sys2Proof.Proofs.Receiver

open Sys2Proof Sys2Proof.Machine Sys2Proof.Laws Sys2Proof.Proofs.Cues Sys2Proof.Proofs.Images Sys2Proof.Proofs.Link

/-! ## Frames (R167) -/

/-- The bytes a frame's check covers: LEN to the end of BODY. -/
def coveredBytes (tag kind : Byte) (body : List Byte) : List Byte :=
  BitVec.ofNat 8 (body.length + 2) :: tag :: kind :: body

theorem frameBytes_eq (tag kind : Byte) (body : List Byte) :
    frameBytes tag kind body
      = 0xE7 :: (coveredBytes tag kind body ++ leBytes 2 (crc16 (coveredBytes tag kind body)).toNat) := rfl

theorem length_coveredBytes (tag kind : Byte) (body : List Byte) :
    (coveredBytes tag kind body).length = body.length + 3 := rfl

theorem length_frameBytes (tag kind : Byte) (body : List Byte) :
    (frameBytes tag kind body).length = body.length + 6 := by
  rw [frameBytes_eq, List.length_cons, List.length_append, length_coveredBytes, length_leBytes]

theorem crcRight_frameBytes (tag kind : Byte) (body : List Byte) :
    crcRight (frameBytes tag kind body) = true := by
  have long := length_frameBytes tag kind body
  have covered := length_coveredBytes tag kind body
  have fits : (crc16 (coveredBytes tag kind body)).toNat < 2 ^ 16 := (crc16 _).isLt
  unfold crcRight numAt
  dsimp only
  rw [long, frameBytes_eq]
  generalize coveredBytes tag kind body = front at covered fits ⊢
  have before : ((0xE7 : Byte) :: (front ++ leBytes 2 (crc16 front).toNat)).drop 1
      = front ++ leBytes 2 (crc16 front).toNat := rfl
  have after : ((0xE7 : Byte) :: (front ++ leBytes 2 (crc16 front).toNat)).drop (body.length + 6 - 2)
      = leBytes 2 (crc16 front).toNat := by
    have place : body.length + 6 - 2 = front.length + 1 := by omega
    rw [place, List.drop_succ_cons, List.drop_left]
  have count : body.length + 6 - 3 = front.length := by omega
  rw [before, after, count, List.take_left, List.take_of_length_le (by rw [length_leBytes]), leNat_leBytes (by omega)]
  exact beq_self_eq_true _

/-- The length byte of a frame. -/
theorem lenByte {body : List Byte} (short : body.length ≤ 249) :
    (BitVec.ofNat 8 (body.length + 2)).toNat = body.length + 2 :=
  Nat.mod_eq_of_lt (by omega)

/-! ## An examination (R166) -/

theorem examine_drop {k : KeptByte} (other : k.byte ≠ 0xE7) (rest : List KeptByte) :
    examine k rest = .drop := if_pos other

/-- Kept bytes that begin a frame not complete yet. -/
theorem examine_underWay {k : KeptByte} {rest : List KeptByte} (h : UnderWay (k :: rest)) :
    examine k rest = .wait := by
  cases rest with
  | nil =>
    obtain ⟨start, young⟩ := h
    unfold examine frameTime
    dsimp only
    rw [if_neg (not_not_intro start), if_neg (by omega)]
  | cons len more =>
    obtain ⟨start, young, low, high, short⟩ := h
    have inside : between 2 251 len.byte.toNat = true := between_iff.2 ⟨low, high⟩
    unfold examine frameTime
    dsimp only
    rw [if_neg (not_not_intro start), inside, if_neg (by decide), List.length_cons, if_pos (by omega),
      if_neg (by omega)]

theorem examine_badLength {k len : KeptByte} {rest : List KeptByte} (start : k.byte = 0xE7)
    (outside : ¬ (2 ≤ len.byte.toNat ∧ len.byte.toNat ≤ 251)) : examine k (len :: rest) = .drop := by
  have no : between 2 251 len.byte.toNat = false := Bool.eq_false_iff.2 (mt between_iff.1 outside)
  unfold examine
  dsimp only
  rw [if_neg (not_not_intro start), no, if_pos (by decide)]

section whole

variable {k len : KeptByte} {more : List KeptByte} (start : k.byte = 0xE7) (low : 2 ≤ len.byte.toNat)
  (high : len.byte.toNat ≤ 251) (all : more.length + 2 = len.byte.toNat + 4)
include start low high all

/-- Kept bytes as many as their length byte says. -/
theorem examine_whole : examine k (len :: more)
    = if crcRight ((k :: len :: more).map (·.byte)) then .frame (len.byte.toNat + 4) else .drop := by
  have inside : between 2 251 len.byte.toNat = true := between_iff.2 ⟨low, high⟩
  have every : (k :: len :: more).take (len.byte.toNat + 4) = k :: len :: more :=
    List.take_of_length_le (by simp only [List.length_cons]; omega)
  unfold examine
  dsimp only
  rw [if_neg (not_not_intro start), inside, if_neg (by decide), List.length_cons, if_neg (by omega), every]

end whole

/-! ## The hunt (R166) -/

theorem updLink_buffer (kept : List KeptByte) (s : State) :
    s.updLink (fun l => { l with buffer := kept }) = keeping kept s := rfl

theorem hunt_dropped {k : KeptByte} {rest : List KeptByte} (h : examine k rest = .drop) (n : Nat) (s : State) :
    hunt (n + 1) (k :: rest) s = hunt n rest s := by
  rw [hunt, h]

theorem hunt_underWay (left : List KeptByte) (h : UnderWay left) (s : State) :
    hunt left.length left s = keeping left s := by
  cases left with
  | nil => rfl
  | cons k rest =>
    rw [List.length_cons, hunt, examine_underWay h]
    rfl

theorem hunt_gone (gone : List KeptByte) (none_ : ∀ x ∈ gone, x.byte ≠ 0xE7) (found : List KeptByte)
    (s : State) : hunt (gone ++ found).length (gone ++ found) s = hunt found.length found s := by
  induction gone with
  | nil => rfl
  | cons k rest ih =>
    rw [List.cons_append, List.length_cons, hunt_dropped (examine_drop (none_ k List.mem_cons_self) _),
      ih (fun x mem => none_ x (List.mem_cons_of_mem k mem))]

/-- R166: bytes that begin no frame, then a frame under way. -/
theorem examineAll_underWay {gone left : List KeptByte} (none_ : ∀ x ∈ gone, x.byte ≠ 0xE7)
    (h : UnderWay left) (s : State) : examineAll (gone ++ left) s = keeping left s :=
  (hunt_gone gone none_ left s).trans (hunt_underWay left h s)

theorem keeping_same {kept : List KeptByte} {s : State} (same : s.svc.link.buffer = kept) :
    keeping kept s = s := by
  subst same
  rfl

/-- R167: kept bytes that are a whole frame are taken. -/
theorem hunt_frame {found : List KeptByte} {tag kind : Byte} {body : List Byte}
    (short : body.length ≤ 249) (bytes : found.map (·.byte) = frameBytes tag kind body) (s : State) :
    hunt found.length found s = keeping [] (takeFrame (frameBytes tag kind body) s) := by
  have count := congrArg List.length bytes
  rw [length_frameBytes, List.length_map] at count
  obtain ⟨k, rest, rfl⟩ := List.exists_cons_of_length_pos (l := found) (by omega)
  rw [List.length_cons] at count
  obtain ⟨len, more, rfl⟩ := List.exists_cons_of_length_pos (l := rest) (by omega)
  rw [List.length_cons] at count
  have start : k.byte = 0xE7 := (List.cons.inj bytes).1
  have length : len.byte = BitVec.ofNat 8 (body.length + 2) := (List.cons.inj (List.cons.inj bytes).2).1
  have value : len.byte.toNat = body.length + 2 := length ▸ lenByte short
  have found := examine_whole start (by omega) (by omega) (by omega : more.length + 2 = len.byte.toNat + 4)
  rw [bytes, crcRight_frameBytes, if_pos rfl] at found
  have taken : (k :: len :: more).take (len.byte.toNat + 4) = k :: len :: more :=
    List.take_of_length_le (by simp only [List.length_cons]; omega)
  have dropped : (k :: len :: more).drop (len.byte.toNat + 4) = [] :=
    List.drop_of_length_le (by simp only [List.length_cons]; omega)
  rw [List.length_cons, hunt, found]
  dsimp only
  rw [taken, dropped, bytes]
  rfl

theorem examineAll_frame {gone found : List KeptByte} (none_ : ∀ x ∈ gone, x.byte ≠ 0xE7) {tag kind : Byte}
    {body : List Byte} (short : body.length ≤ 249)
    (bytes : found.map (·.byte) = frameBytes tag kind body) (s : State) :
    examineAll (gone ++ found) s = keeping [] (takeFrame (frameBytes tag kind body) s) :=
  (hunt_gone gone none_ found s).trans (hunt_frame short bytes s)

/-! ## The commands -/

section exec

variable {s : State} (still : Still s)
include still

theorem keeping_settled (kept : List KeptByte) : (keeping kept s).settled = keeping kept s :=
  settled_rest _ still.reports still.walk

theorem exec_byte {b : Byte} {u : State}
    (h : examineAll (s.svc.link.buffer ++ [{ byte := b, age := 0 }]) s = u) :
    exec (.linkByteReceived b false) s = .next u.settled :=
  event_of_work still h

theorem exec_framingError {b : Byte} {u : State} (h : examineAll s.svc.link.buffer.tail s = u) :
    exec (.linkByteReceived b true) s = .next u.settled :=
  event_of_work still h

theorem exec_frameTimeout_work {u : State}
    (h : (if s.svc.link.buffer = [] then s else examineAll s.svc.link.buffer.tail s) = u) :
    exec .frameTimeout s = .next u.settled :=
  event_of_work (w := fun s => if s.svc.link.buffer = [] then s else examineAll s.svc.link.buffer.tail s)
    still h

theorem exec_frameTimeout {u : State} (kept : s.svc.link.buffer ≠ [])
    (h : examineAll s.svc.link.buffer.tail s = u) : exec .frameTimeout s = .next u.settled :=
  exec_frameTimeout_work still ((if_neg kept).trans h)

theorem exec_frameTimeout_hunt (none_ : s.svc.link.buffer = []) : exec .frameTimeout s = .next s := by
  have acts : exec .frameTimeout s = .next s.settled := exec_frameTimeout_work still (if_pos none_)
  rw [acts, settled_rest s still.reports still.walk]

end exec

end Sys2Proof.Proofs.Receiver
end

section
/-! PROOFS. The BODY that spells a request asks for the work of the request's command (R168, spec/09
sections 9.1, 9.4). -/

namespace Sys2Proof.Proofs.Bodies

open Sys2Proof Sys2Proof.Machine Sys2Proof.Laws Sys2Proof.Proofs.Images Sys2Proof.Proofs.RecordForms

/-! ## Fields -/

theorem inByte_eq_some_iff {n : Nat} {b : List Byte} : inByte n = some b ↔ n < 256 ∧ b = [byteOf n] := by
  unfold inByte
  split
  next fits => simp [fits, eq_comm]
  next wide => simp [wide]

theorem inWord_eq_some_iff {n : Nat} {b : List Byte} :
    inWord n = some b ↔ n < 65536 ∧ b = [byteOf n, byteOf (n / 256)] := by
  unfold inWord
  split
  next fits => simp [fits, eq_comm]
  next wide => simp [wide]

theorem inFour_eq_some_iff {n : Nat} {b : List Byte} : inFour n = some b ↔ n < 4294967296
    ∧ b = [byteOf n, byteOf (n / 256), byteOf (n / 65536), byteOf (n / 16777216)] := by
  unfold inFour
  split
  next fits => simp [fits, eq_comm]
  next wide => simp [wide]

/-- The byte of a flag. -/
theorem inFlag_eq_some_iff {o : Option Bool} {b : List Byte} :
    inFlag o = some b ↔ ∃ x, o = some x ∧ b = [yesNoByte x] := by
  cases o with
  | none => simp [inFlag]
  | some x => cases x <;> simp [inFlag, yesNoByte, eq_comm]

theorem inOrder_nil {b : List Byte} : inOrder [] = some b ↔ b = [] := by simp [inOrder, eq_comm]

theorem inOrder_cons {o : Option (List Byte)} {rest : List (Option (List Byte))} {b : List Byte} :
    inOrder (o :: rest) = some b ↔ ∃ x y, o = some x ∧ inOrder rest = some y ∧ b = x ++ y := by
  cases o with
  | none => simp [inOrder]
  | some x => simp [inOrder, eq_comm]

/-! ## What a BODY asks for -/

/-- A command's frame: its BODY asks for work, and the command is the request with that work. -/
def Carries (i : Instr) (tag : Byte) (kind : RequestKind) (body : List Byte) : Prop :=
  ∃ work : State → State, bodyWork kind tag body = some work ∧ ∀ s, exec i s = request tag kind work s

theorem carries_oneByte {i : Instr} {tag : Byte} {kind : RequestKind} {n : Nat} {body : List Byte}
    {work : Nat → State → State} (bytes : inByte n = some body)
    (reads : ∀ x : Byte, bodyWork kind tag [x] = some (work x.toNat))
    (runs : ∀ s, exec i s = request tag kind (work n) s) : Carries i tag kind body := by
  obtain ⟨small, rfl⟩ := inByte_eq_some_iff.1 bytes
  refine ⟨work n, ?_, runs⟩
  rw [reads, toNat_byteOf small]

theorem carries_noField {i : Instr} {tag : Byte} {kind : RequestKind} {body : List Byte}
    {work : State → State} (bytes : some [] = some body) (reads : bodyWork kind tag [] = some work)
    (runs : ∀ s, exec i s = request tag kind work s) : Carries i tag kind body := by
  cases bytes
  exact ⟨work, reads, runs⟩

theorem carries_word {i : Instr} {tag : Byte} {kind : RequestKind} {w : Word16} {body : List Byte}
    {work : Word16 → State → State} (bytes : inWord w.toNat = some body)
    (reads : ∀ x y : Byte, bodyWork kind tag [x, y] = some (work (BitVec.ofNat 16 (leNat [x, y]))))
    (runs : ∀ s, exec i s = request tag kind (work w) s) : Carries i tag kind body := by
  obtain ⟨-, rfl⟩ := inWord_eq_some_iff.1 bytes
  refine ⟨work w, ?_, runs⟩
  rw [reads, word_u16]

/-- The bytes of two fields. -/
theorem inOrder_two {a b : Option (List Byte)} {body : List Byte} (h : inOrder [a, b] = some body) :
    ∃ x y, a = some x ∧ b = some y ∧ body = x ++ y := by
  obtain ⟨x, rest, first, more, rfl⟩ := inOrder_cons.1 h
  obtain ⟨y, end_, second, last, rfl⟩ := inOrder_cons.1 more
  obtain rfl := inOrder_nil.1 last
  exact ⟨x, y, first, second, by rw [List.append_nil]⟩

/-- The bytes of a field before others. -/
theorem inOrder_more {a b : Option (List Byte)} {rest : List (Option (List Byte))} {body : List Byte}
    (h : inOrder (a :: b :: rest) = some body) :
    ∃ x y, a = some x ∧ inOrder (b :: rest) = some y ∧ body = x ++ y :=
  inOrder_cons.1 h

theorem carries_twoBytes {i : Instr} {tag : Byte} {kind : RequestKind} {m n : Nat} {body : List Byte}
    {work : Nat → Nat → State → State} (bytes : inOrder [inByte m, inByte n] = some body)
    (reads : ∀ x y : Byte, bodyWork kind tag [x, y] = some (work x.toNat y.toNat))
    (runs : ∀ s, exec i s = request tag kind (work m n) s) : Carries i tag kind body := by
  obtain ⟨x, y, first, second, rfl⟩ := inOrder_two bytes
  obtain ⟨small, rfl⟩ := inByte_eq_some_iff.1 first
  obtain ⟨small', rfl⟩ := inByte_eq_some_iff.1 second
  refine ⟨work m n, (reads _ _).trans ?_, runs⟩
  rw [toNat_byteOf small, toNat_byteOf small']

theorem carries_byteWord {i : Instr} {tag : Byte} {kind : RequestKind} {m n : Nat} {body : List Byte}
    {work : Nat → Nat → State → State} (bytes : inOrder [inByte m, inWord n] = some body)
    (reads : ∀ x y z : Byte, bodyWork kind tag [x, y, z] = some (work x.toNat (leNat [y, z])))
    (runs : ∀ s, exec i s = request tag kind (work m n) s) : Carries i tag kind body := by
  obtain ⟨x, y, first, second, rfl⟩ := inOrder_two bytes
  obtain ⟨small, rfl⟩ := inByte_eq_some_iff.1 first
  obtain ⟨fits, rfl⟩ := inWord_eq_some_iff.1 second
  refine ⟨work m n, (reads _ _ _).trans ?_, runs⟩
  rw [toNat_byteOf small, leNat_u16 (by omega)]

/-- A byte and a code that the command fixes. -/
theorem carries_byteCode {i : Instr} {tag : Byte} {kind : RequestKind} {m : Nat} {code : Byte}
    {body : List Byte} {work : Nat → State → State} (bytes : inOrder [inByte m, some [code]] = some body)
    (reads : ∀ x : Byte, bodyWork kind tag [x, code] = some (work x.toNat))
    (runs : ∀ s, exec i s = request tag kind (work m) s) : Carries i tag kind body := by
  obtain ⟨x, y, first, second, rfl⟩ := inOrder_two bytes
  obtain ⟨small, rfl⟩ := inByte_eq_some_iff.1 first
  obtain rfl := Option.some.inj second
  refine ⟨work m, (reads _).trans ?_, runs⟩
  rw [toNat_byteOf small]

theorem carries_byteFlag {i : Instr} {tag : Byte} {kind : RequestKind} {m : Nat} {o : Option Bool}
    {body : List Byte} {work : Nat → Option Bool → State → State}
    (bytes : inOrder [inByte m, inFlag o] = some body)
    (reads : ∀ x y : Byte, bodyWork kind tag [x, y] = some (work x.toNat (yesNoOf y.toNat)))
    (runs : ∀ s, exec i s = request tag kind (work m o) s) : Carries i tag kind body := by
  obtain ⟨x, y, first, second, rfl⟩ := inOrder_two bytes
  obtain ⟨small, rfl⟩ := inByte_eq_some_iff.1 first
  obtain ⟨flag, rfl, rfl⟩ := inFlag_eq_some_iff.1 second
  refine ⟨work m (some flag), (reads _ _).trans ?_, runs⟩
  rw [toNat_byteOf small, yesNoOf_yesNoByte]

theorem carries_zoneSet {tag : Byte} {z l : Nat} {m : Option Bool} {body : List Byte}
    (bytes : inOrder [inByte z, inByte l, inFlag m] = some body) :
    Carries (.zoneSet tag z l m) tag .zoneSet body := by
  obtain ⟨x, tail1, first, more, rfl⟩ := inOrder_more bytes
  obtain ⟨y, w, second, third, rfl⟩ := inOrder_two more
  obtain ⟨small, rfl⟩ := inByte_eq_some_iff.1 first
  obtain ⟨small', rfl⟩ := inByte_eq_some_iff.1 second
  obtain ⟨flag, rfl, rfl⟩ := inFlag_eq_some_iff.1 third
  have reads : ∀ x y w : Byte, bodyWork .zoneSet tag [x, y, w]
      = some (workZoneSet tag x.toNat y.toNat (yesNoOf w.toNat)) := fun _ _ _ => rfl
  refine ⟨workZoneSet tag z l (some flag), (reads _ _ _).trans ?_, fun _ => rfl⟩
  rw [toNat_byteOf small, toNat_byteOf small', yesNoOf_yesNoByte]

theorem carries_pollSet {tag : Byte} {w : Word16} {g : Nat} {body : List Byte}
    (bytes : inOrder [inWord w.toNat, inByte g] = some body) :
    Carries (.pollSet tag w g) tag .pollSet body := by
  obtain ⟨x, y, first, second, rfl⟩ := inOrder_two bytes
  obtain ⟨-, rfl⟩ := inWord_eq_some_iff.1 first
  obtain ⟨small, rfl⟩ := inByte_eq_some_iff.1 second
  have reads : ∀ x y z : Byte, bodyWork .pollSet tag [x, y, z]
      = some (workPollSet tag (BitVec.ofNat 16 (leNat [x, y])) z.toNat) := fun _ _ _ => rfl
  refine ⟨workPollSet tag w g, (reads _ _ _).trans ?_, fun _ => rfl⟩
  rw [toNat_byteOf small, word_u16]

theorem carries_ampWrite {tag : Byte} {m n : Nat} {w : Word16} {body : List Byte}
    (bytes : inOrder [inByte m, inByte n, inWord w.toNat] = some body) :
    Carries (.ampWrite tag m n w) tag .ampWrite body := by
  obtain ⟨x, tail1, first, more, rfl⟩ := inOrder_more bytes
  obtain ⟨y, z, second, third, rfl⟩ := inOrder_two more
  obtain ⟨small, rfl⟩ := inByte_eq_some_iff.1 first
  obtain ⟨small', rfl⟩ := inByte_eq_some_iff.1 second
  obtain ⟨-, rfl⟩ := inWord_eq_some_iff.1 third
  have reads : ∀ x y z u : Byte, bodyWork .ampWrite tag [x, y, z, u]
      = some (workAmpWrite tag x.toNat y.toNat (BitVec.ofNat 16 (leNat [z, u]))) := fun _ _ _ _ => rfl
  refine ⟨workAmpWrite tag m n w, (reads _ _ _ _).trans ?_, fun _ => rfl⟩
  rw [toNat_byteOf small, toNat_byteOf small', word_u16]

theorem carries_admitOpen {tag : Byte} {a n : Nat} {m : Option Bool} {body : List Byte}
    (bytes : inOrder [inByte a, inWord n, inFlag m] = some body) :
    Carries (.admitOpen tag a n m) tag .admitOpen body := by
  obtain ⟨x, tail1, first, more, rfl⟩ := inOrder_more bytes
  obtain ⟨y, w, second, third, rfl⟩ := inOrder_two more
  obtain ⟨small, rfl⟩ := inByte_eq_some_iff.1 first
  obtain ⟨fits, rfl⟩ := inWord_eq_some_iff.1 second
  obtain ⟨flag, rfl, rfl⟩ := inFlag_eq_some_iff.1 third
  have reads : ∀ x y z u : Byte, bodyWork .admitOpen tag [x, y, z, u]
      = some (workAdmitOpen tag x.toNat (leNat [y, z]) (yesNoOf u.toNat)) := fun _ _ _ _ => rfl
  refine ⟨workAdmitOpen tag a n (some flag), (reads _ _ _ _).trans ?_, fun _ => rfl⟩
  rw [toNat_byteOf small, leNat_u16 (by omega), yesNoOf_yesNoByte]

theorem carries_modeStanding {tag : Byte} {d i n : Nat} {body : List Byte}
    (bytes : inOrder [inByte d, some [0x01], inByte i, inWord n] = some body) :
    Carries (.channelModeStanding tag d i n) tag .channelMode body := by
  obtain ⟨x, tail1, first, more, rfl⟩ := inOrder_more bytes
  obtain ⟨c, tail2, code, others, rfl⟩ := inOrder_more more
  obtain ⟨y, w, second, third, rfl⟩ := inOrder_two others
  obtain ⟨small, rfl⟩ := inByte_eq_some_iff.1 first
  obtain rfl := Option.some.inj code
  obtain ⟨small', rfl⟩ := inByte_eq_some_iff.1 second
  obtain ⟨fits, rfl⟩ := inWord_eq_some_iff.1 third
  have reads : ∀ x y z u : Byte, bodyWork .channelMode tag [x, 0x01, y, z, u]
      = some (workModeStanding tag x.toNat y.toNat (leNat [z, u])) := fun _ _ _ _ => rfl
  refine ⟨workModeStanding tag d i n, (reads _ _ _ _).trans ?_, fun _ => rfl⟩
  rw [toNat_byteOf small, toNat_byteOf small', leNat_u16 (by omega)]

/-- The byte of a start condition. -/
def conditionByte : StartCondition → Byte
  | .atCue => 0x00
  | .gap => 0x01

theorem leNat_u32 {n : Nat} (fits : n < 4294967296) :
    leNat [byteOf n, byteOf (n / 256), byteOf (n / 65536), byteOf (n / 16777216)] = n := by
  have parts := leNat_leBytes (k := 4) (n := n) (by omega)
  rwa [leBytes, leBytes, leBytes, leBytes, leBytes, Nat.div_div_eq_div_mul, Nat.div_div_eq_div_mul] at parts

theorem carries_clipArm {tag : Byte} {d i n t : Nat} {c : StartCondition} {body : List Byte}
    (bytes : inOrder [inByte d, inByte i, inWord n, some [conditionByte c], inFour t] = some body) :
    Carries (.clipArm tag d i n (some c) t) tag .clipArm body := by
  obtain ⟨x, tail1, first, more, rfl⟩ := inOrder_more bytes
  obtain ⟨y, tail2, second, others, rfl⟩ := inOrder_more more
  obtain ⟨z, tail3, third, rest, rfl⟩ := inOrder_more others
  obtain ⟨u, w, code, last, rfl⟩ := inOrder_two rest
  obtain ⟨small, rfl⟩ := inByte_eq_some_iff.1 first
  obtain ⟨small', rfl⟩ := inByte_eq_some_iff.1 second
  obtain ⟨fits, rfl⟩ := inWord_eq_some_iff.1 third
  obtain rfl := Option.some.inj code
  obtain ⟨fits', rfl⟩ := inFour_eq_some_iff.1 last
  have reads : ∀ x y z u v w p q : Byte, bodyWork .clipArm tag [x, y, z, u, conditionByte c, v, w, p, q]
      = some (workClipArm tag x.toNat y.toNat (leNat [z, u]) (some c) (leNat [v, w, p, q])) := by
    intro x y z u v w p q
    cases c <;> rfl
  refine ⟨workClipArm tag d i n (some c) t, (reads ..).trans ?_, fun _ => rfl⟩
  rw [toNat_byteOf small, toNat_byteOf small', leNat_u16 (by omega), leNat_u32 fits']

/-- The samples of a block, from the bytes after three others. -/
theorem block_ofFn (x y z : Byte) (b : Block) :
    Vector.ofFn (fun i : Fin 128 => ([x, y, z] ++ b.toList).getD (3 + i.val) 0) = b := by
  refine Vector.ext (fun i inside => ?_)
  have place : 3 + i - [x, y, z].length = i := Nat.add_sub_cancel_left 3 i
  rw [Vector.getElem_ofFn, List.getD_append_right _ _ _ _ (Nat.le_add_right 3 i), place,
    List.getD_eq_getElem _ _ (by simpa using inside), Vector.getElem_toList]

theorem carries_feed {tag : Byte} {i o f : Nat} {b : Block} {body : List Byte}
    (bytes : inOrder [inByte i, inByte o, inByte f, some b.toList] = some body) :
    Carries (.feed tag i o f b) tag .feed body := by
  obtain ⟨x, tail1, first, more, rfl⟩ := inOrder_more bytes
  obtain ⟨y, tail2, second, others, rfl⟩ := inOrder_more more
  obtain ⟨z, w, third, last, rfl⟩ := inOrder_two others
  obtain ⟨small, rfl⟩ := inByte_eq_some_iff.1 first
  obtain ⟨small', rfl⟩ := inByte_eq_some_iff.1 second
  obtain ⟨small'', rfl⟩ := inByte_eq_some_iff.1 third
  obtain rfl := Option.some.inj last
  have reads : ∀ x y z : Byte, bodyWork .feed tag ([x, y, z] ++ b.toList)
      = some (workFeed tag x.toNat y.toNat z.toNat b) := by
    intro x y z
    have long : ([x, y, z] ++ b.toList).length = 131 := by simp
    have work : bodyWork .feed tag ([x, y, z] ++ b.toList)
        = if ([x, y, z] ++ b.toList).length = 131 then
            some (workFeed tag x.toNat y.toNat z.toNat
              (Vector.ofFn (fun i : Fin 128 => ([x, y, z] ++ b.toList).getD (3 + i.val) 0)))
          else none := rfl
    rw [work, if_pos long, block_ofFn]
  refine ⟨workFeed tag i o f b, (reads ..).trans ?_, fun _ => rfl⟩
  rw [toNat_byteOf small, toNat_byteOf small', toNat_byteOf small'']

/-- R168, spec/09 section 9.4: the frame that spells a request carries the request's work. -/
theorem carries_of_bodyOf {i : Instr} {tag : Byte} {kind : RequestKind} {body : List Byte}
    (request : requestOf i = some (tag, kind)) (bytes : bodyOf i = some body) :
    Carries i tag kind body := by
  cases i with
  | ident t =>
    cases request
    exact carries_noField (work := workIdent tag) bytes rfl (fun _ => rfl)
  | reset t =>
    cases request
    exact carries_noField (work := workReset tag) bytes rfl (fun _ => rfl)
  | noticeResume t =>
    cases request
    exact carries_noField (work := workNoticeResume tag) bytes rfl (fun _ => rfl)
  | settingsSave t =>
    cases request
    exact carries_noField (work := workSettingsSave tag) bytes rfl (fun _ => rfl)
  | settingsLoad t =>
    cases request
    exact carries_noField (work := workSettingsLoad tag) bytes rfl (fun _ => rfl)
  | streamStatus t =>
    cases request
    exact carries_noField (work := workStreamStatus tag) bytes rfl (fun _ => rfl)
  | callFinished t =>
    cases request
    exact carries_noField (work := workCallFinished tag) bytes rfl (fun _ => rfl)
  | noticeEnable t w =>
    cases request
    exact carries_word (work := workNoticeEnable tag) bytes (fun _ _ => rfl) (fun _ => rfl)
  | noticeClear t w =>
    cases request
    exact carries_word (work := workNoticeClear tag) bytes (fun _ _ => rfl) (fun _ => rfl)
  | configRead t n =>
    cases request
    exact carries_oneByte (work := workConfigRead tag) bytes (fun _ => rfl) (fun _ => rfl)
  | zoneStatus t n =>
    cases request
    exact carries_oneByte (work := workZoneStatus tag) bytes (fun _ => rfl) (fun _ => rfl)
  | moduleStatus t n =>
    cases request
    exact carries_oneByte (work := workModuleStatus tag) bytes (fun _ => rfl) (fun _ => rfl)
  | moduleClear t n =>
    cases request
    exact carries_oneByte (work := workModuleClear tag) bytes (fun _ => rfl) (fun _ => rfl)
  | moduleRestore t n =>
    cases request
    exact carries_oneByte (work := workModuleRestore tag) bytes (fun _ => rfl) (fun _ => rfl)
  | cueGo t n =>
    cases request
    exact carries_oneByte (work := workCueGo tag) bytes (fun _ => rfl) (fun _ => rfl)
  | cueStatus t n =>
    cases request
    exact carries_oneByte (work := workCueStatus tag) bytes (fun _ => rfl) (fun _ => rfl)
  | captureRead t n =>
    cases request
    exact carries_oneByte (work := workCaptureRead tag) bytes (fun _ => rfl) (fun _ => rfl)
  | gapStatus t n =>
    cases request
    exact carries_oneByte (work := workGapStatus tag) bytes (fun _ => rfl) (fun _ => rfl)
  | clipStart t n =>
    cases request
    exact carries_oneByte (work := workClipStart tag) bytes (fun _ => rfl) (fun _ => rfl)
  | clipStop t n =>
    cases request
    exact carries_oneByte (work := workClipStop tag) bytes (fun _ => rfl) (fun _ => rfl)
  | channelStatus t n =>
    cases request
    exact carries_oneByte (work := workChannelStatus tag) bytes (fun _ => rfl) (fun _ => rfl)
  | callRelease t n =>
    cases request
    exact carries_oneByte (work := workCallRelease tag) bytes (fun _ => rfl) (fun _ => rfl)
  | callEnd t n =>
    cases request
    exact carries_oneByte (work := workCallEnd tag) bytes (fun _ => rfl) (fun _ => rfl)
  | callCancel t n =>
    cases request
    exact carries_oneByte (work := workCallCancel tag) bytes (fun _ => rfl) (fun _ => rfl)
  | callStatus t n =>
    cases request
    exact carries_oneByte (work := workCallStatus tag) bytes (fun _ => rfl) (fun _ => rfl)
  | houseOpen t n =>
    cases request
    exact carries_oneByte (work := workHouseOpen tag) bytes (fun _ => rfl) (fun _ => rfl)
  | admitClose t n =>
    cases request
    exact carries_oneByte (work := workAdmitClose tag) bytes (fun _ => rfl) (fun _ => rfl)
  | entranceStatus t n =>
    cases request
    exact carries_oneByte (work := workEntranceStatus tag) bytes (fun _ => rfl) (fun _ => rfl)
  | entranceClear t n =>
    cases request
    exact carries_oneByte (work := workEntranceClear tag) bytes (fun _ => rfl) (fun _ => rfl)
  | silenceSet t n =>
    cases request
    exact carries_oneByte (work := workSilenceSet tag) bytes (fun _ => rfl) (fun _ => rfl)
  | modeConfig t =>
    cases request
    cases bytes
    exact ⟨workModeConfig tag, rfl, fun _ => rfl⟩
  | modeRun t =>
    cases request
    cases bytes
    exact ⟨workModeRun tag, rfl, fun _ => rfl⟩
  | zoneSet t z l m =>
    cases request
    exact carries_zoneSet bytes
  | testToneStart t z =>
    cases request
    exact carries_byteCode (work := workTestStart tag) bytes (fun _ => rfl) (fun _ => rfl)
  | testToneStop t z =>
    cases request
    exact carries_byteCode (work := workTestStop tag) bytes (fun _ => rfl) (fun _ => rfl)
  | pollSet t w g =>
    cases request
    exact carries_pollSet bytes
  | ampRead t m n =>
    cases request
    exact carries_twoBytes (work := workAmpRead tag) bytes (fun _ _ => rfl) (fun _ => rfl)
  | clipDisarm t m n =>
    cases request
    exact carries_twoBytes (work := workClipDisarm tag) bytes (fun _ _ => rfl) (fun _ => rfl)
  | ampWrite t m n w =>
    cases request
    exact carries_ampWrite bytes
  | cueSet t a n =>
    cases request
    exact carries_byteWord (work := workCueSet tag) bytes (fun _ _ _ => rfl) (fun _ => rfl)
  | cueErase t a n =>
    cases request
    exact carries_byteWord (work := workCueErase tag) bytes (fun _ _ _ => rfl) (fun _ => rfl)
  | cueRead t a n =>
    cases request
    exact carries_byteWord (work := workCueRead tag) bytes (fun _ _ _ => rfl) (fun _ => rfl)
  | feed t i o f b =>
    cases request
    exact carries_feed bytes
  | clipArm t d i n c last =>
    cases request
    cases c with
    | none => exact nomatch bytes
    | some c => exact carries_clipArm (c := c) (by cases c <;> exact bytes)
  | channelModeScripted t d =>
    cases request
    exact carries_byteCode (work := workModeScripted tag) bytes (fun _ => rfl) (fun _ => rfl)
  | channelModeStanding t d i n =>
    cases request
    exact carries_modeStanding bytes
  | houseClose t a f =>
    cases request
    exact carries_byteFlag (work := workHouseClose tag) bytes (fun _ _ => rfl) (fun _ => rfl)
  | admitOpen t a n m =>
    cases request
    exact carries_admitOpen bytes
  | configWrite t n r => exact nomatch bytes
  | cueWrite t a n l => exact nomatch bytes
  | callPost t f => exact nomatch bytes
  | _ => exact nomatch request

end Sys2Proof.Proofs.Bodies
end

section
/-! PROOFS. The frames the receiver takes, and what it does with bytes that are none (R166, R167, R168). -/

namespace Sys2Proof.Proofs.Frames

open Sys2Proof Sys2Proof.Machine Sys2Proof.Laws Sys2Proof.Proofs.Images Sys2Proof.Proofs.Cues
  Sys2Proof.Proofs.Link Sys2Proof.Proofs.Receiver Sys2Proof.Proofs.Bodies

/-! ## The lengths of BODYs (spec/09 section 9.4) -/

theorem ofLength_wrong {n : Nat} {b : List Byte} (wrong : b.length ≠ n) (work : State → State) :
    ofLength n b work = none := if_neg wrong

theorem length_of_ofLength {n : Nat} {b : List Byte} {work w : State → State}
    (h : ofLength n b work = some w) : b.length = n := by
  by_contra wrong
  rw [ofLength_wrong wrong] at h
  cases h

/-- A BODY of a wrong length asks for nothing. -/
theorem bodyWork_wrong {kind : RequestKind} {n : Nat} {b : List Byte} (tag : Byte)
    (only : onlyLength kind = some n) (wrong : b.length ≠ n) : bodyWork kind tag b = none := by
  cases kind with
  | configWrite => exact nomatch only
  | cueWrite => exact nomatch only
  | channelMode => exact nomatch only
  | callPost => exact nomatch only
  | _ =>
    cases only
    exact ofLength_wrong wrong _

theorem onlyLength_fits {kind : RequestKind} {n : Nat} (only : onlyLength kind = some n) : n ≤ 249 := by
  cases kind <;> cases only <;> decide

theorem configBody_fits {tag : Byte} {b : List Byte} {w : State → State}
    (h : configBody tag b = some w) : b.length ≤ 249 := by
  unfold configBody at h
  split at h
  · cases h
  next i fields =>
    rw [List.length_cons]
    split at h
    next n long =>
      have count := length_of_ofLength h
      have small : n ≤ 13 := by
        unfold recordLength at long
        split_ifs at long <;> cases long <;> decide
      omega
    next =>
      split at h
      next listed =>
        have small : fields.length ≤ 13 := by
          simp only [List.contains_eq_mem, List.mem_cons, List.not_mem_nil, or_false, decide_eq_true_eq] at listed
          omega
        omega
      next => cases h

theorem cueWriteBody_fits {tag : Byte} {b : List Byte} {w : State → State}
    (h : cueWriteBody tag b = some w) : b.length ≤ 249 := by
  unfold cueWriteBody at h
  split at h
  next => cases h
  next listed =>
    have small : b.length - 4 ≤ 16 := by
      simp only [listLengths, List.contains_eq_mem, List.mem_cons, List.not_mem_nil, or_false, Bool.not_eq_true',
        decide_eq_false_iff_not, not_not] at listed
      omega
    omega

theorem channelModeBody_fits {tag : Byte} {b : List Byte} {w : State → State}
    (h : channelModeBody tag b = some w) : b.length ≤ 249 := by
  unfold channelModeBody at h
  split at h
  next long => omega
  next long => omega
  next => cases h
  next => cases h
  next long _ _ => omega
  next long _ _ => omega
  next => cases h

theorem callPostBody_fits {tag : Byte} {b : List Byte} {w : State → State}
    (h : callPostBody tag b = some w) : b.length ≤ 249 := by
  unfold callPostBody at h
  split at h
  next m long =>
    have count := length_of_ofLength h
    have small : m ≤ 2 := by
      unfold messageLength at long
      split at long <;> cases long <;> decide
    omega
  next =>
    split at h
    next inside =>
      have := between_iff.1 inside
      omega
    next => cases h

/-- A BODY that asks for work fits in a frame. -/
theorem bodyWork_fits {kind : RequestKind} {tag : Byte} {b : List Byte} {w : State → State}
    (h : bodyWork kind tag b = some w) : b.length ≤ 249 := by
  cases only : onlyLength kind with
  | some n =>
    have long : b.length = n := by
      by_contra wrong
      rw [bodyWork_wrong tag only wrong] at h
      cases h
    exact long ▸ onlyLength_fits only
  | none =>
    cases kind with
    | configWrite => exact configBody_fits (tag := tag) h
    | cueWrite => exact cueWriteBody_fits (tag := tag) h
    | channelMode => exact channelModeBody_fits (tag := tag) h
    | callPost => exact callPostBody_fits (tag := tag) h
    | _ => exact nomatch only

/-! ## Acceptance (R168) -/

theorem kindOf_code (kind : RequestKind) : kindOf kind.code = some kind := by cases kind <;> rfl

theorem takeFrame_frameBytes (tag kind : Byte) {body : List Byte} (short : body.length ≤ 249) (s : State) :
    takeFrame (frameBytes tag kind body) s
      = if s.svc.link.accepting then acceptFrame tag kind body (validFrame s) else validFrame s := by
  have length : byteAt (frameBytes tag kind body) 1 = body.length + 2 := lenByte short
  have fields : (frameBytes tag kind body).drop 4
      = body ++ leBytes 2 (crc16 (coveredBytes tag kind body)).toNat := rfl
  unfold takeFrame
  dsimp only
  rw [length, fields, Nat.add_sub_cancel, List.take_left]
  rfl

theorem takeFrame_refused {s : State} (on : s.svc.link.accepting = true) {tag kind : Byte} {body : List Byte}
    (short : body.length ≤ 249) {reply : Byte} {bytes : List Byte}
    (refused : acceptFrame tag kind body (validFrame s) = sendImmediate tag reply bytes (validFrame s)) :
    keeping [] (takeFrame (frameBytes tag kind body) s) = refusedFrame tag reply bytes s := by
  rw [takeFrame_frameBytes tag kind short, if_pos on, refused, validFrame_eq, sendImmediate_eq]
  rfl

theorem acceptFrame_unknown {kind : Byte} (unknown : kindOf kind = none) (tag : Byte) (body : List Byte)
    (s : State) : acceptFrame tag kind body s = sendImmediate tag 0xFF [0x02, kind] s := by
  unfold acceptFrame
  rw [unknown]
  rfl

theorem acceptFrame_wrongLength {kind : RequestKind} {n : Nat} {body : List Byte} (tag : Byte)
    (only : onlyLength kind = some n) (wrong : body.length ≠ n) (s : State) :
    acceptFrame tag kind.code body s = sendImmediate tag (kind.code + 0x80) [0x03] s := by
  unfold acceptFrame
  rw [kindOf_code]
  dsimp only
  rw [bodyWork_wrong tag only wrong]
  rfl

/-- R168: the frame that spells a request does what the request does. -/
theorem exec_eq_takeFrame {i : Instr} {tag : Byte} {kind : RequestKind} {body : List Byte} {s : State}
    (up : s.control.holding = false) (carries : Carries i tag kind body) :
    exec i s = .next (takeFrame (frameBytes tag kind.code body) s) := by
  obtain ⟨work, asks, runs⟩ := carries
  rw [runs, takeFrame_frameBytes tag _ (bodyWork_fits asks)]
  unfold request acceptFrame
  rw [kindOf_code, up]
  dsimp only
  rw [asks]
  rfl

theorem carries_fits {i : Instr} {tag : Byte} {kind : RequestKind} {body : List Byte}
    (h : Carries i tag kind body) : body.length ≤ 249 := by
  obtain ⟨_, asks, -⟩ := h
  exact bodyWork_fits asks

theorem refusedFrame_settled {s : State} (still : Still s) (tag kind : Byte) (body : List Byte) :
    (refusedFrame tag kind body s).settled = refusedFrame tag kind body s :=
  settled_rest _ still.reports still.walk

/-! ## One byte (R166) -/

section byte

variable {s : State} (still : Still s)
include still

theorem exec_byte_keeps {b : Byte} {left : List KeptByte}
    (h : examineAll (s.svc.link.buffer ++ [{ byte := b, age := 0 }]) s = keeping left s) :
    exec (.linkByteReceived b false) s = .next (keeping left s) := by
  rw [exec_byte still h, keeping_settled still]

theorem exec_byte_hunt {b : Byte} (none_ : s.svc.link.buffer = []) (other : b ≠ 0xE7) :
    exec (.linkByteReceived b false) s = .next s := by
  have dropped := exec_byte_keeps still (b := b) (left := []) (by
    rw [none_]
    exact examineAll_underWay (gone := [{ byte := b, age := 0 }])
      (List.forall_mem_singleton.2 other) (left := []) trivial s)
  rw [dropped, keeping_same none_]

theorem exec_byte_start (none_ : s.svc.link.buffer = []) :
    exec (.linkByteReceived 0xE7 false) s = .next (keeping [{ byte := 0xE7, age := 0 }] s) :=
  exec_byte_keeps still (by
    rw [none_]
    exact hunt_underWay [{ byte := 0xE7, age := 0 }] ⟨rfl, by decide⟩ s)

theorem exec_byte_length {b : Byte} {k : KeptByte} (kept : s.svc.link.buffer = [k]) (start : k.byte = 0xE7)
    (young : k.age < 20) : exec (.linkByteReceived b false) s = .next
      (keeping (if 2 ≤ b.toNat ∧ b.toNat ≤ 251 then [k, { byte := b, age := 0 }] else []) s) := by
  refine exec_byte_keeps still ?_
  rw [kept]
  split
  next inside =>
    exact hunt_underWay [k, { byte := b, age := 0 }] ⟨start, young, inside.1, inside.2, by
      rw [List.length_nil]
      omega⟩ s
  next outside =>
    have other : b ≠ 0xE7 := fun same => outside (by rw [same]; decide)
    exact (hunt_dropped (examine_badLength start outside) 1 s).trans
      (hunt_dropped (examine_drop other []) 0 s)

theorem exec_byte_collect {b : Byte} {k len : KeptByte} {more : List KeptByte}
    (kept : s.svc.link.buffer = k :: len :: more) (start : k.byte = 0xE7) (young : k.age < 20)
    (low : 2 ≤ len.byte.toNat) (high : len.byte.toNat ≤ 251)
    (short : more.length + 3 < len.byte.toNat + 4) :
    exec (.linkByteReceived b false) s
      = .next (keeping (s.svc.link.buffer ++ [{ byte := b, age := 0 }]) s) := by
  refine exec_byte_keeps still (hunt_underWay _ ?_ s)
  rw [kept]
  have count : (more ++ [({ byte := b, age := 0 } : KeptByte)]).length + 2 < len.byte.toNat + 4 := by
    rw [List.length_append, List.length_singleton]
    omega
  exact ⟨start, young, low, high, count⟩

theorem exec_byte_badCrc {b : Byte} {k len : KeptByte} {gone left more : List KeptByte}
    (none_ : ∀ x ∈ gone, x.byte ≠ 0xE7) (underWay : UnderWay left)
    (kept : s.svc.link.buffer ++ [{ byte := b, age := 0 }] = k :: (gone ++ left))
    (rest : gone ++ left = len :: more) (start : k.byte = 0xE7) (low : 2 ≤ len.byte.toNat)
    (high : len.byte.toNat ≤ 251) (all : more.length + 2 = len.byte.toNat + 4)
    (wrong : crcRight ((k :: (gone ++ left)).map (·.byte)) = false) :
    exec (.linkByteReceived b false) s = .next (keeping left s) := by
  refine exec_byte_keeps still ?_
  have dropped : examine k (gone ++ left) = .drop := by
    rw [rest] at wrong ⊢
    rw [examine_whole start low high all, wrong]
    rfl
  rw [kept]
  exact (hunt_dropped dropped _ s).trans (examineAll_underWay none_ underWay s)

theorem exec_byte_frame {b : Byte} {tag kind : Byte} {body : List Byte} (short : body.length ≤ 249)
    (last : s.svc.link.buffer.map (·.byte) ++ [b] = frameBytes tag kind body) :
    exec (.linkByteReceived b false) s
      = .next (keeping [] (takeFrame (frameBytes tag kind body) s)).settled := by
  refine exec_byte still (hunt_frame short ?_ s)
  rw [List.map_append]
  exact last

end byte

/-! ## The other commands of the receiver -/

section dropped

variable {s : State} (still : Still s) {k : KeptByte} {gone left : List KeptByte}
  (none_ : ∀ x ∈ gone, x.byte ≠ 0xE7) (kept : s.svc.link.buffer = k :: (gone ++ left))
include still none_ kept

theorem exec_framingError_drops (underWay : UnderWay left) (b : Byte) :
    exec (.linkByteReceived b true) s = .next (keeping left s) := by
  rw [exec_framingError still (u := keeping left s) (by
    rw [kept]
    exact examineAll_underWay none_ underWay s), keeping_settled still]

theorem exec_frameTimeout_drops (underWay : UnderWay left) :
    exec .frameTimeout s = .next (keeping left s) := by
  rw [exec_frameTimeout still (u := keeping left s) (by rw [kept]; exact List.cons_ne_nil _ _) (by
    rw [kept]
    exact examineAll_underWay none_ underWay s), keeping_settled still]

theorem exec_frameTimeout_frame {tag kind : Byte} {body : List Byte} (short : body.length ≤ 249)
    (bytes : left.map (·.byte) = frameBytes tag kind body) :
    exec .frameTimeout s = .next (keeping [] (takeFrame (frameBytes tag kind body) s)).settled :=
  exec_frameTimeout still (by rw [kept]; exact List.cons_ne_nil _ _) (by
    rw [kept]
    exact examineAll_frame none_ short bytes s)

end dropped

theorem exec_framingError_hunt {s : State} (still : Still s) (none_ : s.svc.link.buffer = []) (b : Byte) :
    exec (.linkByteReceived b true) s = .next s := by
  rw [exec_framingError still (u := keeping [] s) (by rw [none_]; rfl), keeping_settled still,
    keeping_same none_]

/-- Settles O7, from what the receiver finds at the front of the bytes it keeps. -/
theorem receiverTakesBytes : Obligations.ReceiverTakesBytes := by
  refine ⟨fun b s still => ⟨fun none_ => exec_byte_hunt still none_,
      fun none_ => exec_framingError_hunt still none_ b, fun none_ => exec_byte_start still none_,
      fun k kept start young => exec_byte_length still kept start young,
      fun k len more kept start young low high short =>
        exec_byte_collect still kept start young low high short⟩,
    fun k gone left s still none_ underWay =>
      ⟨fun kept => ⟨exec_framingError_drops still none_ kept underWay,
        exec_frameTimeout_drops still none_ kept underWay⟩,
      fun b len more kept rest start low high all wrong =>
        exec_byte_badCrc still none_ underWay kept rest start low high all wrong⟩,
    fun s _ still none_ => exec_frameTimeout_hunt still none_,
    fun tag s still => ⟨fun kind body b short last unknown on => ?_,
      fun kind body b n short last only wrong on => ?_, fun i kind body b request bytes last => ?_,
      fun i kind body k gone found request bytes none_ kept last => ?_⟩,
    fun tag kind body short => ⟨⟨_, _, rfl⟩, crcRight_frameBytes tag kind body⟩,
    fun tag kind b body more k => ⟨rfl, rfl, rfl⟩⟩
  · rw [exec_byte_frame still short last,
      takeFrame_refused on short (acceptFrame_unknown unknown tag body _), refusedFrame_settled still]
  · rw [exec_byte_frame still short last,
      takeFrame_refused on short (acceptFrame_wrongLength tag only wrong _), refusedFrame_settled still]
  · have carries := carries_of_bodyOf request bytes
    exact ⟨_, exec_eq_takeFrame still.up carries, exec_byte_frame still (carries_fits carries) last⟩
  · have carries := carries_of_bodyOf request bytes
    exact ⟨_, exec_eq_takeFrame still.up carries,
      exec_frameTimeout_frame still none_ kept (carries_fits carries) last⟩

end Sys2Proof.Proofs.Frames
end

section
/-! PROOFS. The bytes of the status replies are the fields of their layouts (R23, R46, R59, R63, R66, R67,
R79, R90, R123, R146, R160, R162, R186, R190). -/

namespace Sys2Proof.Proofs.Layouts

open Sys2Proof Sys2Proof.Machine Sys2Proof.Laws Sys2Proof.Proofs.VisitAnswers Sys2Proof.Proofs.ConsoleRows
  Sys2Proof.Proofs.RecordForms

/-! ## The byte forms -/

theorem zoneMask_form (zs : List ZoneId) : ∃ m, zoneMask zs = u32 m
    ∧ ∀ z : ZoneId, m.testBit z.val = true ↔ z ∈ zs := by
  refine ⟨_, rfl, fun z => ?_⟩
  have inside : z.val < 32 := by omega
  rw [testBit_maskOf]
  simp [inside, Fin.val_inj]

theorem moduleMask_form (ms : List ModuleId) : ∃ m, moduleMask ms = u16 m
    ∧ ∀ k : ModuleId, m.testBit (k.val + 1) = true ↔ k ∈ ms := by
  refine ⟨_, rfl, fun k => ?_⟩
  have inside : k.val + 1 < 16 := by omega
  rw [testBit_maskOf]
  simp [inside, Fin.val_inj]

theorem entranceMask_form (es : List EntranceId) : ∃ m, entranceMask es = u16 m
    ∧ ∀ e : EntranceId, m.testBit e.val = true ↔ e ∈ es := by
  refine ⟨_, rfl, fun e => ?_⟩
  have inside : e.val < 16 := by omega
  rw [testBit_maskOf]
  simp [inside, Fin.val_inj]

theorem byteForms : ByteForms where
  numbers n := by
    refine ⟨rfl, rfl, ?_, ?_⟩
    · simp only [leBytes, Nat.div_div_eq_div_mul]
    · simp only [u32, leBytes, Nat.div_div_eq_div_mul]
  words _ := rfl
  signed _ := ⟨rfl, rfl⟩
  flags := ⟨rfl, rfl⟩
  absent _ := rfl
  present _ _ := rfl
  lists _ := rfl
  zones := zoneMask_form
  modules := moduleMask_form
  entrances := entranceMask_form

/-! ## Named values -/

theorem kindCode_place (k : ZoneKind) : u8 (kindCode k)
    = place [.unused, .hallLoop, .foyerLoop, .foyerSpeaker, .lobby, .description] k := by cases k <;> rfl

theorem homeCode_place (h : FoyerHome) : u8 (homeCode h) = place [.aux, .silence] h := by cases h <;> rfl

theorem sensorCode_place (p : SensorPolarity) : u8 (sensorCode p) = place [.openHigh, .openLow] p := by
  cases p <;> rfl

theorem polarityCode_place (p : CuePolarity) : u8 (polarityCode p) = place [.activeLow, .activeHigh] p := by
  cases p <;> rfl

theorem liveCode_place (i : LiveInput) : u8 (liveCode i) = place [.liveA, .liveB] i := by cases i <;> rfl

theorem settingsKindCode_place (k : SettingsKind) :
    u8 (settingsKindCode k) = place [.startLoad, .load, .save] k := by cases k <;> rfl

theorem driveCode_place (d : DriveState) : u8 (driveCode d) = place [.unknown, .good, .degraded, .failed] d := by
  cases d <;> rfl

theorem moduleStateCode_place (m : ModuleState) : u8 (moduleStateCode m)
    = place [.unknown, .absent, .notReady, .good, .warn, .fault] m := by cases m <;> rfl

theorem filterCode_place (f : FilterState) : u8 (filterCode f) = place [.unsettled, .released, .pressed] f := by
  cases f <;> rfl

theorem originCode_fields (o : CueOrigin) : u8 (originCode o) = originFields o := by cases o <;> rfl

theorem gapCode_place (g : GapState) : u8 (gapCode g) = place [.sound, .settling, .quiet] g := by
  cases g <;> rfl

theorem slotStateCode_place (s : SlotState) :
    u8 (slotStateCode s) = place [.idle, .loading, .playing, .starved, .paused] s := by cases s <;> rfl

theorem conditionCode_place (c : StartCondition) : u8 (conditionCode c) = place [.atCue, .gap] c := by
  cases c <;> rfl

theorem clipState_place (c : ClipState) : u8 c.code
    = place [.waitingFill, .waitingGap, .waitingZone, .speaking, .suspended] c := by cases c <;> rfl

theorem clipOutcomeCode_place (o : ClipOutcome) : u8 (clipOutcomeCode o)
    = place [.done, .cut, .stopped, .late, .starved, .resumeLimit, .hostLost, .config] o := by cases o <;> rfl

theorem chimeCode_place (c : Chime) : u8 (chimeCode c) = place [.noChime, .single, .double, .rising3] c := by
  cases c <;> rfl

theorem callState_place (c : CallState) : u8 c.code = place [.parked, .waiting, .playing, .spacing] c := by
  cases c <;> rfl

theorem phaseCode_place (p : CallPhase) : u8 (phaseCode p) = place [.chime, .pause, .message] p := by
  cases p <;> rfl

theorem houseCode_place (h : HouseState) : u8 (houseCode h) = place [.opened, .sealed, .admitting, .closing] h := by
  cases h <;> rfl

theorem running_place (b : Bool) : u8 (if b = true then 0 else 1) = place [true, false] b := by cases b <;> rfl

theorem flag_place (b : Bool) : u8 (if b = true then 1 else 0) = place [false, true] b := by cases b <;> rfl

/-! ## Records (R186, R190) -/

theorem encodeRecord_fields (r : ConfigRecord) : encodeRecord r = recordFields r := by
  cases r with
  | zone c =>
    unfold encodeRecord encodeZone recordFields
    dsimp only
    rw [kindCode_place, homeCode_place]
    rfl
  | entrance c =>
    unfold encodeRecord encodeEntrance recordFields
    dsimp only
    rw [sensorCode_place]
    rfl
  | channel c =>
    unfold encodeRecord encodeChannel recordFields
    dsimp only
    simp only [liveCode_place]
    rfl
  | auditorium c =>
    unfold encodeRecord encodeAuditorium recordFields
    dsimp only
    rw [polarityCode_place]
  | supervision c => rfl
  | link c => rfl

theorem encodeResult_fields (r : ResultRecord) : encodeResult r = resultFields r := by
  unfold encodeResult resultFields
  simp only [settingsKindCode_place]
  cases r.result with
  | none => rfl
  | some x => cases x <;> rfl

/-! ## Zones (R23) -/

theorem encodeClaim_fields (c : Claim) : encodeClaim c = claimBytes c := by
  unfold encodeClaim claimBytes
  cases c.who with
  | test src => cases src <;> exact List.append_assoc _ _ _
  | _ => exact List.append_assoc _ _ _

theorem zoneStatusItem_fields (s : State) (z : ZoneId) : zoneStatusItem s.env s.svc z = zoneFields s z := by
  have claims : encodeClaim = claimBytes := funext encodeClaim_fields
  have record := encodeRecord_fields (.zone (look s.control.cfg.zones z))
  unfold zoneStatusItem zoneFields effectiveAttenuation
  dsimp only
  rw [← record, claims, driveCode_place]
  rfl

/-! ## Modules (R46) -/

theorem protective_place (v : Bool) : u16 (if v = true then 1 else 0) = u16 v.toNat := by cases v <;> rfl

theorem moduleStatusItem_fields (s : State) (m : ModuleId) :
    moduleStatusItem s.control.cfg s.sup m = moduleFields s m := by
  unfold moduleStatusItem moduleFields
  dsimp only
  rw [moduleStateCode_place, latchBits_eq, wordFaultBits_eq, loopZoneOf_eq]
  simp only [protective_place]
  cases (look s.sup.modules m).outputEnabled with
  | none => rfl
  | some b => cases b <;> rfl

theorem pollStatusItem_fields (s : State) : pollStatusItem s.control.cfg s.sup = pollFields s := by
  unfold pollStatusItem pollFields
  cases s.sup.poll <;> rfl

/-! ## Cues and gaps (R59, R63, R66, R67, R79) -/

theorem encodeAction_fields (a : CueAction) : encodeAction a = actionFields a := by cases a <;> rfl

theorem encodeOutcome_fields (st : Status) : encodeOutcome st = [if st = .ok then 0x00 else 0x01, st.code] := rfl

theorem encodeFire_fields (f : FireRecord) : encodeFire f = fireFields f := by
  unfold encodeFire fireFields
  rw [originCode_fields]
  simp only [encodeAction_fields, encodeOutcome_fields]

theorem cueStatusBytes_fields (s : State) (a : Aud) :
    cueStatusBytes (s.control.cfg.auditoria.get a) (s.cue.get a) = cueFields s a := by
  have fires : encodeFire = fireFields := funext encodeFire_fields
  unfold cueStatusBytes cueFields nextEntry
  dsimp only
  rw [fires, filterCode_place, running_place, Option.map_map]
  rfl

theorem captureBytes_fields (s : State) (a : Aud) : captureBytes (s.cue.get a) = captureFields s a := by
  unfold captureBytes captureFields
  simp only [originCode_fields]

theorem cueReadBytes_fields (e : CueEntry) (entries : Nat) : cueReadBytes e entries = entryFields e entries := by
  have actions : encodeAction = actionFields := funext encodeAction_fields
  unfold cueReadBytes entryFields
  rw [actions]

theorem gapStatusBytes_fields (s : State) (a : Aud) :
    gapStatusBytes (s.control.cfg.auditoria.get a) (s.quiet.get a) = gapFields s a := by
  unfold gapStatusBytes gapFields
  dsimp only
  rw [gapCode_place]
  rfl

/-! ## Streams and channels (R90, R123) -/

theorem wants_eq (sl : Slot) : sl.wants = ([SlotState.loading, .playing, .starved].contains sl.state
    && decide (0 < sl.toReceive) && decide (sl.held.length < 64)) := by
  unfold Slot.wants lowWater
  cases sl.state <;> rfl

theorem slotStatusItem_fields (s : State) (i : SlotId) : slotStatusItem s.svc i = slotFields s i := by
  unfold slotStatusItem slotFields roomNow
  dsimp only
  rw [slotStateCode_place, wants_eq]
  simp only [Slot.unfilled, Slot.wantAmount, Slot.guarantee, Slot.prefill, slotLimit, decide_eq_true_eq]

theorem encodeClip_fields (d : ClipDesc) : encodeClip d = clipFields d := by
  unfold encodeClip clipFields
  rw [conditionCode_place]

/-- R123: the clips of a channel's queue, the head with its slot. -/
def queueFields (c : Channel) : List (List Byte) :=
  match c.queue with
  | [] => []
  | q :: rest =>
    (clipFields q ++ (mayBe 1 (c.headSlot.map (fun i => u8 i.val)) ++ yesNo c.headFilled))
      :: rest.map clipFields

theorem encodeQueue_fields (c : Channel) : encodeQueue c = counted (queueFields c) := by
  have clips : encodeClip = clipFields := funext encodeClip_fields
  unfold encodeQueue queueFields slotField
  cases c.queue with
  | nil => rfl
  | cons q rest =>
    dsimp only
    rw [clips, List.append_assoc]

theorem channelStatusItem_fields (s : State) (d : ChannelId) :
    channelStatusItem s.env s.svc d = channelFields s d := by
  have record := encodeRecord_fields (.channel (look s.control.cfg.channels d))
  unfold channelStatusItem channelFields
  dsimp only
  rw [← record]
  simp only [encodeClip_fields, clipState_place, clipOutcomeCode_place, flag_place]
  rw [encodeQueue_fields]
  cases (look s.svc.channels d).mode <;> cases (look s.svc.channels d).active <;> rfl

/-! ## Calls (R146) -/

theorem callStatusItem_fields (s : State) (k : Call) : callStatusItem s.svc k = callFields s k := by
  unfold callStatusItem callFields encodeCallDesc currentSet stackedSet slotField
  dsimp only
  rw [chimeCode_place, callState_place, flag_place]
  simp only [phaseCode_place]
  cases k.desc.message <;> simp [encodeMessage]

/-! ## Entrances (R160, R162) -/

theorem append_congr {a b c d : List Byte} (first : a = b) (second : c = d) : a ++ c = b ++ d := by
  rw [first, second]

theorem encodeWindow_fields (w : WindowRecord) : encodeWindow w = windowFields w := by
  unfold encodeWindow windowFields
  refine append_congr (append_congr (append_congr (append_congr (append_congr (append_congr (append_congr
    (append_congr (append_congr rfl rfl) ?openedBy) rfl) rfl) rfl) ?reason) ?grace) rfl) ?chimes
  case openedBy => cases w.openedBy <;> rfl
  case reason =>
    cases w.closeReason with
    | none => rfl
    | some r => cases r <;> rfl
  case grace => cases w.grace <;> rfl
  case chimes =>
    refine congrArg (fun f => mayBe 1 (Option.map f w.chimes)) (funext (fun l => congrArg counted ?_))
    refine List.map_congr_left (fun p _ => append_congr rfl ?_)
    cases p.2 <;> rfl

theorem houseStatusItem_fields (s : State) (a : Aud) : houseStatusItem s.env s.svc a = houseFields s a := by
  have windows : encodeWindow = windowFields := funext encodeWindow_fields
  unfold houseStatusItem houseFields
  dsimp only
  rw [houseCode_place, windows]
  rfl

theorem entranceStatusItem_fields (s : State) (e : EntranceId) :
    entranceStatusItem s.env s.svc e = entranceFields s e := by
  unfold entranceStatusItem entranceFields
  refine append_congr (append_congr (append_congr (append_congr ?record ?sensed) ?lamp) ?latch) rfl
  case record => exact encodeRecord_fields (.entrance (look s.control.cfg.entrances e))
  case sensed => cases (look s.svc.entrances e).sensed <;> rfl
  case lamp => cases (look s.svc.entrances e).lamp <;> rfl
  case latch =>
    cases (look s.svc.entrances e).openedWhileSealed <;> cases (look s.svc.entrances e).leftOpen <;> rfl

end Sys2Proof.Proofs.Layouts
end

section
/-! PROOFS. Replies of several frames (R170). -/

namespace Sys2Proof.Proofs.Divided

open Sys2Proof Sys2Proof.Machine Sys2Proof.Laws Sys2Proof.Proofs.Cues

/-! ## The items of each frame -/

/-- The groups so far, the last first, with one more item. -/
def groupInto (groups : List (List (List Byte))) (item : List Byte) : List (List (List Byte)) :=
  match groups with
  | [] => [[item]]
  | g :: rest =>
    if g.flatten.length + item.length ≤ dividedRoom then (g ++ [item]) :: rest else [item] :: g :: rest

theorem map_flatten_groupInto (groups : List (List (List Byte))) (item : List Byte) :
    (groupInto groups item).map List.flatten = packInto (groups.map List.flatten) item := by
  cases groups with
  | nil => simp [groupInto, packInto]
  | cons g rest =>
    unfold groupInto packInto
    simp only [List.map_cons]
    split <;> simp

theorem map_flatten_foldl (items : List (List Byte)) (groups : List (List (List Byte))) :
    (items.foldl groupInto groups).map List.flatten = items.foldl packInto (groups.map List.flatten) := by
  induction items generalizing groups with
  | nil => rfl
  | cons item rest ih => rw [List.foldl_cons, List.foldl_cons, ih, map_flatten_groupInto]

theorem flatten_groupInto (groups : List (List (List Byte))) (item : List Byte) :
    (groupInto groups item).reverse.flatten = groups.reverse.flatten ++ [item] := by
  cases groups with
  | nil => rfl
  | cons g rest =>
    unfold groupInto
    dsimp only
    split <;> simp

theorem flatten_foldl (items : List (List Byte)) (groups : List (List (List Byte))) :
    (items.foldl groupInto groups).reverse.flatten = groups.reverse.flatten ++ items := by
  induction items generalizing groups with
  | nil => simp
  | cons item rest ih => rw [List.foldl_cons, ih, flatten_groupInto, List.append_assoc, List.singleton_append]

/-- R170: a group fits in a frame. -/
def Fits (g : List (List Byte)) : Prop := g.flatten.length ≤ 247

theorem fits_groupInto {groups : List (List (List Byte))} {item : List Byte} (short : item.length ≤ 247)
    (fit : ∀ g ∈ groups, Fits g) : ∀ g ∈ groupInto groups item, Fits g := by
  have single : Fits [item] := by simpa [Fits] using short
  cases groups with
  | nil => simpa [groupInto] using single
  | cons g rest =>
    unfold groupInto
    dsimp only
    split
    next room =>
      have more : Fits (g ++ [item]) := by simpa [Fits, dividedRoom] using room
      exact List.forall_mem_cons.2 ⟨more, (List.forall_mem_cons.1 fit).2⟩
    next => exact List.forall_mem_cons.2 ⟨single, fit⟩

theorem fits_foldl {items : List (List Byte)} (short : ∀ x ∈ items, x.length ≤ 247)
    {groups : List (List (List Byte))} (fit : ∀ g ∈ groups, Fits g) :
    ∀ g ∈ items.foldl groupInto groups, Fits g := by
  induction items generalizing groups with
  | nil => exact fit
  | cons item rest ih =>
    obtain ⟨first, others⟩ := List.forall_mem_cons.1 short
    exact ih others (fits_groupInto first fit)

/-- R170: how the items of a divided reply are grouped. -/
structure Grouped (items : List (List Byte)) (groups : List (List (List Byte))) : Prop where
  some_ : groups ≠ []
  flat : groups.flatten = items
  fits : (∀ x ∈ items, x.length ≤ 247) → ∀ g ∈ groups, Fits g
  packed : packItems items = groups.map List.flatten

theorem packItems_grouped (items : List (List Byte)) : ∃ groups, Grouped items groups := by
  have order := flatten_foldl items []
  have fits (short : ∀ x ∈ items, x.length ≤ 247) : ∀ g ∈ items.foldl groupInto [], Fits g :=
    fits_foldl short (fun _ mem => absurd mem List.not_mem_nil)
  have parts : items.foldl packInto [] = (items.foldl groupInto []).map List.flatten :=
    (map_flatten_foldl items []).symm
  generalize items.foldl groupInto [] = groups at order fits parts
  rw [List.reverse_nil, List.flatten_nil, List.nil_append] at order
  have fits' (short : ∀ x ∈ items, x.length ≤ 247) : ∀ g ∈ groups.reverse, Fits g :=
    fun g mem => fits short g (List.mem_reverse.1 mem)
  have packed : packItems items
      = (if groups.reverse = [] then [[]] else groups.reverse.map List.flatten) := by
    unfold packItems
    rw [parts, ← List.map_reverse]
    cases groups.reverse <;> rfl
  by_cases none_ : groups.reverse = []
  · rw [if_pos none_] at packed
    rw [none_] at order
    refine ⟨[[]], List.cons_ne_nil _ _, order, fun _ => ?_, packed⟩
    exact List.forall_mem_singleton.2 (Nat.zero_le _)
  · rw [if_neg none_] at packed
    exact ⟨groups.reverse, none_, order, fits', packed⟩

/-! ## The frames (R170) -/

theorem dividedBodies_eq (groups : List (List (List Byte))) : dividedBodies (groups.map List.flatten)
    = groups.mapIdx (fun i g => 0x00 :: BitVec.ofNat 8 (groups.length - 1 - i) :: g.flatten) := by
  induction groups with
  | nil => rfl
  | cons g rest ih =>
    rw [List.map_cons, dividedBodies, ih, List.mapIdx_cons, List.length_map]
    have following (i : Nat) : (g :: rest).length - 1 - (i + 1) = rest.length - 1 - i := by
      rw [List.length_cons]
      omega
    simp only [following]
    rfl

theorem answeredInParts_of_divided {tag : Byte} {kind : RequestKind} {s : State} (ready : Ready s)
    {work : State → State} {items : List (List Byte)}
    (reply : work (taken tag kind s) = (taken tag kind s).reply tag kind (.divided items)) :
    AnsweredInParts tag kind items s (request tag kind work s) := by
  obtain ⟨groups, some_, flat, fits, packed⟩ := packItems_grouped items
  have bodies : (Answer.divided items).bodies
      = groups.mapIdx (fun i g => 0x00 :: BitVec.ofNat 8 (groups.length - 1 - i) :: g.flatten) := by
    rw [← dividedBodies_eq, ← packed]
    rfl
  refine ⟨groups, some_, flat, fits, ?_⟩
  rw [← bodies]
  exact request_eq_of_work ready reply

end Sys2Proof.Proofs.Divided
end

section
/-! PROOFS. The status replies (R23, R46, R59, R63, R67, R79, R90, R123, R146, R162, R186, R190). -/

namespace Sys2Proof.Proofs.StatusReads

open Sys2Proof Sys2Proof.Machine Sys2Proof.Laws Sys2Proof.Proofs.Cues Sys2Proof.Proofs.Link
  Sys2Proof.Proofs.ClipArm
  Sys2Proof.Proofs.Layouts Sys2Proof.Proofs.Divided

/-! ## The answers -/

section answers

variable (s : State)

theorem configReadAnswer_record {c : PartControl} {n : Nat} {r : ConfigRecord}
    (found : recordAt c.cfg n = some r) : configReadAnswer c n = .plain .ok (recordFields r) := by
  have other : n ≠ 40 := by
    intro same
    subst same
    exact nomatch found
  unfold configReadAnswer
  rw [if_neg other, found]
  dsimp only
  rw [encodeRecord_fields]

theorem configReadAnswer_result (c : PartControl) :
    configReadAnswer c 40 = .plain .ok (resultFields c.result) := by
  unfold configReadAnswer
  rw [if_pos rfl, encodeResult_fields]

theorem recordAt_past (cfg : Configuration) {n : Nat} (past : 40 ≤ n) : recordAt cfg n = none := by
  unfold recordAt
  rw [dif_neg (by omega), dif_neg (by omega), dif_neg (by omega), if_neg (by omega), if_neg (by omega),
    if_neg (by omega), if_neg (by omega)]

theorem configReadAnswer_range (c : PartControl) {n : Nat} (past : 40 < n) :
    configReadAnswer c n = .plain .range [] := by
  unfold configReadAnswer
  rw [if_neg (by omega), recordAt_past c.cfg (by omega)]
  rfl

theorem zoneStatus_one (z : ZoneId) : zoneStatus s.env s.svc z.val = .plain .ok (zoneFields s z) := by
  unfold zoneStatus
  rw [if_neg (by omega), zoneOf_val, ← zoneStatusItem_fields]

theorem zoneStatus_all : zoneStatus s.env s.svc 255 = .divided (allZones.map (zoneFields s)) := by
  unfold zoneStatus
  rw [if_pos rfl, funext (zoneStatusItem_fields s)]

theorem zoneStatus_range {n : Nat} (past : 19 < n) (other : n ≠ 255) :
    zoneStatus s.env s.svc n = .plain .range [] := by
  unfold zoneStatus
  rw [if_neg other, zoneOf_eq_none (by omega)]
  rfl

theorem moduleStatus_one (k : ModuleId) : moduleStatus s.control.cfg s.sup (k.val + 1)
    = .plain .ok (moduleFields s k ++ pollFields s) := by
  unfold moduleStatus
  rw [if_neg (by omega), moduleOf_number, ← moduleStatusItem_fields, ← pollStatusItem_fields]

theorem moduleStatus_all : moduleStatus s.control.cfg s.sup 255
    = .divided (allModules.map (moduleFields s) ++ [pollFields s]) := by
  unfold moduleStatus
  rw [if_pos rfl, funext (moduleStatusItem_fields s), pollStatusItem_fields]

theorem moduleStatus_range {n : Nat} (outside : n = 0 ∨ 12 < n) (other : n ≠ 255) :
    moduleStatus s.control.cfg s.sup n = .plain .range [] := by
  unfold moduleStatus
  rw [if_neg other, moduleOf_eq_none outside]
  rfl

theorem audAnswer_of (a : Aud) {f g : Aud → List Byte} (same : f a = g a) :
    audAnswer (audNumber a) f = .plain .ok (g a) := by
  unfold audAnswer
  rw [audOf_audNumber, ← same]

theorem audAnswer_range {n : Nat} (one : n ≠ 1) (two : n ≠ 2) (f : Aud → List Byte) :
    audAnswer n f = .plain .range [] := by
  unfold audAnswer
  rw [audOf_eq_none one two]
  rfl

theorem cueReadAnswer_found {a : Aud} {m : Nat} (some_ : m ≠ 0) {before after : List CueEntry} {e : CueEntry}
    (list : (s.cue.get a).list = before ++ e :: after) (below : ∀ x ∈ before, x.number < m)
    (reached : m ≤ e.number) : cueReadAnswer s (audNumber a) m
      = .plain .ok (entryFields e (s.cue.get a).list.length) := by
  have found : (s.cue.get a).list.find? (fun e => decide (m ≤ e.number)) = some e := by
    rw [list, List.find?_append, List.find?_eq_none.2 (fun x mem => by simpa using below x mem),
      List.find?_cons_of_pos (by simpa using reached)]
    rfl
  unfold cueReadAnswer
  rw [audOf_audNumber]
  dsimp only
  rw [if_neg some_, found, ← cueReadBytes_fields]

theorem cueReadAnswer_absent {a : Aud} {m : Nat} (some_ : m ≠ 0)
    (below : ∀ e ∈ (s.cue.get a).list, e.number < m) :
    cueReadAnswer s (audNumber a) m = .plain .absent [] := by
  have none_ : (s.cue.get a).list.find? (fun e => decide (m ≤ e.number)) = none :=
    List.find?_eq_none.2 (fun x mem => by simpa using below x mem)
  unfold cueReadAnswer
  rw [audOf_audNumber]
  dsimp only
  rw [if_neg some_, none_]
  rfl

theorem cueReadAnswer_range {n : Nat} (one : n ≠ 1) (two : n ≠ 2) (m : Nat) :
    cueReadAnswer s n m = .plain .range [] := by
  unfold cueReadAnswer
  rw [audOf_eq_none one two]
  rfl

theorem cueReadAnswer_zero (n : Nat) : cueReadAnswer s n 0 = .plain .range [] := by
  unfold cueReadAnswer
  cases audOf n <;> rfl

theorem channelStatus_one (d : ChannelId) :
    channelStatus s.env s.svc d.val = .plain .ok (channelFields s d) := by
  unfold channelStatus
  rw [if_neg (by omega), channelOf_val, ← channelStatusItem_fields]

theorem channelStatus_all : channelStatus s.env s.svc 255 = .divided (allChannels.map (channelFields s)) := by
  unfold channelStatus
  rw [if_pos rfl, funext (channelStatusItem_fields s)]

theorem channelStatus_range {n : Nat} (past : 3 < n) (other : n ≠ 255) :
    channelStatus s.env s.svc n = .plain .range [] := by
  have none_ : channelOf n = none := dif_neg (by omega)
  unfold channelStatus
  rw [if_neg other, none_]
  rfl

theorem callStatus_one {n : Nat} (some_ : n ≠ 0) {k : Call} (found : findCall n s.svc = some k) :
    callStatus s.svc n = .plain .ok (tableFields s ++ callFields s k) := by
  unfold callStatus
  rw [if_neg some_, found, ← callStatusItem_fields]
  rfl

theorem callStatus_all :
    callStatus s.svc 0 = .divided (tableFields s :: (queueOrder s.svc.calls).map (callFields s)) := by
  unfold callStatus
  rw [if_pos rfl, funext (callStatusItem_fields s)]
  rfl

theorem callStatus_absent {n : Nat} (some_ : n ≠ 0) (none_ : findCall n s.svc = none) :
    callStatus s.svc n = .plain .absent [] := by
  unfold callStatus
  rw [if_neg some_, none_]
  rfl

theorem entranceStatus_one (a : Aud) : entranceStatus s.env s.svc (audNumber a)
    = .plain .ok (houseFields s a ++ (allEntrances.map (entranceFields s)).flatten) := by
  have named : audNumber a ≠ 0 := by cases a <;> decide
  unfold entranceStatus
  dsimp only
  rw [if_neg named, audOf_audNumber, ← houseStatusItem_fields, funext (entranceStatusItem_fields s)]

theorem entranceStatus_all : entranceStatus s.env s.svc 0
    = .divided (houseFields s .one :: houseFields s .two :: allEntrances.map (entranceFields s)) := by
  unfold entranceStatus
  dsimp only
  rw [if_pos rfl, houseStatusItem_fields, houseStatusItem_fields, funext (entranceStatusItem_fields s)]

theorem entranceStatus_range {n : Nat} (past : 2 < n) : entranceStatus s.env s.svc n = .plain .range [] := by
  unfold entranceStatus
  dsimp only
  rw [if_neg (by omega), audOf_eq_none (by omega) (by omega)]
  rfl

theorem streamStatus_all : streamStatus s.svc
    = .divided ((u16 s.svc.free ++ u16 (reserve s.svc.slots)) :: allSlots.map (slotFields s)) := by
  unfold streamStatus
  rw [funext (slotStatusItem_fields s)]

end answers

/-! ## The commands -/

section commands

variable {s : State} (ready : Ready s) (tag : Byte) {n : Nat} {st : Status} {bytes : List Byte}
include ready

/-- A request whose owner answers from the state alone. -/
theorem request_answers {kind : RequestKind} {answer : State → Answer}
    (same : answer (taken tag kind s) = .plain st bytes) :
    request tag kind (fun t => t.reply tag kind (answer t)) s
      = .next (answered tag kind st bytes (taken tag kind s)) :=
  request_eq_of_work ready (congrArg (fun ans => (taken tag kind s).reply tag kind ans) same)

theorem exec_configRead (h : configReadAnswer s.control n = .plain st bytes) :
    exec (.configRead tag n) s = .next (answered tag .configRead st bytes (taken tag .configRead s)) :=
  request_answers ready tag (answer := fun t => configReadAnswer t.control n) h

theorem exec_zoneStatus (h : zoneStatus s.env s.svc n = .plain st bytes) :
    exec (.zoneStatus tag n) s = .next (answered tag .zoneStatus st bytes (taken tag .zoneStatus s)) :=
  request_answers ready tag (answer := fun t => zoneStatus t.env t.svc n) h

theorem exec_moduleStatus (h : moduleStatus s.control.cfg s.sup n = .plain st bytes) :
    exec (.moduleStatus tag n) s
      = .next (answered tag .moduleStatus st bytes (taken tag .moduleStatus s)) :=
  request_answers ready tag (answer := fun t => moduleStatus t.control.cfg t.sup n) h

theorem exec_cueRead {m : Nat} (h : cueReadAnswer s n m = .plain st bytes) :
    exec (.cueRead tag n m) s = .next (answered tag .cueRead st bytes (taken tag .cueRead s)) :=
  request_answers ready tag (answer := fun t => cueReadAnswer t n m) h

theorem exec_cueStatus (h : audAnswer n (fun a =>
      cueStatusBytes (s.control.cfg.auditoria.get a) (s.cue.get a)) = .plain st bytes) :
    exec (.cueStatus tag n) s = .next (answered tag .cueStatus st bytes (taken tag .cueStatus s)) :=
  request_answers ready tag (answer := fun t => audAnswer n (fun a =>
    cueStatusBytes (t.control.cfg.auditoria.get a) (t.cue.get a))) h

theorem exec_captureRead (h : audAnswer n (fun a => captureBytes (s.cue.get a)) = .plain st bytes) :
    exec (.captureRead tag n) s = .next (answered tag .captureRead st bytes (taken tag .captureRead s)) :=
  request_answers ready tag (answer := fun t => audAnswer n (fun a => captureBytes (t.cue.get a))) h

theorem exec_gapStatus (h : audAnswer n (fun a =>
      gapStatusBytes (s.control.cfg.auditoria.get a) (s.quiet.get a)) = .plain st bytes) :
    exec (.gapStatus tag n) s = .next (answered tag .gapStatus st bytes (taken tag .gapStatus s)) :=
  request_answers ready tag (answer := fun t => audAnswer n (fun a =>
    gapStatusBytes (t.control.cfg.auditoria.get a) (t.quiet.get a))) h

theorem exec_channelStatus (h : channelStatus s.env s.svc n = .plain st bytes) :
    exec (.channelStatus tag n) s
      = .next (answered tag .channelStatus st bytes (taken tag .channelStatus s)) :=
  request_answers ready tag (answer := fun t => channelStatus t.env t.svc n) h

theorem exec_callStatus (h : callStatus s.svc n = .plain st bytes) :
    exec (.callStatus tag n) s = .next (answered tag .callStatus st bytes (taken tag .callStatus s)) :=
  request_answers ready tag (answer := fun t => callStatus t.svc n) h

theorem exec_entranceStatus (h : entranceStatus s.env s.svc n = .plain st bytes) :
    exec (.entranceStatus tag n) s
      = .next (answered tag .entranceStatus st bytes (taken tag .entranceStatus s)) :=
  request_answers ready tag (answer := fun t => entranceStatus t.env t.svc n) h

/-- A request whose owner answers in parts. -/
theorem request_divides {kind : RequestKind} {answer : State → Answer} {items : List (List Byte)}
    (same : answer (taken tag kind s) = .divided items) :
    AnsweredInParts tag kind items s (request tag kind (fun t => t.reply tag kind (answer t)) s) :=
  answeredInParts_of_divided ready (congrArg (fun ans => (taken tag kind s).reply tag kind ans) same)

end commands

/-! ## The records in force (spec/11 section 11.1) -/

theorem recordAt_zone (cfg : Configuration) (z : ZoneId) : recordAt cfg z.val = some (.zone (look cfg.zones z)) :=
  dif_pos z.isLt

theorem recordAt_entrance (cfg : Configuration) (e : EntranceId) :
    recordAt cfg (20 + e.val) = some (.entrance (look cfg.entrances e)) := by
  have inside := e.isLt
  simp [recordAt, inside]

theorem recordAt_channel (cfg : Configuration) (d : ChannelId) :
    recordAt cfg (32 + d.val) = some (.channel (look cfg.channels d)) := by
  have inside := d.isLt
  have past : ¬ 32 + d.val < 20 := by omega
  have past' : ¬ 32 + d.val - 20 < 12 := by omega
  simp [recordAt, inside, past, past']

theorem recordAt_auditorium (cfg : Configuration) (a : Aud) :
    recordAt cfg (35 + audNumber a) = some (.auditorium (cfg.auditoria.get a)) := by cases a <;> rfl

/-- Settles O16, from the layouts of the replies and the division into frames. -/
theorem statusReadsAnswer : Obligations.StatusReadsAnswer := by
  refine ⟨byteForms, fun tag n m s ready => ⟨fun z at_ => ?zone, fun e at_ => ?entrance, fun d at_ => ?channel,
    fun a at_ => ?auditorium, fun at_ => ?supervision, fun at_ => ?link, fun at_ => ?result,
    fun k at_ => ?module_, fun a at_ => ⟨?cue, ?capture, ?gap, ?entry, ?house⟩, fun d at_ => ?engine,
    fun k some_ found => ?call, ?zones, ?modules, ?streams, ?channels, ?calls, ?entrances⟩,
    fun tag n m s ready => ⟨fun past => ?_, fun past other => ?_, fun outside other => ?_,
      fun one two => ⟨?_, ?_, ?_, ?_⟩, ?_, fun a at_ some_ below => ?_, fun past other => ?_,
      fun some_ none_ => ?_, fun past => ?_⟩⟩
  case zone =>
    subst at_
    exact ⟨exec_configRead ready tag (configReadAnswer_record (recordAt_zone _ z)),
      exec_zoneStatus ready tag (zoneStatus_one s z)⟩
  case entrance => subst at_; exact exec_configRead ready tag (configReadAnswer_record (recordAt_entrance _ e))
  case channel => subst at_; exact exec_configRead ready tag (configReadAnswer_record (recordAt_channel _ d))
  case auditorium =>
    subst at_; exact exec_configRead ready tag (configReadAnswer_record (recordAt_auditorium _ a))
  case supervision => subst at_; exact exec_configRead ready tag (configReadAnswer_record rfl)
  case link => subst at_; exact exec_configRead ready tag (configReadAnswer_record rfl)
  case result => subst at_; exact exec_configRead ready tag (configReadAnswer_result s.control)
  case module_ => subst at_; exact exec_moduleStatus ready tag (moduleStatus_one s k)
  case cue => subst at_; exact exec_cueStatus ready tag (audAnswer_of a (cueStatusBytes_fields s a))
  case capture => subst at_; exact exec_captureRead ready tag (audAnswer_of a (captureBytes_fields s a))
  case gap => subst at_; exact exec_gapStatus ready tag (audAnswer_of a (gapStatusBytes_fields s a))
  case entry =>
    subst at_
    exact fun before e after some_ list below reached =>
      exec_cueRead ready tag (cueReadAnswer_found s some_ list below reached)
  case house => subst at_; exact exec_entranceStatus ready tag (entranceStatus_one s a)
  case engine => subst at_; exact exec_channelStatus ready tag (channelStatus_one s d)
  case call => exact exec_callStatus ready tag (callStatus_one s some_ found)
  case zones =>
    exact request_divides ready tag (answer := fun t => zoneStatus t.env t.svc 255) (zoneStatus_all s)
  case modules =>
    exact request_divides ready tag (answer := fun t => moduleStatus t.control.cfg t.sup 255)
      (moduleStatus_all s)
  case streams =>
    exact request_divides ready tag (answer := fun t => streamStatus t.svc) (streamStatus_all s)
  case channels =>
    exact request_divides ready tag (answer := fun t => channelStatus t.env t.svc 255) (channelStatus_all s)
  case calls => exact request_divides ready tag (answer := fun t => callStatus t.svc 0) (callStatus_all s)
  case entrances =>
    exact request_divides ready tag (answer := fun t => entranceStatus t.env t.svc 0) (entranceStatus_all s)
  · exact exec_configRead ready tag (configReadAnswer_range s.control past)
  · exact exec_zoneStatus ready tag (zoneStatus_range s past other)
  · exact exec_moduleStatus ready tag (moduleStatus_range s outside other)
  · exact exec_cueRead ready tag (cueReadAnswer_range s one two m)
  · exact exec_cueStatus ready tag (audAnswer_range one two _)
  · exact exec_captureRead ready tag (audAnswer_range one two _)
  · exact exec_gapStatus ready tag (audAnswer_range one two _)
  · exact exec_cueRead ready tag (cueReadAnswer_zero s n)
  · subst at_
    exact exec_cueRead ready tag (cueReadAnswer_absent s some_ below)
  · exact exec_channelStatus ready tag (channelStatus_range s past other)
  · exact exec_callStatus ready tag (callStatus_absent s some_ none_)
  · exact exec_entranceStatus ready tag (entranceStatus_range s past)

end Sys2Proof.Proofs.StatusReads
end
